-- ==== Sys2Proof/Word.lean ====
section
/-!
DEFINITION. Word.lean: the word types of the GL8016 model and the names of the index types its commands carry.
Bits are numbered from 0 at the least significant end (R7); structures in memory are little-endian (R8).
-/
namespace Sys2Proof

/-- One byte of a frame, of host memory or of HBM. -/
abbrev Byte := BitVec 8

/-- A 32-bit register (R11). -/
abbrev Word := BitVec 32

/-- A 64-bit register or counter (R11, R21). -/
abbrev DWord := BitVec 64

/-- A run of bytes, the first byte at the lowest address. -/
abbrev Bytes := List Byte

/-- The Signpost, the 512-bit packet metadata record (R41). -/
abbrev Signpost := BitVec 512

/-- A 16-bit status code: class in bits [15:12] (R22). -/
abbrev Status := BitVec 16

/-- A function as EVT_ROUTE.FUNC encodes it: 0 to 7 physical, 8 to 0x1007 virtual, 0x1FFF none (Tables 1-11, 1-12). -/
abbrev Func := BitVec 13

/-- The FUNC value that names no function (Table 1-12). -/
def Func.none : Func := 0x1FFF

end Sys2Proof
end

