-- ==== Sys2Proof/Syntax.lean ====
section
/-!
DEFINITION. Syntax.lean: the commands of the GL8016, one constructor for each row of the table of operations and events.
A command names the object it acts on and carries what comes from outside the device with it: bytes received, bytes a read
returned, values written, readings and the outcomes of physical work. What the device itself knows is in its state.
-/
namespace Sys2Proof

/-- Who writes a register (R13): the firmware, the Tether core, or any other party. -/
inductive Writer where
  | firmware | tether | other
  /-- the driver of a function, through its function control page: the address is an offset there -/
  | driver (f : Fin 4104)
  /-- the party of a Kite line, through its page: the address is an offset there -/
  | party (ch : BitVec 13)
  deriving DecidableEq, Repr

/-- How a host read request came back (Table 10-5): data, Unsupported Request, Completer Abort, poisoned data, or an access
its IDE stream or translation refused. -/
inductive CplStatus where
  | ok | ur | ca | poisoned | refused
  deriving DecidableEq, Repr

/-- How a host read ends that one command makes and ends (Table 10-5): as its completion says, by its timeout, or by the failure
of the IDE stream or of the link that carries it. -/
inductive ReadEnd where
  | cpl (c : CplStatus)
  | timeout
  | ide (stream : Fin 4)
  | linkDown
  deriving DecidableEq, Repr

/-- What a read of KL_RSP takes up (R276): all 64 bits at 0x0008, its low half alone, or its high half at 0x000C. -/
inductive RspRead where
  | whole | low | high
  deriving DecidableEq, Repr

/-- What the SCE finds in the segments of a back-end connection as they follow one another (NVMe/TCP): whole PDUs, a digest
that fails, a PDU that is malformed, or a ready-to-transfer PDU for a piece of a command, with its offset and length. -/
inductive SegSeen where
  | good | badDigest | malformed | r2t (piece off len : Nat)
  deriving DecidableEq, Repr

/-- What a read of a protected word finds (R395, R400). -/
inductive HbmErr where
  | clean | corrected | uncorrectable
  deriving DecidableEq, Repr

/-- What the issue of an instruction meets in the engine's own memories (R195): nothing, a parity failure of the word fetched,
or a corrected or an uncorrectable error in the local data it reads. -/
inductive EngMem where
  | clean | parity | corrected | uncorrectable
  deriving DecidableEq, Repr

/-- One memory fault self-test finds: KIND and OBJECT as Table 19-5 lays them out, and whether a spare covers it. -/
structure MemFault where
  kind : Nat
  object : BitVec 34
  covered : Bool
  deriving DecidableEq, Repr

/-- What self-test finds (Table 19-3): engines, carriageway instances (4 the Shoulder), cipher cores and whether a control
core fail step 6, memory faults, and the milliseconds taken. -/
structure SelfTest where
  engines : List (Fin 136)
  insts : List (Fin 5)
  cores : List (Fin 20)
  ctlCore : Bool
  faults : List MemFault
  ms : BitVec 16
  deriving DecidableEq, Repr

/-- A 32-bit register of a function's configuration space, by what it is: the spec gives the capabilities (Table 10-2) and
not their offsets. -/
inductive CfgReg where
  | vendorDevice | commandStatus | revisionClass | bar (i : Fin 6) | subsystem | interrupt
  | pmCsr | msiControl | msiAddrLow | msiAddrHigh | msiData | msiMask | msiPending | msixControl | msixTable | msixPba
  | devControl | devControl2 | aerUncorr | aerCorr | aerHeader (i : Fin 4) | serial (high : Bool)
  | sriovControl | sriovTotal | sriovNumVfs | sriovOffset | sriovDevice | sriovBar (i : Fin 6)
  | atsControl | pasidControl | devCap | devCap2 | devCap3 | linkCap | linkControl | pmCap | aerControl | ariCap | doeCap
  | ideCap | ideControl (i : Fin 4) | ideStatus (i : Fin 4) | l1ssCap | l1ssControl | ltr
  | capHeader (id : Byte) | extCapHeader (id : BitVec 16) | other (offset : BitVec 12)
  deriving DecidableEq, Repr

/-- The commands: one constructor for each row of spec/opcode_table.json, in its order. An operand with a default says how the
row takes a course that is not the plain one: a memory error, a read that fails, a part of a register. -/
inductive Instr where
  /-- HOST_REGISTER_WRITE_DISCARD (R1). A host write to the device register space through BAR0 is discarded, completes normally and is counted in the HIU. -/
  | hostRegisterWriteDiscard (f : Fin 4104) (a : BitVec 24) (v : DWord)
  /-- UNALIGNED_ACCESS (R12). A register access that is not an aligned 32-bit or 64-bit access completes with zero data and no other effect, and is counted. -/
  | unalignedAccess (f : Fin 4104) (write : Bool) (a : BitVec 24) (len : Nat) (db : Bool := false)
  /-- RC_READ (R17). A read of an RC register by the manager through BAR0 returns the value and clears it, keeping any increment of the same cycle. -/
  | rcRead (a : BitVec 24) (wide : Bool)
  /-- REGISTER_WRITE (R13). A write to a register with no row of its own acts by its access code, and TW writes by others are ignored. -/
  | registerWrite (w : Writer) (a : BitVec 24) (wide : Bool) (v : DWord)
  /-- EVENT_CROSSING_DELIVER (R415). An event crossing delivers one pending, possibly merged, event to its destination and toggles the acknowledge. -/
  | eventCrossingDeliver (n : Fin 2048)
  /-- MSIX_UNMASK (R236). Unmasking an MSI-X vector or the function sends the held message and clears the pending state. -/
  | msixUnmask (f : Fin 4104) (v : Option (Fin 2048)) (addr : DWord) (data : Word) (masked : Bool)
  /-- MSI_UNMASK (R235). Unmasking an MSI vector sends the message held behind its pending bit. -/
  | msiUnmask (f : Fin 4104) (v : Fin 32)
  /-- FW_EVENT_TAKE (R36). The firmware takes an occurrence from its event queue, clearing the source's pending bit. -/
  | fwEventTake
  /-- TETHER_EVENT_TAKE (R36). The Tether takes an occurrence from its event queue, clearing the source's pending bit. -/
  | tetherEventTake
  /-- EVT_ROUTE_SET (R33). The manager's command sets the route of one event source. -/
  | evtRouteSet (ch : BitVec 13) (seq : BitVec 4)
  /-- PACKET_PARSE (R39). A parse unit takes a packet, parses its header stack, builds the Signpost and dispatches it through the lane map. -/
  | packetParse (u : Fin 5)
  /-- REPARSE (R38). Parse unit 4 re-parses a recirculated packet, rewriting header fields and keeping waymark, pass and results. -/
  | reparse
  /-- LANE_HOLD_RELEASE (R50). Packets held behind a lane map change are released once the old instance has passed every earlier packet of the index. -/
  | laneHoldRelease (i : Fin 16)
  /-- FOLLOW_WAIT_EXPIRE (R54). The follow-wait of a HOLDING entry expires, its held fragments take the orphan action and the entry is freed. -/
  | followWaitExpire (slot : Fin 4) (idx : Fin 65536)
  /-- FOLLOW_AGE_EXPIRE (R55). A FOLLOWING entry untouched for AGE is freed and counted as aged. -/
  | followAgeExpire (slot : Fin 4) (idx : Fin 65536)
  /-- LANE_MAP_SET (R49). The manager's command rewrites one lane map entry to an instance serving a slot. -/
  | laneMapSet (ch : BitVec 13) (seq : BitVec 4)
  /-- PARSE_CFG (R281). The manager's version 2 command writes the parser configuration image, ignoring the lane map bytes. -/
  | parseCfg (ch : BitVec 13) (seq : BitVec 4)
  /-- CARRIAGEWAY_PASS (R63). A carriageway runs one pass of a Signpost through 24 stages and acts on DEST at the end. -/
  | carriagewayPass (i : Fin 5) (flip : Word) (bad : List (Fin 24))
  /-- TCAM_COMMIT (R72). A write of CWAY_TCAM_COMMIT writes the staged policy classifier entry into all five instances. -/
  | tcamCommit (v : Word)
  /-- RULESET_LOAD (R79). The manager's command begins or continues loading a generation slot with stage programs, templates and TCAM records. -/
  | rulesetLoad (ch : BitVec 13) (seq : BitVec 4)
  /-- RULESET_COMMIT (R78). The manager's command commits the LOADING slot, making it LIVE at all parse units in one cycle. -/
  | rulesetCommit (ch : BitVec 13) (seq : BitVec 4)
  /-- RULESET_DISCARD (R79). The manager's command returns the LOADING slot to FREE. -/
  | rulesetDiscard (ch : BitVec 13) (seq : BitVec 4)
  /-- LEARN_APPLY (R102). A table engine applies a queued learning request by insertion, refresh, move or refusal. -/
  | learnApply (i : Fin 5)
  /-- STATION_COPY_APPLY (R108). A destination instance applies a queued station copy with COPIED set. -/
  | stationCopyApply (i : Fin 5)
  /-- AGE_TICK (R104). RTBL_AGE_NOW advances by one tick every RTBL_AGE_TICK milliseconds. -/
  | ageTick
  /-- SWEEPER_VISIT (R105). The sweeper visits a bucket and its overflow entries and removes aged unlocked entries. -/
  | sweeperVisit (i : Fin 5) (tbl : Fin 2)
  /-- READ_KEY (R112). The table-access operation finds the entry with a key and writes it to host memory. -/
  | taReadKey (ring : BitVec 20) (no : Nat)
  /-- READ_INDEX (R115). The table-access operation writes a range of entries by index to host memory. -/
  | taReadIndex (ring : BitVec 20) (no : Nat)
  /-- DUMP (R114). The table-access operation writes buckets with their overflow entries as dump records. -/
  | taDump (ring : BitVec 20) (no : Nat)
  /-- WRITE (R113). The table-access operation writes entries by key or index into the named tables. -/
  | taWrite (ring : BitVec 20) (no : Nat)
  /-- DELETE (R113). The table-access operation removes the entry with a key. -/
  | taDelete (ring : BitVec 20) (no : Nat)
  /-- SHADOW_WINDOW_OPEN (R118). Every PERIOD the Shoulder opens a shadow window on the next slot in the rotation. -/
  | shadowWindowOpen
  /-- SHADOW_WINDOW_END (R118). The shadow window closes after WINDOW and the rotation advances. -/
  | shadowWindowEnd
  /-- SHADOW_PASS (R121). The Shoulder runs a copied pass using echoes and toll records, acting on nothing. -/
  | shadowPass (flip : Word)
  /-- TIE_BREAK_REPLAY (R124). A mismatched pass is replayed on the next slot's instance to break the tie. -/
  | tieBreakReplay (flip : Word)
  /-- SUBSTITUTION (R127). The Shoulder takes the place of a suspect instance, adopting its regions and replaying its retained passes. -/
  | substitution
  /-- SHOULDER_FORCE (R127). The manager's command forces a substitution of a named slot. -/
  | shoulderForce (ch : BitVec 13) (seq : BitVec 4)
  /-- SHOULDER_CFG (R118). The manager's command sets the shadow schedule from the next window. -/
  | shoulderCfg (ch : BitVec 13) (seq : BitVec 4)
  /-- TM_ADMIT (R142). The traffic manager admits an arriving packet to its leaf queue or drops it for the first failing reason. -/
  | tmAdmit
  /-- TM_SEND (R138). A port node schedules and sends a packet, charging shaper levels along its path. -/
  | tmSend (n : Fin 16) (bad : Bool)
  /-- SHAPER_REFILL (R139). Every microsecond every shaper bucket refills, applying pending rate and burst writes. -/
  | shaperRefill
  /-- TIME_GATE_ENTRY (R152). A gate control list entry's interval ends and the next entry's gates apply. -/
  | timeGateEntry (p : Fin 8)
  /-- TIME_GATE_SWITCH (R156). At switch time S the pending bank becomes active at entry 0. -/
  | timeGateSwitch (p : Fin 8)
  /-- TM_IND_READ (R158). TM_IND_CTL OP 0b01 reads a traffic manager object into TM_IND_DATA. -/
  | tmIndRead (v : Word)
  /-- TM_IND_WRITE (R133). TM_IND_CTL OP 0b10 writes a traffic manager object, or is refused. -/
  | tmIndWrite (v : Word)
  /-- TM_READ (R158). A party's command reads traffic manager objects of its allocation. -/
  | tmRead (ch : BitVec 13) (seq : BitVec 4)
  /-- TM_WRITE (R133). A function's command writes traffic manager objects of its allocation. -/
  | tmWrite (ch : BitVec 13) (seq : BitVec 4)
  /-- TM_DRAIN (R133). A function's command begins draining a subscriber or service node. -/
  | tmDrain (ch : BitVec 13) (seq : BitVec 4)
  /-- TM_DRAIN_DONE (R133). The drain of a node ends and the TM_DRAIN command is answered. -/
  | tmDrainDone (ch : BitVec 13) (seq : BitVec 4)
  /-- TM_FLUSH (R146). The manager's command flushes a port node, dropping its packets with reason 10. -/
  | tmFlush (ch : BitVec 13) (seq : BitVec 4)
  /-- TG_LOAD (R156). The manager's command loads gate control list entries into the inactive bank. -/
  | tgLoad (ch : BitVec 13) (seq : BitVec 4)
  /-- TG_SWITCH (R156). The manager's command sets the next list and requests a switch, setting S. -/
  | tgSwitch (ch : BitVec 13) (seq : BitVec 4)
  /-- POOL_SET (R142). The manager's command sets a buffer pool limit. -/
  | poolSet (ch : BitVec 13) (seq : BitVec 4)
  /-- LINE_FRAME_RECEIVE (R162). A line port MAC receives a frame and passes it on or drops it by reason. -/
  | lineFrameReceive (p : Fin 8) (frame : Bytes) (ok : Bool) (symErr : Bool)
  /-- PAUSE_EXPIRE (R165). The pause time of a port or class runs out and starting resumes. -/
  | pauseExpire (p : Fin 8) (c : Fin 8)
  /-- PFC_REFRESH (R166). Every 0x8000 quanta above XON the MAC repeats the PFC frame. -/
  | pfcRefresh (p : Fin 8) (c : Fin 8)
  /-- ALIGNMENT_LOSS (R168). A line port loses alignment, cutting frames in flight. -/
  | alignmentLoss (p : Fin 8) (cutTx : Bool) (cutRx : Bool)
  /-- LINK_DOWN (R168). Alignment lost for more than 10 µs takes the port out of UP and raises LINK_DOWN. -/
  | linkDown (p : Fin 8)
  /-- TRAINING_COMPLETE (R168). Auto-negotiation and link training complete and the port goes to ALIGNING. -/
  | trainingComplete (p : Fin 8)
  /-- TRAINING_TIMEOUT (R168). Training without completion for 500 ms restarts and counts TRAIN_TRIES. -/
  | trainingTimeout (p : Fin 8)
  /-- LINK_UP (R168). PCS and FEC alignment lock and the port enters UP. -/
  | linkUp (p : Fin 8)
  /-- ALIGN_TIMEOUT (R168). ALIGNING without lock for 10 ms returns to TRAINING or retries. -/
  | alignTimeout (p : Fin 8)
  /-- FEC_DEGRADED (R169). At each 1 ms boundary FEC_DEGRADED is set or cleared from the pre-FEC symbol errors. -/
  | fecDegraded (p : Fin 8) (errors : Nat)
  /-- MGMT_FRAME_RECEIVE (R167). The management port receives a frame for parse units 0 and 1 with SRC_PORT 8. -/
  | mgmtFrameReceive (frame : Bytes) (ok : Bool)
  /-- MGMT_LINK (R167). The management link comes up or goes down, setting the UP of its port node. -/
  | mgmtLink (up : Bool)
  /-- PORT_OPTION (R160). The manager's command changes the port option, taking every line port to DISABLED. -/
  | portOption (ch : BitVec 13) (seq : BitVec 4)
  /-- PORT_CFG (R160). The manager's command writes a line port's configuration. -/
  | portCfg (ch : BitVec 13) (seq : BitVec 4)
  /-- PFC_THRESH (R166). The manager's command writes a port's XOFF and XON thresholds. -/
  | pfcThresh (ch : BitVec 13) (seq : BitVec 4)
  /-- MGMT_CFG (R167). The manager's command configures the management port. -/
  | mgmtCfg (ch : BitVec 13) (seq : BitVec 4)
  /-- TIME_INCR_WRITE (R170). TIME_ADJUST operation 0 writes TIME_INCR as a frequency adjustment. -/
  | timeIncrWrite (ch : BitVec 13) (seq : BitVec 4)
  /-- TIME_SLEW (R171). TIME_ADJUST operation 1 starts a slew of Milepost time by a signed amount. -/
  | timeSlew (ch : BitVec 13) (seq : BitVec 4)
  /-- TIME_SET_STEP (R170). TIME_ADJUST operation 2 steps Milepost time to TIME_SET. -/
  | timeSetStep (ch : BitVec 13) (seq : BitVec 4)
  /-- TIME_OFFSET_STEP (R170). TIME_ADJUST operation 3 steps Milepost time by TIME_OFFSET. -/
  | timeOffsetStep (ch : BitVec 13) (seq : BitVec 4)
  /-- PPS_OUT (R174). At each whole second the PPS output pulses high for PULSE_NS. -/
  | ppsOut
  /-- PPS_IN (R174). A rising edge of the PPS input latches Milepost time and raises PPS_IN. -/
  | ppsIn
  /-- LINE_REF_LOST (R408). Loss of the line SerDes reference takes every line port out of UP. -/
  | lineRefLost
  /-- HOST_REF_LOST (R408). Loss of a host port reference takes both its links out of DL_Up. -/
  | hostRefLost (n : Fin 2)
  /-- JUNCTION_DELIVER (R185). The Junction makes a committed message readable in its destination channel. -/
  | junctionDeliver
  /-- CLASS_DISPATCH (R188). The Junction delivers a queued class packet as a packet message to a member with room. -/
  | classDispatch (c : Fin 64)
  /-- CHANNEL_REBIND (R192). A channel binding change takes effect at a message boundary and moves messages to the orphan queue. -/
  | channelRebind (e : Fin 136) (c : Fin 32)
  /-- ENG_STALL (R194). All live threads blocked on LOCAL channels for 4,096 cycles mark the engine stalled. -/
  | engStall (e : Fin 136)
  /-- REQUEST_REPLY (R211). The reply to an asynchronous request arrives, data is written and the tag's done bit set. -/
  | requestReply (e : Fin 136) (t : Fin 8) (tag : Fin 8) (bad : Bool)
  /-- BUNDLE_LOAD (R197). The manager's command loads a Voluri bundle onto the engines, or refuses it. -/
  | bundleLoad (ch : BitVec 13) (seq : BitVec 4) (cpl : ReadEnd) (data : Bytes)
  /-- ENG_RUN (R198). The manager's command starts or stops a range of engines. -/
  | engRun (ch : BitVec 13) (seq : BitVec 4)
  /-- THREAD_RESTART (R195). The manager's command retires a thread, dropping its packets, and starts it again. -/
  | threadRestart (ch : BitVec 13) (seq : BitVec 4)
  /-- ENG_MAP (R218). The command returns the logical-to-physical engine map. -/
  | engMap (ch : BitVec 13) (seq : BitVec 4)
  /-- CLASS_CFG (R189). The manager's command configures an engine class and its members. -/
  | classCfg (ch : BitVec 13) (seq : BitVec 4)
  /-- ADD (R201). Thread instruction: dst gets a plus b. -/
  | thrAdd (e : Fin 136) (t : Fin 8) (m : EngMem := .clean)
  /-- SUB (R201). Thread instruction: dst gets a minus b. -/
  | thrSub (e : Fin 136) (t : Fin 8) (m : EngMem := .clean)
  /-- AND (R201). Thread instruction: dst gets a AND b. -/
  | thrAnd (e : Fin 136) (t : Fin 8) (m : EngMem := .clean)
  /-- OR (R201). Thread instruction: dst gets a OR b. -/
  | thrOr (e : Fin 136) (t : Fin 8) (m : EngMem := .clean)
  /-- XOR (R201). Thread instruction: dst gets a XOR b. -/
  | thrXor (e : Fin 136) (t : Fin 8) (m : EngMem := .clean)
  /-- SLL (R201). Thread instruction: dst gets a shifted left by b. -/
  | thrSll (e : Fin 136) (t : Fin 8) (m : EngMem := .clean)
  /-- SRL (R201). Thread instruction: dst gets a shifted right logically by b. -/
  | thrSrl (e : Fin 136) (t : Fin 8) (m : EngMem := .clean)
  /-- SRA (R201). Thread instruction: dst gets a shifted right arithmetically by b. -/
  | thrSra (e : Fin 136) (t : Fin 8) (m : EngMem := .clean)
  /-- SLT (R201). Thread instruction: dst gets 1 if a is less than b, signed. -/
  | thrSlt (e : Fin 136) (t : Fin 8) (m : EngMem := .clean)
  /-- SLTU (R201). Thread instruction: dst gets 1 if a is less than b, unsigned. -/
  | thrSltu (e : Fin 136) (t : Fin 8) (m : EngMem := .clean)
  /-- MUL (R202). Thread instruction: dst gets the low 64 bits of a times b. -/
  | thrMul (e : Fin 136) (t : Fin 8) (m : EngMem := .clean)
  /-- MULHU (R202). Thread instruction: dst gets the high 64 bits of the unsigned product. -/
  | thrMulhu (e : Fin 136) (t : Fin 8) (m : EngMem := .clean)
  /-- MIN (R201). Thread instruction: signed minimum of a and b. -/
  | thrMin (e : Fin 136) (t : Fin 8) (m : EngMem := .clean)
  /-- MAX (R201). Thread instruction: signed maximum of a and b. -/
  | thrMax (e : Fin 136) (t : Fin 8) (m : EngMem := .clean)
  /-- MINU (R201). Thread instruction: unsigned minimum of a and b. -/
  | thrMinu (e : Fin 136) (t : Fin 8) (m : EngMem := .clean)
  /-- MAXU (R201). Thread instruction: unsigned maximum of a and b. -/
  | thrMaxu (e : Fin 136) (t : Fin 8) (m : EngMem := .clean)
  /-- SLLI (R201). Thread instruction: shift left by the b field as a number. -/
  | thrSlli (e : Fin 136) (t : Fin 8) (m : EngMem := .clean)
  /-- SRLI (R201). Thread instruction: logical shift right by the b field as a number. -/
  | thrSrli (e : Fin 136) (t : Fin 8) (m : EngMem := .clean)
  /-- SRAI (R201). Thread instruction: arithmetic shift right by the b field as a number. -/
  | thrSrai (e : Fin 136) (t : Fin 8) (m : EngMem := .clean)
  /-- POPC (R201). Thread instruction: count the ones of a. -/
  | thrPopc (e : Fin 136) (t : Fin 8) (m : EngMem := .clean)
  /-- CLZ (R201). Thread instruction: count leading zeros of a. -/
  | thrClz (e : Fin 136) (t : Fin 8) (m : EngMem := .clean)
  /-- CTZ (R201). Thread instruction: count trailing zeros of a. -/
  | thrCtz (e : Fin 136) (t : Fin 8) (m : EngMem := .clean)
  /-- BSWAP64 (R201). Thread instruction: reverse the byte order of the 8 bytes of a. -/
  | thrBswap64 (e : Fin 136) (t : Fin 8) (m : EngMem := .clean)
  /-- BSWAP32 (R201). Thread instruction: reverse the byte order of the low 4 bytes of a. -/
  | thrBswap32 (e : Fin 136) (t : Fin 8) (m : EngMem := .clean)
  /-- BSWAP16 (R201). Thread instruction: reverse the byte order of the low 2 bytes of a. -/
  | thrBswap16 (e : Fin 136) (t : Fin 8) (m : EngMem := .clean)
  /-- ADDI (R201). Thread instruction: dst gets a plus a signed immediate. -/
  | thrAddi (e : Fin 136) (t : Fin 8) (m : EngMem := .clean)
  /-- ANDI (R201). Thread instruction: dst gets a AND an immediate. -/
  | thrAndi (e : Fin 136) (t : Fin 8) (m : EngMem := .clean)
  /-- ORI (R201). Thread instruction: dst gets a OR an immediate. -/
  | thrOri (e : Fin 136) (t : Fin 8) (m : EngMem := .clean)
  /-- XORI (R201). Thread instruction: dst gets a XOR an immediate. -/
  | thrXori (e : Fin 136) (t : Fin 8) (m : EngMem := .clean)
  /-- SLTI (R201). Thread instruction: dst gets 1 if a is less than an immediate. -/
  | thrSlti (e : Fin 136) (t : Fin 8) (m : EngMem := .clean)
  /-- MOVI (R201). Thread instruction: dst gets a sign-extended 20-bit immediate. -/
  | thrMovi (e : Fin 136) (t : Fin 8) (m : EngMem := .clean)
  /-- MOVK (R201). Thread instruction: dst shifts left 20 bits and ORs in an immediate. -/
  | thrMovk (e : Fin 136) (t : Fin 8) (m : EngMem := .clean)
  /-- BFX (R201). Thread instruction: extract a zero-extended bit field. -/
  | thrBfx (e : Fin 136) (t : Fin 8) (m : EngMem := .clean)
  /-- BFXS (R201). Thread instruction: extract a sign-extended bit field. -/
  | thrBfxs (e : Fin 136) (t : Fin 8) (m : EngMem := .clean)
  /-- BFI (R201). Thread instruction: insert a bit field into dst. -/
  | thrBfi (e : Fin 136) (t : Fin 8) (m : EngMem := .clean)
  /-- CRC32C8 (R206). Thread instruction: advance a CRC-32C over 1 byte. -/
  | thrCrc32c8 (e : Fin 136) (t : Fin 8) (m : EngMem := .clean)
  /-- CRC32C16 (R206). Thread instruction: advance a CRC-32C over 2 bytes. -/
  | thrCrc32c16 (e : Fin 136) (t : Fin 8) (m : EngMem := .clean)
  /-- CRC32C32 (R206). Thread instruction: advance a CRC-32C over 4 bytes. -/
  | thrCrc32c32 (e : Fin 136) (t : Fin 8) (m : EngMem := .clean)
  /-- CRC32C64 (R206). Thread instruction: advance a CRC-32C over 8 bytes. -/
  | thrCrc32c64 (e : Fin 136) (t : Fin 8) (m : EngMem := .clean)
  /-- CRC32E8 (R206). Thread instruction: advance an IEEE 802.3 CRC over 1 byte. -/
  | thrCrc32e8 (e : Fin 136) (t : Fin 8) (m : EngMem := .clean)
  /-- CRC32E16 (R206). Thread instruction: advance an IEEE 802.3 CRC over 2 bytes. -/
  | thrCrc32e16 (e : Fin 136) (t : Fin 8) (m : EngMem := .clean)
  /-- CRC32E32 (R206). Thread instruction: advance an IEEE 802.3 CRC over 4 bytes. -/
  | thrCrc32e32 (e : Fin 136) (t : Fin 8) (m : EngMem := .clean)
  /-- CRC32E64 (R206). Thread instruction: advance an IEEE 802.3 CRC over 8 bytes. -/
  | thrCrc32e64 (e : Fin 136) (t : Fin 8) (m : EngMem := .clean)
  /-- FOLD16 (R206). Thread instruction: XOR the four 16-bit pieces of a. -/
  | thrFold16 (e : Fin 136) (t : Fin 8) (m : EngMem := .clean)
  /-- MIX16 (R206). Thread instruction: multiply by 0x9E37 modulo 65,536. -/
  | thrMix16 (e : Fin 136) (t : Fin 8) (m : EngMem := .clean)
  /-- AADD (R207). Thread atomic: add b to a shared register, returning the old value. -/
  | thrAadd (e : Fin 136) (t : Fin 8) (m : EngMem := .clean)
  /-- AAND (R207). Thread atomic: AND b into a shared register. -/
  | thrAand (e : Fin 136) (t : Fin 8) (m : EngMem := .clean)
  /-- AOR (R207). Thread atomic: OR b into a shared register. -/
  | thrAor (e : Fin 136) (t : Fin 8) (m : EngMem := .clean)
  /-- AXOR (R207). Thread atomic: XOR b into a shared register. -/
  | thrAxor (e : Fin 136) (t : Fin 8) (m : EngMem := .clean)
  /-- ASWAP (R207). Thread atomic: swap b into a shared register. -/
  | thrAswap (e : Fin 136) (t : Fin 8) (m : EngMem := .clean)
  /-- AMINU (R207). Thread atomic: unsigned minimum into a shared register. -/
  | thrAminu (e : Fin 136) (t : Fin 8) (m : EngMem := .clean)
  /-- AMAXU (R207). Thread atomic: unsigned maximum into a shared register. -/
  | thrAmaxu (e : Fin 136) (t : Fin 8) (m : EngMem := .clean)
  /-- ACAS (R207). Thread atomic: compare and swap a shared register. -/
  | thrAcas (e : Fin 136) (t : Fin 8) (m : EngMem := .clean)
  /-- LDB (R205). Thread instruction: load 1 byte from local data memory. -/
  | thrLdb (e : Fin 136) (t : Fin 8) (m : EngMem := .clean)
  /-- LDH (R205). Thread instruction: load 2 bytes from local data memory. -/
  | thrLdh (e : Fin 136) (t : Fin 8) (m : EngMem := .clean)
  /-- LDW (R205). Thread instruction: load 4 bytes from local data memory. -/
  | thrLdw (e : Fin 136) (t : Fin 8) (m : EngMem := .clean)
  /-- LDD (R205). Thread instruction: load 8 bytes from local data memory. -/
  | thrLdd (e : Fin 136) (t : Fin 8) (m : EngMem := .clean)
  /-- STB (R205). Thread instruction: store 1 byte to local data memory. -/
  | thrStb (e : Fin 136) (t : Fin 8) (m : EngMem := .clean)
  /-- STH (R205). Thread instruction: store 2 bytes to local data memory. -/
  | thrSth (e : Fin 136) (t : Fin 8) (m : EngMem := .clean)
  /-- STW (R205). Thread instruction: store 4 bytes to local data memory. -/
  | thrStw (e : Fin 136) (t : Fin 8) (m : EngMem := .clean)
  /-- STD (R205). Thread instruction: store 8 bytes to local data memory. -/
  | thrStd (e : Fin 136) (t : Fin 8) (m : EngMem := .clean)
  /-- BEQ (R204). Thread instruction: branch if a equals b. -/
  | thrBeq (e : Fin 136) (t : Fin 8) (m : EngMem := .clean)
  /-- BNE (R204). Thread instruction: branch if a differs from b. -/
  | thrBne (e : Fin 136) (t : Fin 8) (m : EngMem := .clean)
  /-- BLT (R204). Thread instruction: branch if a is less than b, signed. -/
  | thrBlt (e : Fin 136) (t : Fin 8) (m : EngMem := .clean)
  /-- BGE (R204). Thread instruction: branch if a is at least b, signed. -/
  | thrBge (e : Fin 136) (t : Fin 8) (m : EngMem := .clean)
  /-- BLTU (R204). Thread instruction: branch if a is less than b, unsigned. -/
  | thrBltu (e : Fin 136) (t : Fin 8) (m : EngMem := .clean)
  /-- BGEU (R204). Thread instruction: branch if a is at least b, unsigned. -/
  | thrBgeu (e : Fin 136) (t : Fin 8) (m : EngMem := .clean)
  /-- JAL (R204). Thread instruction: jump to a target, optionally linking. -/
  | thrJal (e : Fin 136) (t : Fin 8) (m : EngMem := .clean)
  /-- JALR (R204). Thread instruction: jump to a register plus immediate, linking. -/
  | thrJalr (e : Fin 136) (t : Fin 8) (m : EngMem := .clean)
  /-- CHRD (R215). Thread instruction: read a channel word, blocking while empty. -/
  | thrChrd (e : Fin 136) (t : Fin 8) (m : EngMem := .clean)
  /-- CHRDNB (R215). Thread instruction: read a channel word without blocking. -/
  | thrChrdnb (e : Fin 136) (t : Fin 8) (m : EngMem := .clean)
  /-- ORPHRD (R215). Thread instruction: read the next orphan queue word. -/
  | thrOrphrd (e : Fin 136) (t : Fin 8) (m : EngMem := .clean)
  /-- CHLVL (R215). Thread instruction: read a channel's committed word count. -/
  | thrChlvl (e : Fin 136) (t : Fin 8) (m : EngMem := .clean)
  /-- CHST (R217). Thread instruction: stage a word of the open message. -/
  | thrChst (e : Fin 136) (t : Fin 8) (m : EngMem := .clean)
  /-- CHCMT (R217). Thread instruction: stage a last word and commit the message whole, or block for room. -/
  | thrChcmt (e : Fin 136) (t : Fin 8) (m : EngMem := .clean)
  /-- CHABORT (R217). Thread instruction: discard the open message. -/
  | thrChabort (e : Fin 136) (t : Fin 8) (m : EngMem := .clean)
  /-- SPRD (R208). Thread instruction: read a Signpost word of a held packet. -/
  | thrSprd (e : Fin 136) (t : Fin 8) (m : EngMem := .clean)
  /-- SPWR (R209). Thread instruction: write RW bits of a Signpost word. -/
  | thrSpwr (e : Fin 136) (t : Fin 8) (m : EngMem := .clean)
  /-- PKTTM (R190). Thread instruction: send a held packet to the traffic manager. -/
  | thrPkttm (e : Fin 136) (t : Fin 8) (m : EngMem := .clean)
  /-- PKTCW (R190). Thread instruction: return a held packet to a carriageway for a further pass. -/
  | thrPktcw (e : Fin 136) (t : Fin 8) (m : EngMem := .clean)
  /-- PKTDROP (R190). Thread instruction: discard a held packet with a reason. -/
  | thrPktdrop (e : Fin 136) (t : Fin 8) (m : EngMem := .clean)
  /-- PKTNEW (R210). Thread instruction: allocate a new originated packet in a slot. -/
  | thrPktnew (e : Fin 136) (t : Fin 8) (m : EngMem := .clean)
  /-- PKTRD (R212). Thread request: read packet bytes into local data memory. -/
  | thrPktrd (e : Fin 136) (t : Fin 8) (m : EngMem := .clean)
  /-- PKTWR (R212). Thread request: write local data memory into packet bytes. -/
  | thrPktwr (e : Fin 136) (t : Fin 8) (m : EngMem := .clean)
  /-- HBMRD (R211). Thread request: read 64 bytes from HBM. -/
  | thrHbmrd (e : Fin 136) (t : Fin 8) (m : EngMem := .clean)
  /-- HBMWR (R211). Thread request: write 64 bytes to HBM. -/
  | thrHbmwr (e : Fin 136) (t : Fin 8) (m : EngMem := .clean)
  /-- LKUP (R213). Thread request: look up a route table entry. -/
  | thrLkup (e : Fin 136) (t : Fin 8) (m : EngMem := .clean)
  /-- WAIT (R214). Thread instruction: collect a done tag or block for one. -/
  | thrWait (e : Fin 136) (t : Fin 8) (m : EngMem := .clean)
  /-- NOP (R203). Thread instruction with no effect. -/
  | thrNop (e : Fin 136) (t : Fin 8) (m : EngMem := .clean)
  /-- END (R181). Thread instruction: the thread ends, dropping any held packets. -/
  | thrEnd (e : Fin 136) (t : Fin 8) (m : EngMem := .clean)
  /-- FENCE (R214). Thread instruction: block until no tag is outstanding. -/
  | thrFence (e : Fin 136) (t : Fin 8) (m : EngMem := .clean)
  /-- TSTAT (R215). Thread instruction: copy the thread status word. -/
  | thrTstat (e : Fin 136) (t : Fin 8) (m : EngMem := .clean)
  /-- TIME (R203). Thread instruction: read Milepost time. -/
  | thrTime (e : Fin 136) (t : Fin 8) (m : EngMem := .clean)
  /-- SELF (R203). Thread instruction: read the physical and logical engine and thread numbers. -/
  | thrSelf (e : Fin 136) (t : Fin 8) (m : EngMem := .clean)
  /-- CONFIG_REQUEST (R225). A host configuration request to a function is answered, or completes with RRS. -/
  | configRequest (f : Fin 4104) (write : Bool) (reg : CfgReg) (v : Word)
  /-- CFG_READY_SET (R225). The firmware sets CFG_READY after DL_Up so configuration requests are answered. -/
  | cfgReadySet (k : Fin 4)
  /-- BAR_UNUSED_ACCESS (R227). An access to an empty BAR offset returns 0 or has no effect, and is counted. -/
  | barUnusedAccess (f : Fin 4104) (write : Bool)
  /-- COMPLETION_RECEIVE (R233). A completion for an outstanding read is taken, or discarded as unexpected. -/
  | completionReceive (k : Fin 4) (f : Fin 4104) (tag : Fin 16384) (cpl : CplStatus) (data : Bytes)
  /-- COMPLETION_TIMEOUT (R232). A read not completed within its timeout fails with HOST_TIMEOUT and its tag is quarantined. -/
  | completionTimeout (k : Fin 4) (tag : Fin 16384)
  /-- TAG_RELEASE (R232). A quarantined tag returns to use when its hold ends. -/
  | tagRelease (k : Fin 4) (tag : Fin 16384)
  /-- BME_CLEAR (R237). Clearing Bus Master Enable stops the function's DMA and puts its rings in BM_LOST. -/
  | bmeClear (f : Fin 4104)
  /-- BME_SET (R238). Setting Bus Master Enable again sends held interrupt messages. -/
  | bmeSet (f : Fin 4104)
  /-- FLR_INITIATE (R239). A Function Level Reset begins, discarding the function's inbound writes and abandoning its work. -/
  | flrInitiate (f : Fin 4104)
  /-- FLR_QUIET_POINT (R239). At t0 plus 50 µs of an FLR the outstanding tags are quarantined and the function's DMA is silent. -/
  | flrQuietPoint (f : Fin 4104)
  /-- FLR_DONE (R239). The FLR completes and the function answers configuration requests normally. -/
  | flrDone (f : Fin 4104)
  /-- FCTL_INTX_STATUS (R234). Writing 1 to ASSERTED clears it and sends Deassert_INTA. -/
  | fctlIntxStatus (f : Fin 4104) (v : Word)
  /-- PEER_REQUEST (R242). An inbound request through a peer window reaches HBM, or is refused. -/
  | peerRequest (f : Fin 8) (write : Bool) (off : Nat) (len : Nat) (data : Bytes) (poison : Bool)
  /-- WINDOW_COMMIT (R243). A write of HIU_WINDOW_COMMIT switches masked peer windows to their shadow values at a TLP boundary, or is refused. -/
  | windowCommit (v : Word)
  /-- WINDOW_DRAINED (R243). Every TLP decoded under old mappings has been applied and BUSY falls. -/
  | windowDrained
  /-- PEER_WINDOW (R243). A PF's command moves a peer window, answered after BUSY falls. -/
  | peerWindow (ch : BitVec 13) (seq : BitVec 4)
  /-- PEER_REGION_SET (R397). The manager's command places a PF's peer region in the peer pool. -/
  | peerRegionSet (ch : BitVec 13) (seq : BitVec 4)
  /-- ATS_INVALIDATE (R245). An Invalidate Request drops cached translations and is answered with an Invalidate Completion. -/
  | atsInvalidate (k : Fin 4) (f : Fin 4104) (pasid : Option (BitVec 20)) (page : BitVec 52) (count : Nat) (itag : BitVec 5)
  /-- IDE_FAULT (R247). An IDE stream failing an integrity check enters Insecure and fails its requests. -/
  | ideFault (k : Fin 4) (stream : Fin 4)
  /-- DOE_OBJECT (R248). A data object written to the DOE mailbox is taken and answered, or discarded if too long. -/
  | doeObject (f : Fin 4104) (object : List Word)
  /-- DOE_ABORT (R248). A DOE Abort clears the mailbox exchange. -/
  | doeAbort (f : Fin 4104)
  /-- L0P_REQUEST (R249). A partner's L0p width change request is accepted. -/
  | l0pRequest (k : Fin 4) (width : BitVec 5) (own : Bool := false)
  /-- ASPM_L1_ENTRY (R484). After 10 µs with no TLP the device requests ASPM L1. -/
  | aspmL1Entry (k : Fin 4) (sub : Fin 3 := 0)
  /-- ASPM_L1_EXIT (R484). The link leaves L1 when either side has a request to send. -/
  | aspmL1Exit (k : Fin 4)
  /-- PERST_ASSERT (R250). Assertion of a link's PERST_N places its functions in port reset, or warm-resets the device under PERST_FULL. -/
  | perstAssert (k : Fin 4)
  /-- PERST_RELEASE (R250). Release of PERST_N lets the link enter Detect within 20 ms. -/
  | perstRelease (k : Fin 4)
  /-- HOST_LINK_DOWN (R251). A link leaving DL_Up discards its TLPs, fails its requests, flushes its port nodes and freezes its functions. -/
  | hostLinkDown (k : Fin 4)
  /-- HOST_LINK_UP (R252). A link reaching DL_Up brings its functions to reset state and releases frozen rings. -/
  | hostLinkUp (k : Fin 4) (speed : BitVec 3) (width : BitVec 5) (flit : Bool) (tagBits : Nat)
  /-- LINK_CFG (R221). The manager's command writes a host link's configuration. -/
  | linkCfg (ch : BitVec 13) (seq : BitVec 4)
  /-- D3HOT_ENTRY (R481). A function entering D3hot stops requests and holds interrupts, keeping its state. -/
  | d3hotEntry (f : Fin 4104)
  /-- D0_RETURN (R481). A function returning to D0 resumes and sends held unmasked messages. -/
  | d0Return (f : Fin 4104)
  /-- PME_TURN_OFF (R483). PME_Turn_Off stops a link's requests and is acknowledged once reads settle, leaving DL_Up. -/
  | pmeTurnOff (k : Fin 4)
  /-- INST_CREATE (R258). The manager's command creates an instance with all-or-nothing resource grants. -/
  | instCreate (ch : BitVec 13) (seq : BitVec 4)
  /-- INST_ENABLE (R260). The manager's command takes a CREATED instance to ACTIVE. -/
  | instEnable (ch : BitVec 13) (seq : BitVec 4)
  /-- INST_QUIESCE (R261). The manager's command begins quiescing an instance, holding fetches and flushing its leaf queues. -/
  | instQuiesce (ch : BitVec 13) (seq : BitVec 4)
  /-- QUIESCE_TIMEOUT (R261). At QUIESCE_MS every operation still outstanding completes with INST_QUIESCE_ABORT. -/
  | quiesceTimeout (f : Fin 4104)
  /-- QUIESCE_COMPLETE (R261). With nothing outstanding, no backlog and QUIET 1 the instance becomes QUIESCED and the command is answered. -/
  | quiesceComplete (f : Fin 4104)
  /-- INST_RESUME (R262). The manager's command resumes a QUIESCED instance and reads marked rings. -/
  | instResume (ch : BitVec 13) (seq : BitVec 4)
  /-- INST_RESET (R260). The manager's command resets an instance back to CREATED. -/
  | instReset (ch : BitVec 13) (seq : BitVec 4)
  /-- INST_REMOVE (R264). The manager's command begins removing an instance and scrubbing its resources. -/
  | instRemove (ch : BitVec 13) (seq : BitVec 4)
  /-- SCRUB_COMPLETE (R264). Scrubbing ends, resources return to the pool and the instance becomes ABSENT. -/
  | scrubComplete (f : Fin 4104)
  /-- SET_TOTALVFS (R254). The manager's command sets TotalVFs of a PF. -/
  | setTotalvfs (ch : BitVec 13) (seq : BitVec 4)
  /-- TABLE_GRANT (R111). The manager's command grants a function read access to tables. -/
  | tableGrant (ch : BitVec 13) (seq : BitVec 4)
  /-- INST_INFO (R260). The command returns FNM_INST_STATE of a function. -/
  | instInfo (ch : BitVec 13) (seq : BitVec 4)
  /-- FNM_IND_READ (R257). FNM_IND_CTL OP 0b01 reads a function's allocation record. -/
  | fnmIndRead (v : Word)
  /-- FNM_IND_WRITE (R265). FNM_IND_CTL OP 0b10 loads the allocation record of an ABSENT instance, or is refused. -/
  | fnmIndWrite (v : Word)
  /-- KL_CMD_STAGE (R270). A 32-bit write to KL_CMD offset 0 stages the low half of a command word. -/
  | klCmdStage (ch : BitVec 13) (v : Word)
  /-- KL_CMD_POST (R270). A write to KL_CMD posts a command word, or is refused. -/
  | klCmdPost (ch : BitVec 13) (v : DWord) (half : Bool)
  /-- KL_TAKE (R272). The firmware takes a posted command word, opening its sequence. -/
  | klTake (ch : BitVec 13)
  /-- COMMAND_BLOCK_READ (R279). The firmware's DMA read of a command block completes, or fails and answers the command. -/
  | commandBlockRead (ch : BitVec 13) (seq : BitVec 4) (cpl : CplStatus) (data : Bytes)
  /-- KL_CMD_TIMEOUT (R273). A posted word untaken for EFFECTIVE ms raises CMD_TIMEOUT. -/
  | klCmdTimeout (ch : BitVec 13)
  /-- KL_WITHDRAW (R274). Writing WITHDRAW removes a posted, untaken command word. -/
  | klWithdraw (ch : BitVec 13)
  /-- KL_RSP_POST (R276). The firmware posts a queued response word once RSP_FULL is 0 and raises KL_RSP_READY. -/
  | klRspPost (ch : BitVec 13)
  /-- KL_RSP_TAKE (R276). A read of KL_RSP takes the response word, closing its sequence. -/
  | klRspTake (ch : BitVec 13) (part : RspRead := .whole)
  /-- KL_RSP_TIMEOUT (R276). A response word untaken for EFFECTIVE ms raises RSP_TIMEOUT and is counted stale. -/
  | klRspTimeout (ch : BitVec 13)
  /-- PING (R287). The command returns the versions answered and the firmware build. -/
  | ping (ch : BitVec 13) (seq : BitVec 4)
  /-- FW_STATUS (R287). The command returns KL_FW_STATUS. -/
  | fwStatus (ch : BitVec 13) (seq : BitVec 4)
  /-- REG_READ (R287). The command returns one device register. -/
  | regRead (ch : BitVec 13) (seq : BitVec 4)
  /-- REG_READ_BLOCK (R287). The command returns a run of device registers. -/
  | regReadBlock (ch : BitVec 13) (seq : BitVec 4)
  /-- KL_READ (R287). The command returns the status bytes of a Kite line page without taking a word. -/
  | klRead (ch : BitVec 13) (seq : BitVec 4)
  /-- FW_RESTART (R291). Restarted firmware posts FW_RESTARTED for every open sequence and returns to RUNNING. -/
  | fwRestart
  /-- FW_READY (R288). The firmware's command service becomes ready, STATE goes RUNNING and FW_GEN rises. -/
  | fwReady
  /-- MAINTENANCE_ENTER (R290). The firmware announces maintenance after answering taken commands. -/
  | maintenanceEnter (ms : BitVec 16)
  /-- MAINTENANCE_END (R290). A maintenance ends without restart and STATE returns to RUNNING. -/
  | maintenanceEnd
  /-- MAINTENANCE_OVERRUN (R290). A maintenance outlasting EXPECT_MS by 1 s gets a new EXPECT_MS and FW_MAINT again. -/
  | maintenanceOverrun (ms : BitVec 16)
  /-- SIDEBAND_REQUEST (R292). An MCTP message carrying a GCS command is taken by the sideband, or answered SB_BUSY. -/
  | sidebandRequest (word : DWord) (block : Bytes) (via : Option (Fin 4) := none)
  /-- DOORBELL (R302). A doorbell write to a ring is accepted, marked, merged or discarded. -/
  | doorbell (f : Fin 4104) (v : DWord)
  /-- INDEX_READ_COMPLETE (R304). The index block read returns and the device accepts or rejects the index. -/
  | indexReadComplete (ring : BitVec 20) (cpl : CplStatus) (idx : BitVec 16)
  /-- DESCRIPTOR_FETCH (R306). The device fetches and checks a descriptor, reserving a completion place. -/
  | descriptorFetch (ring : BitVec 20) (descs : List (BitVec 512)) (e : ReadEnd := .cpl .ok)
  /-- COALESCE_TIMEOUT (R316). COAL_US after the first unnotified entry a notification is sent. -/
  | coalesceTimeout (ring : BitVec 20)
  /-- NOP_DESCRIPTOR (R307). Class 0x0 NOP completes with 0x0000 and no other effect. -/
  | nopDescriptor (ring : BitVec 20) (no : Nat)
  /-- SEND (R308). Transmit operation: one frame is read into the packet buffer and sent to the parser. -/
  | send (ring : BitVec 20) (no : Nat)
  /-- SEND_PACKED (R308). Transmit operation: packed frames are read and sent to the parser. -/
  | sendPacked (ring : BitVec 20) (no : Nat)
  /-- BUF (R311). Receive operation: a buffer is posted to a receive ring. -/
  | buf (ring : BitVec 20) (no : Nat)
  /-- RX_DELIVER (R313). A host-bound packet is written into a receive buffer and completed. -/
  | rxDeliver (n : Fin 16) (bad : Bool)
  /-- RX_NOBUF_TIMEOUT (R312). A packet finding no buffer after 4 µs is dropped and counted. -/
  | rxNobufTimeout (ring : BitVec 20)
  /-- RING_CREATE (R295). A function's command creates a ring from a checked context. -/
  | ringCreate (ch : BitVec 13) (seq : BitVec 4)
  /-- RING_DESTROY (R320). A function's command stops a ring and aborts its outstanding operations. -/
  | ringDestroy (ch : BitVec 13) (seq : BitVec 4)
  /-- RING_DESTROY_DONE (R320). The last completion of a destroyed ring is committed and the command is answered. -/
  | ringDestroyDone (ring : BitVec 20)
  /-- RING_RESTART (R296). A function's command releases a ring from BM_LOST and reads its index. -/
  | ringRestart (ch : BitVec 13) (seq : BitVec 4)
  /-- RING_ABORT (R319). A function's command aborts an operation by ring and tag. -/
  | ringAbort (ch : BitVec 13) (seq : BitVec 4) (tags : List (BitVec 16))
  /-- LEV_RING_BIND (R110). The manager's command binds or unbinds a learning-event ring of an instance. -/
  | levRingBind (ch : BitVec 13) (seq : BitVec 4)
  /-- RING_IND_READ (R321). RING_IND_CTL OP 0b01 reads a ring context, state or delivery entry. -/
  | ringIndRead (v : Word)
  /-- RING_IND_WRITE (R311). RING_IND_CTL OP 0b10 writes a delivery entry. -/
  | ringIndWrite (v : Word)
  /-- QP_CREATE (R325). A function's command creates a queue pair and advances its generation. -/
  | qpCreate (ch : BitVec 13) (seq : BitVec 4)
  /-- QP_MODIFY (R328). A function's command moves a queue pair between states. -/
  | qpModify (ch : BitVec 13) (seq : BitVec 4)
  /-- QP_DESTROY (R328). A function's command destroys a queue pair once its completions are committed. -/
  | qpDestroy (ch : BitVec 13) (seq : BitVec 4)
  /-- RDMA_SEND (R335). Remote operation SEND sends a message consuming a remote buffer. -/
  | rdmaSend (ring : BitVec 20) (no : Nat)
  /-- RDMA_SEND_IMM (R335). Remote operation SEND_IMM sends a message with an immediate value. -/
  | rdmaSendImm (ring : BitVec 20) (no : Nat)
  /-- RDMA_WRITE (R335). Remote operation WRITE places data at a remote address. -/
  | rdmaWrite (ring : BitVec 20) (no : Nat)
  /-- RDMA_WRITE_IMM (R335). Remote operation WRITE_IMM places data and consumes a remote buffer. -/
  | rdmaWriteImm (ring : BitVec 20) (no : Nat)
  /-- RDMA_READ (R335). Remote operation READ fetches remote data into local memory. -/
  | rdmaRead (ring : BitVec 20) (no : Nat)
  /-- CMP_SWAP (R334). Remote atomic compare-and-swap on 8 remote bytes. -/
  | cmpSwap (ring : BitVec 20) (no : Nat)
  /-- FETCH_ADD (R334). Remote atomic fetch-and-add on 8 remote bytes. -/
  | fetchAdd (ring : BitVec 20) (no : Nat)
  /-- REG_MR (R331). Operation registers a memory region and returns its key. -/
  | regMr (ring : BitVec 20) (no : Nat)
  /-- INVAL_MR (R333). Operation invalidates a memory region. -/
  | invalMr (ring : BitVec 20) (no : Nat)
  /-- RTE_PACKET_RECEIVE (R342). The RTE takes a received packet, checks it and places, acknowledges or drops it. -/
  | rtePacketReceive (mem : Bytes) (e : ReadEnd := .cpl .ok)
  /-- ACK_TIMER (R341). ACK_US after unacknowledged packets the responder sends an ACK. -/
  | ackTimer (qp : Fin 262144)
  /-- RETRANSMIT_TIMEOUT (R346). A QP's retransmission timer expires and it resends or fails with RETRY_EXCEEDED. -/
  | retransmitTimeout (qp : Fin 262144)
  /-- PATH_RESUME (R347). A suspended path is released after 1 ms. -/
  | pathResume (qp : Fin 262144) (path : Fin 64)
  /-- RNR_WAIT_EXPIRE (R348). After RNR_US the requester resends from the NAKed PSN. -/
  | rnrWaitExpire (qp : Fin 262144)
  /-- RATE_INCREASE (R349). Each 55 µs without a CNP multiplies RATE by 1.25. -/
  | rateIncrease (qp : Fin 262144)
  /-- TRACKER_AGED (R345). A tracker gaining no byte for TRACKER_AGE_MS is freed and its buffer completes RDMA_INCOMPLETE. -/
  | trackerAged (tr : Fin 65536)
  /-- CONTEXT_FETCH_COMPLETE (R352). A QP context fetch completes and the Lay-by packets are processed, or all dropped on failure. -/
  | contextFetchComplete (qp : Fin 262144) (cpl : CplStatus) (mems : List (ReadEnd × Bytes))
  /-- LAYBY_TIMEOUT (R352). A packet waiting 50 µs in the Lay-by is dropped with reason 7. -/
  | laybyTimeout (qp : Fin 262144)
  /-- RTE_IND_READ (R329). RTE_IND_CTL OP 0b01 reads a QP index entry, context, tracker or region. -/
  | rteIndRead (v : Word)
  /-- CC_ENABLE (R358). Setting CC.EN takes the controller READY, waiting for an ACTIVE instance, or FATAL. -/
  | ccEnable (f : Fin 4104) (v : Word)
  /-- CC_DISABLE (R372). Clearing CC.EN stops fetching and abandons back-end commands. -/
  | ccDisable (f : Fin 4104)
  /-- SHUTDOWN_NOTIFY (R358). Writing CC.SHN begins a controller shutdown. -/
  | shutdownNotify (f : Fin 4104) (v : Word)
  /-- SHUTDOWN_COMPLETE (R358). With no command outstanding and back ends flushed the controller reports SHUTDOWN. -/
  | shutdownComplete (f : Fin 4104)
  /-- NVME_DOORBELL (R360). An NVMe doorbell write records a tail or head, or is ignored and counted. -/
  | nvmeDoorbell (f : Fin 4104) (off : BitVec 14) (v : Word)
  /-- NVME_COMMAND_FETCH (R361). The SCE fetches an NVMe command into a free slot by round robin. -/
  | nvmeCommandFetch (f : Fin 4104) (sq : Fin 1025) (sqe : BitVec 512) (e : ReadEnd := .cpl .ok)
  /-- CREATE_IO_SQ (R359). Admin command creates an I/O submission queue. -/
  | createIoSq (slot : Fin 262144)
  /-- DELETE_IO_SQ (R359). Admin command deletes an I/O submission queue. -/
  | deleteIoSq (slot : Fin 262144)
  /-- CREATE_IO_CQ (R359). Admin command creates an I/O completion queue. -/
  | createIoCq (slot : Fin 262144)
  /-- DELETE_IO_CQ (R359). Admin command deletes an I/O completion queue. -/
  | deleteIoCq (slot : Fin 262144)
  /-- GET_LOG_PAGE (R362). Admin command returns a supported log page. -/
  | getLogPage (slot : Fin 262144) (ptrs : List (BitVec 128)) (e : ReadEnd := .cpl .ok)
  /-- IDENTIFY (R362). Admin command returns Identify data. -/
  | identify (slot : Fin 262144) (ptrs : List (BitVec 128)) (e : ReadEnd := .cpl .ok)
  /-- ABORT (R371). Admin command aborts a named command, posting exactly one completion for it. -/
  | nvmeAbort (slot : Fin 262144)
  /-- SET_FEATURES (R362). Admin command sets a supported feature. -/
  | setFeatures (slot : Fin 262144)
  /-- SET_FEATURES_POWER_MANAGEMENT (R373). Set Features Power Management begins entry to a power state, answered after outstanding I/O completes. -/
  | setFeaturesPowerManagement (slot : Fin 262144)
  /-- GET_FEATURES (R362). Admin command returns a feature value. -/
  | getFeatures (slot : Fin 262144)
  /-- ASYNC_EVENT_REQUEST (R363). Admin command posts an asynchronous event request. -/
  | asyncEventRequest (slot : Fin 262144)
  /-- NVME_FLUSH (R368). NVM command Flush is forwarded to the back end. -/
  | nvmeFlush (slot : Fin 262144)
  /-- NVME_WRITE (R367). NVM command Write is sent to the back end, split if above its MDTS. -/
  | nvmeWrite (slot : Fin 262144) (ptrs : List (BitVec 128)) (e : ReadEnd) (data : Bytes)
  /-- NVME_READ (R367). NVM command Read is sent to the back end, split if above its MDTS. -/
  | nvmeRead (slot : Fin 262144) (ptrs : List (BitVec 128)) (e : ReadEnd := .cpl .ok)
  /-- WRITE_ZEROES (R367). NVM command Write Zeroes is sent to the back end. -/
  | writeZeroes (slot : Fin 262144)
  /-- DATASET_MANAGEMENT (R362). NVM command Dataset Management deallocate is sent to the back end. -/
  | datasetManagement (slot : Fin 262144) (ptrs : List (BitVec 128)) (e : ReadEnd) (data : Bytes)
  /-- BACKEND_COMPLETION (R369). A back-end command completes and its host command completes when all pieces are done. -/
  | backendCompletion (slot : Fin 262144) (piece : Nat) (status : BitVec 12) (data : Bytes)
  /-- BACKEND_DOWN (R370). A back-end connection goes down and its commands fail over or fail. -/
  | backendDown (conn : Fin 4096) (why : Fin 4)
  /-- BACKEND_UP (R364). A back-end connection comes up. -/
  | backendUp (conn : Fin 4096) (status : BitVec 12) (mdts : Nat) (block : Nat) (unit : Nat) (bounds : List Nat) (vwc : Bool)
  /-- RECONNECT_TIMER (R370). Every RECONNECT_S the SCE tries to reconnect a down connection. -/
  | reconnectTimer (conn : Fin 4096)
  /-- CTRL_LOSS_TIMEOUT (R370). A namespace without a connection for CTRL_LOSS_S returns Namespace Not Ready. -/
  | ctrlLossTimeout (ns : Fin 65536)
  /-- IO_TIMEOUT (R370). A back-end command without response for IO_TIMEOUT_S is aborted and completes with a transient error. -/
  | ioTimeout (slot : Fin 262144)
  /-- SCE_PACKET_RECEIVE (R375). The SCE takes a segment from a carriageway, or drops it by reason. -/
  | scePacketReceive (seg : SegSeen) (slot : Option (Fin 262144))
  /-- NVME_CTRL_CFG (R287). A function's command sets its controller's power state 1 limit. -/
  | nvmeCtrlCfg (ch : BitVec 13) (seq : BitVec 4)
  /-- NVME_NS_ATTACH (R363). The manager's command attaches or detaches a namespace. -/
  | nvmeNsAttach (ch : BitVec 13) (seq : BitVec 4)
  /-- BACKEND_CONNECT (R364). The manager's command opens or closes a back-end connection. -/
  | backendConnect (ch : BitVec 13) (seq : BitVec 4)
  /-- SCE_IND_READ (R358). SCE_IND_CTL OP 0b01 reads a controller, namespace, connection or queue record. -/
  | sceIndRead (v : Word)
  /-- SA_ADD (R380). A command adds or replaces a security association. -/
  | saAdd (ch : BitVec 13) (seq : BitVec 4)
  /-- SA_DELETE (R380). A command clears VALID of a security association. -/
  | saDelete (ch : BitVec 13) (seq : BitVec 4)
  /-- SA_DELETE_DONE (R380). Every packet begun under the deleted SA has left its core and the command is answered. -/
  | saDeleteDone (sa : Fin 1048576)
  /-- MACSEC_TX_SWITCH (R387). At a frame boundary NEXT becomes CURRENT for a port's transmit SA. -/
  | macsecTxSwitch (p : Fin 8)
  /-- CORE_FAULT (R377). A cipher core with an uncorrectable error leaves service. -/
  | coreFault (core : Fin 20)
  /-- DEFLATE_COMPRESS (R388). Data-service operation compresses with DEFLATE. -/
  | deflateCompress (ring : BitVec 20) (no : Nat)
  /-- DEFLATE_DECOMPRESS (R388). Data-service operation decompresses DEFLATE. -/
  | deflateDecompress (ring : BitVec 20) (no : Nat)
  /-- ZSTD_COMPRESS (R388). Data-service operation compresses with Zstandard. -/
  | zstdCompress (ring : BitVec 20) (no : Nat)
  /-- ZSTD_DECOMPRESS (R388). Data-service operation decompresses Zstandard. -/
  | zstdDecompress (ring : BitVec 20) (no : Nat)
  /-- CRC32C (R388). Data-service operation computes a CRC-32C. -/
  | crc32c (ring : BitVec 20) (no : Nat)
  /-- CRC32_IEEE (R388). Data-service operation computes an IEEE CRC-32. -/
  | crc32Ieee (ring : BitVec 20) (no : Nat)
  /-- CIPH_IND_READ (R379). CIPH_IND_CTL OP 0b01 reads an SA record with its key as 0. -/
  | ciphIndRead (v : Word)
  /-- STAGE_COMPLETE (R394). A spilled packet's staging ends and it becomes eligible to send. -/
  | stageComplete (q : Fin 262144) (pos : Fin 4)
  /-- SCRUB_READ (R402). The patrol scrubber reads an HBM word and corrects or handles its error. -/
  | scrubRead (err : HbmErr) (lane : Fin 64) (raced : Bool)
  /-- PBUF_SCRUB (R402). The scrubber reads a packet buffer row and corrects its errors. -/
  | pbufScrub (err : HbmErr) (cell : Fin 524288) (bank : Fin 32)
  /-- PLL_LOCK (R405). The Root PLL locks and Milepost time starts or resumes. -/
  | pllLock (us : BitVec 16)
  /-- PLL_LOCK_TIMEOUT (R411). No lock within 1 ms counts an unlock and retries. -/
  | pllLockTimeout
  /-- PLL_UNLOCK (R407). Loss of lock stops the divided clocks and the Tether warm-resets the device. -/
  | pllUnlock
  /-- CLOCK_MEASURE (R406). Every 10 µs the Tether measures each clock and flags deviations. -/
  | clockMeasure (counts : List Word)
  /-- WARM_RESET (R410). WARM_RST_N low places the blocks of the warm scope in reset. -/
  | warmReset
  /-- CLKRST_RESET_REQ (R409). A firmware write with the key requests a warm reset with cause 3. -/
  | clkrstResetReq (v : Word)
  /-- WARM_RELEASE (R410). After 20 µs with lock the blocks are released in start order and WARM_DONE is raised. -/
  | warmRelease
  /-- COLD_RESET (R409). SYS_RST_N low clears everything on the die and holds it in COLD_HELD. -/
  | coldReset
  /-- COLD_RELEASE (R418). With every supply valid and SYS_RST_N high the device leaves COLD_HELD and samples straps. -/
  | coldRelease (straps : BitVec 12)
  /-- BLOCK_RESET (R416). The Tether sets a block's reset bit, flushing its crossings and dropping its packets. -/
  | blockReset (b : Fin 29)
  /-- BLOCK_RESET_RELEASE (R416). The Tether clears the bit and the block leaves reset with empty crossings. -/
  | blockResetRelease (b : Fin 29)
  /-- WORD_CROSSING_DELIVER (R413). A word crossing delivers held words in order once its destination clock runs. -/
  | wordCrossingDeliver (src : Fin 29) (dst : Fin 29) (words : List DWord)
  /-- COUNTER_CROSSING_DELIVER (R414). A counter crossing sends its pending delta and the destination adds it. -/
  | counterCrossingDeliver (n : Fin 2048)
  /-- SELF_TEST (R431). After cold reset the Tether runs self-test, applies repairs and assigns engines and carriageways. -/
  | selfTest (res : SelfTest)
  /-- TEMP_SAMPLE (R422). Every 10 µs the Tether samples every sensor and sets the thermal level. -/
  | tempSample (temps : List (BitVec 16)) (cool : Bool)
  /-- TRIP_RECOVERY (R424). Once cooled or supplies settled and 1 s passed, the Tether causes a cold reset. -/
  | tripRecovery
  /-- SUPPLY_SAMPLE (R425). Every 10 µs the Tether samples each rail, raising SUPPLY_WARN and computing power. -/
  | supplySample (mv : List (BitVec 16)) (ma : List Nat)
  /-- SUPPLY_TRIP (R425). A rail out of its trip band for 10 µs starts the trip sequence. -/
  | supplyTrip (rail : Fin 8) (mv : BitVec 16)
  /-- TETHER_RESTART (R421). The partition timer expires or SRAM fails and the Tether core restarts from ROM. -/
  | tetherRestart
  /-- WATCHDOG_PING (R427). Every PERIOD_MS the Tether posts PING on its Kite line. -/
  | watchdogPing
  /-- FW_HANG (R427). A PING unanswered within TIMEOUT_MS warm-resets the device. -/
  | fwHang
  /-- START_WATCHDOG_EXPIRE (R428). STATE not reaching RUNNING within START_S warm-resets the device. -/
  | startWatchdogExpire
  /-- TRIAL_TICK (R430). Each 1 ms tick the Tether checks for confirmation and disarms the trial watchdog. -/
  | trialTick
  /-- TRIAL_EXPIRED (R430). An unconfirmed trial expires and the Tether warm-resets the device. -/
  | trialExpired
  /-- FIELD_MAP_WRITE (R436). The Tether writes a repair mark into the field map within 100 ms. -/
  | fieldMapWrite
  /-- BLOCK_HANG (R438). A word held 10 ms into a watched block triggers a block reset or warm reset. -/
  | blockHang (b : Fin 29)
  /-- BLOCK_HANG_RELEASE (R438). After 100 µs the Tether releases the hung block from reset. -/
  | blockHangRelease (b : Fin 29)
  /-- TRAILHEAD_START (R441). Control core 0 runs Trailhead, searching sources, checking and loading an image and handing over. -/
  | trailheadStart (answers : BitVec 2)
  /-- PUSH_WAIT_EXPIRE (R449). No push within 10 s on a push source moves on, or enters RECOVERY at the list end. -/
  | pushWaitExpire
  /-- CONTROL_COMPLEX_RESTART (R440). A keyed write of BOOT_CC_RESTART holds the control cores for 10 µs and restarts Trailhead. -/
  | controlComplexRestart (v : Word)
  /-- CORE_RELEASE (R441). A write of BOOT_CTL_RELEASE releases control cores 1 to 3. -/
  | coreRelease (v : Word)
  /-- MEASUREMENT_EXTEND (R447). A write of BOOT_EXT_CTL extends a measurement slot, or is refused while locked. -/
  | measurementExtend (v : Word)
  /-- IMAGE_WRITE (R454). The command writes data into the staging buffer. -/
  | imageWrite (ch : BitVec 13) (seq : BitVec 4)
  /-- IMAGE_COMMIT (R454). The command checks the staged image and writes it to a slot as CANDIDATE or CONFIRMED. -/
  | imageCommit (ch : BitVec 13) (seq : BitVec 4)
  /-- IMAGE_CONFIRM (R452). The command confirms the running candidate in the ledger and blows fuses. -/
  | imageConfirm (ch : BitVec 13) (seq : BitVec 4) (ok : Bool)
  /-- FW_ACTIVATE (R454). The command restarts the control complex into the candidate or staged image. -/
  | fwActivate (ch : BitVec 13) (seq : BitVec 4)
  /-- LEDGER_READ (R451). The command returns both ledger copies. -/
  | ledgerRead (ch : BitVec 13) (seq : BitVec 4)
  /-- MEASURE_READ (R447). The command returns measurement slots and log entries. -/
  | measureRead (ch : BitVec 13) (seq : BitVec 4)
  /-- SET_ENDPOINT_ID (R455). MCTP control command sets the endpoint ID. -/
  | setEndpointId (msg : Bytes)
  /-- GET_ENDPOINT_ID (R455). MCTP control command returns the endpoint ID. -/
  | getEndpointId (msg : Bytes)
  /-- GET_MCTP_VERSION_SUPPORT (R455). MCTP control command returns the versions supported. -/
  | getMctpVersionSupport (msg : Bytes)
  /-- GET_MESSAGE_TYPE_SUPPORT (R455). MCTP control command returns the message types supported. -/
  | getMessageTypeSupport (msg : Bytes)
  /-- GET_VENDOR_DEFINED_MESSAGE_SUPPORT (R455). MCTP control command returns vendor-defined message support. -/
  | getVendorDefinedMessageSupport (msg : Bytes)
  /-- GET_DIGESTS (R455). SPDM request returns certificate chain digests. -/
  | getDigests (msg : Bytes)
  /-- GET_CERTIFICATE (R456). SPDM request returns the slot 0 certificate chain. -/
  | getCertificate (msg : Bytes)
  /-- CHALLENGE (R456). SPDM request is answered with a signature by the identity key. -/
  | challenge (msg : Bytes)
  /-- GET_MEASUREMENTS (R456). SPDM request returns measurement slots and the boot verdict. -/
  | getMeasurements (msg : Bytes)
  /-- KEY_EXCHANGE (R455). SPDM request begins a secured session. -/
  | keyExchange (msg : Bytes)
  /-- FINISH (R455). SPDM request completes session establishment. -/
  | finish (msg : Bytes)
  /-- HEARTBEAT (R455). SPDM request keeps a session alive. -/
  | heartbeat (msg : Bytes)
  /-- KEY_UPDATE (R455). SPDM request updates session keys. -/
  | keyUpdate (msg : Bytes)
  /-- END_SESSION (R455). SPDM request ends a session. -/
  | endSession (msg : Bytes)
  /-- CHUNK_SEND (R455). SPDM request carries a chunk of a large message. -/
  | chunkSend (msg : Bytes)
  /-- CHUNK_GET (R455). SPDM request fetches a chunk of a large response. -/
  | chunkGet (msg : Bytes)
  /-- NUMERIC_SENSOR_READ (R455). PLDM Type 2 request reads a temperature or rail sensor. -/
  | numericSensorRead (msg : Bytes)
  /-- REQUEST_FIRMWARE_DATA (R457). PLDM update data arrives and is written to the staging buffer. -/
  | requestFirmwareData (off : BitVec 26) (data : Bytes)
  /-- VERIFY_COMPLETE (R457). PLDM update reports the image checks. -/
  | verifyComplete
  /-- APPLY_COMPLETE (R457). PLDM update commits the staged image to the free slot. -/
  | applyComplete
  /-- ACTIVATE_FIRMWARE (R457). PLDM update activates the candidate as FW_ACTIVATE 0. -/
  | activateFirmware
  /-- CW_SELECT (R460). A write of CW_SELECT chooses the class of the function's object area. -/
  | cwSelect (f : Fin 4104) (v : Word)
  /-- RW_CURSOR (R475). A write of RW_CURSOR chooses the first record of the recorder window's record area. -/
  | rwCursor (f : Fin 4104) (v : Word)
  /-- COUNTER_GRANT (R461). The manager's command grants or revokes a register range or the recorder window to a function. -/
  | counterGrant (ch : BitVec 13) (seq : BitVec 4)
  /-- TRACE_LEVEL_SET (R463). TRACE_CFG OP 0 sets the debug level up to the security ceiling. -/
  | traceLevelSet (ch : BitVec 13) (seq : BitVec 4)
  /-- SINK_CONFIGURE (R465). TRACE_CFG OP 1 configures and enables a trace sink. -/
  | sinkConfigure (ch : BitVec 13) (seq : BitVec 4)
  /-- SINK_DISABLE (R465). TRACE_CFG OP 2 disables a trace sink. -/
  | sinkDisable (ch : BitVec 13) (seq : BitVec 4)
  /-- TRACE_PAGE_CLOSE (R467). A trace page open for 100 µs is closed and its notice written. -/
  | tracePageClose (k : Fin 8)
  /-- COUNTER_SAMPLE (R465). Every PERIOD_MS a sink emits COUNTER records for its counter list. -/
  | counterSample (k : Fin 8)
  /-- EXTEST (R469). Boundary-scan instruction drives pins in board-test mode. -/
  | extest (sampled : Bytes) (shifted : Bytes)
  /-- SAMPLE_PRELOAD (R469). Boundary-scan instruction samples or preloads the boundary register. -/
  | samplePreload (sampled : Bytes) (shifted : Bytes)
  /-- IDCODE (R469). Boundary-scan instruction selects the identification register. -/
  | idcode
  /-- CLAMP (R469). Boundary-scan instruction holds outputs with bypass selected. -/
  | clamp
  /-- HIGHZ (R469). Boundary-scan instruction places outputs in high impedance. -/
  | highz
  /-- BYPASS (R469). Boundary-scan instruction selects the bypass register. -/
  | bypass
  /-- RECORDER_SAMPLE (R472). Once per second the recorder adds to each histogram and updates extremes. -/
  | recorderSample (power : Nat) (passes : Nat) (lineRx : Nat) (lineTx : Nat) (dma : Nat) (issue : Nat)
  /-- CHECKPOINT (R471). Every 60 s the recorder writes a checkpoint to flash. -/
  | checkpoint (ok : Bool)
  /-- RECORD_WRITE (R474). A queued record is programmed into its flash slot in SEQ order. -/
  | recordWrite (ok : Bool)
  /-- HOUR_END (R474). At the end of each operating hour SUMMARY records are written for limited sources. -/
  | hourEnd
  /-- RECORDER_CLEAR (R477). The manager's command clears histograms or extremes after a CLEAR record. -/
  | recorderClear (ch : BitVec 13) (seq : BitVec 4)
  /-- POWER_UP (R493). The rails rise in order and the Tether holds the die in COLD_HELD until all are valid. -/
  | powerUp (rails : Nat)
  /-- POWER_DOWN (R494). The rails fall in reverse order while VDD_TETHER drains the recorder queue. -/
  | powerDown (rails : Nat)
  /-- TABLE_CFG (R287). The manager's command 0x35 writes the image of RTBL offsets 0x0000 to 0x0027, setting aging, learning and station copying. -/
  | tableCfg (ch : BitVec 13) (seq : BitVec 4)
  /-- ALIGNMENT_REGAINED (R168). A line port in UP regains alignment within 10 µs of losing it and stays UP without raising LINK_DOWN. -/
  | alignmentRegained (p : Fin 8)
  /-- SLEW_COMPLETE (R171). The slew amount written to TIME_SLEW is used up and the increment returns to TIME_INCR. -/
  | slewComplete
  /-- LINE_REF_RETURN (R408). The line SerDes reference returns, CLKRST_CLK_STATUS.LINE_REF reads 1 and the line ports can train again. -/
  | lineRefReturn
  /-- HOST_REF_RETURN (R408). The reference of host port n returns, its HOST_REF bit reads 1 and its links can train again. -/
  | hostRefReturn (n : Fin 2)
  /-- EVENT_CROSSING_ACKNOWLEDGE (R415). The source of an event crossing sees the acknowledge at its third edge, clears the merge flag and, if it was set, toggles the request again. -/
  | eventCrossingAcknowledge (n : Fin 2048)
  /-- CTRL_FATAL (R358). An internal error of the SCE for a READY controller takes it to FATAL and raises CTRL_FATAL. -/
  | ctrlFatal (f : Fin 4104)
  /-- TCP_RETRANSMIT_TIMEOUT (R364). The SCE's TCP retransmission timer for a back-end connection expires and the segment is resent, the connection going down after 7 timeouts in a row. -/
  | tcpRetransmitTimeout (conn : Fin 4096)
  /-- IMAGE_COMMITTED (R452). The flash erase, programming and read-back of an IMAGE_COMMIT complete, the slot goes from WRITTEN to CANDIDATE or CONFIRMED and the command is answered. -/
  | imageCommitted (ok : Bool)
  deriving DecidableEq, Repr

end Sys2Proof
end

