-- ==== Sys2Proof/Decode.lean ====
section
/-!
DEFINITION. Decode.lean: the command a word spells by the bits of the table. The table gives no row any bits (every row's
field list is empty), so no word spells a command.
-/
namespace Sys2Proof

/-- The command that the word `w` of `nbits` bits spells: none, as the table gives its rows no bits. -/
def decodeTableWord (nbits w : Nat) : Option Instr :=
  match nbits, w with
  | _, _ => none

end Sys2Proof
end

