-- ==== Sys2Proof/Config.lean ====
section
/-!
DEFINITION. Config.lean: the values the spec leaves open, as constants without a body, so that nothing can be proved of
them: the free value drawn by count, and the functions of other standards the spec only names (SHA-384, ECDSA P-384,
AES-GCM, DEFLATE, Zstandard, the host's key agreement).
-/
namespace Sys2Proof.Config

/-- The free value number `n`: what stands where the spec fixes no value. State.free counts the numbers already drawn. -/
opaque freeValue : Nat → BitVec 512

/-- SHA-384 (FIPS 180-4) of a run of bytes. -/
opaque sha384 : Bytes → BitVec 384

/-- The digest of the boot ROM (Table 20-6, M00). -/
opaque romDigest : BitVec 384

/-- ECDSA P-384 verification: key (x, then y), digest and signature (r, then s). -/
opaque ecdsaVerify : BitVec 768 → BitVec 384 → BitVec 768 → Bool

/-- The device's ECDSA P-384 signature over a transcript (R456). -/
opaque ecdsaSign : Bytes → Bytes

/-- The certificate chain of SPDM slot 0 (R456), by security state. -/
opaque certChain : BitVec 2 → Bytes

/-- AES-GCM sealing: key, 256-bit or not, 96-bit nonce, additional data, plaintext; ciphertext then 16-byte tag. -/
opaque gcmSeal : BitVec 256 → Bool → BitVec 96 → Bytes → Bytes → Bytes

/-- AES-GCM opening of ciphertext and tag; none where the tag does not verify. -/
opaque gcmOpen : BitVec 256 → Bool → BitVec 96 → Bytes → Bytes → Option Bytes

/-- Compression: operation 0x001 DEFLATE or 0x003 Zstandard, LEVEL, FORMAT, source. -/
opaque compress : Nat → Nat → Nat → Bytes → Bytes

/-- What a decompression finds: the data, a malformed stream, or a feature not supported (R388). -/
inductive Inflate where
  | data (b : Bytes)
  | bad
  | unsupported
  deriving DecidableEq, Repr, Inhabited

/-- Decompression: operation 0x002 DEFLATE or 0x004 Zstandard, FORMAT, source. -/
opaque decompress : Nat → Nat → Bytes → Inflate

/-- The device's half of an SPDM key exchange, from the requester's message (R455). -/
opaque spdmAnswer : Bytes → Bytes

/-- Whether an SPDM FINISH message verifies. -/
opaque spdmFinishOk : Bytes → Bool


/-- The set of a fragment follow table that a fragment key lies in (R51): address version, source, destination, protocol and
identification; the spec does not give the hash. -/
opaque followSet : Bool → BitVec 128 → BitVec 128 → Byte → Word → BitVec 13

/-- The ICRC of a RoCEv2 packet (IBTA), from its IP header on without the ICRC itself: the spec only names it. -/
opaque roceIcrc : Bytes → BitVec 32

/-- Bank in bits [22:17] and row in bits [16:0] of an HBM address within its pseudo-channel: the spec does not give the
mapping (Table 19-5, kind 4). -/
opaque hbmBankRow : Nat → BitVec 23

end Sys2Proof.Config
end

