-- ==== Sys2Proof/Machine/Bits.lean ====
section
/-!
DEFINITION. Machine/Bits.lean: bit fields, byte order and checksums, each said once.
-/
namespace Sys2Proof.Machine
open Sys2Proof

/-- Bits [lo + len - 1 : lo] of a value, as a number (R7). -/
def fld {n : Nat} (v : BitVec n) (lo len : Nat) : Nat := (v.toNat >>> lo) % 2 ^ len

/-- One bit of a value. -/
def bit {n : Nat} (v : BitVec n) (i : Nat) : Bool := v.getLsbD i

/-- The value with bits [lo + len - 1 : lo] replaced by the low bits of `x`. -/
def setFld {n : Nat} (v : BitVec n) (lo len x : Nat) : BitVec n :=
  (v &&& ~~~(BitVec.ofNat n ((2 ^ len - 1) <<< lo))) ||| BitVec.ofNat n ((x % 2 ^ len) <<< lo)

/-- The value with one bit set or cleared. -/
def setBit {n : Nat} (v : BitVec n) (i : Nat) (b : Bool) : BitVec n := setFld v i 1 (cond b 1 0)

/-- A number placed at a bit position, for putting a word together. -/
def at' (x lo : Nat) : Nat := x <<< lo

/-- A flag as a number. -/
def b2n (b : Bool) : Nat := cond b 1 0

/-- The low `n` bytes of a number, least significant first (R8). -/
def leBytes : Nat → Nat → Bytes
  | 0, _ => []
  | n + 1, x => BitVec.ofNat 8 x :: leBytes n (x >>> 8)

/-- The number a run of bytes holds, least significant first (R8). -/
def leNat : Bytes → Nat
  | [] => 0
  | b :: bs => b.toNat + leNat bs <<< 8

/-- The low `n` bytes of a number, most significant first: fields on the wire (R8). -/
def beBytes (n x : Nat) : Bytes := (leBytes n x).reverse

/-- The number a run of bytes holds, most significant first. -/
def beNat (bs : Bytes) : Nat := leNat bs.reverse

/-- Byte `i`, 0 beyond the end. -/
def byteAt (bs : Bytes) (i : Nat) : Byte := bs.getD i 0

/-- `len` bytes from offset `off`, fewer where the run ends. -/
def slice (bs : Bytes) (off len : Nat) : Bytes := (bs.drop off).take len

/-- A run cut or filled with zeros to `n` bytes. -/
def padTo (n : Nat) (bs : Bytes) : Bytes := bs.take n ++ List.replicate (n - bs.length) 0

/-- The little-endian field of `len` bytes at `off`. -/
def leAt (bs : Bytes) (off len : Nat) : Nat := leNat (slice bs off len)

/-- The network-order field of `len` bytes at `off`. -/
def beAt (bs : Bytes) (off len : Nat) : Nat := beNat (slice bs off len)

/-- A run with the bytes from `off` replaced by `new`; bytes beyond its end are dropped. -/
def patch (bs : Bytes) (off : Nat) (new : Bytes) : Bytes :=
  bs.take off ++ (new.take (bs.length - off) ++ bs.drop (off + new.length))

/-- The bytes of a wide value, least significant first. -/
def bvBytes {n : Nat} (v : BitVec n) : Bytes := leBytes (n / 8) v.toNat

/-- The wide value a run of bytes holds, least significant first. -/
def bytesBv (n : Nat) (bs : Bytes) : BitVec n := BitVec.ofNat n (leNat bs)

/-- Whether every byte is 0. -/
def allZero (bs : Bytes) : Bool := bs.all (· == 0)

/-- One bit of a reflected CRC with polynomial `poly`. -/
def crcBit (poly c : Word) : Word := if c.getLsbD 0 then (c >>> 1) ^^^ poly else c >>> 1

/-- One byte of a reflected CRC. -/
def crcByte (poly c : Word) (b : Byte) : Word :=
  let x := c ^^^ b.setWidth 32
  crcBit poly (crcBit poly (crcBit poly (crcBit poly (crcBit poly (crcBit poly (crcBit poly (crcBit poly x)))))))

/-- A reflected CRC over bytes, from a starting value and without a final XOR (R206). -/
def crcFrom (poly c : Word) (bs : Bytes) : Word := bs.foldl (crcByte poly) c

/-- The reflected polynomial of CRC-32C (DEDUCED from its name: Castagnoli, 0x1EDC6F41 reflected). -/
def polyC : Word := 0x82F63B78

/-- The reflected polynomial of the IEEE 802.3 CRC-32 (0x04C11DB7 reflected). -/
def polyE : Word := 0xEDB88320

/-- The CRC-32C of R90: from 0xFFFF_FFFF, with a final XOR of 0xFFFF_FFFF. -/
def crc32c (bs : Bytes) : Word := crcFrom polyC 0xFFFFFFFF bs ^^^ 0xFFFFFFFF

/-- The IEEE 802.3 CRC-32 with its usual start and final XOR. -/
def crc32e (bs : Bytes) : Word := crcFrom polyE 0xFFFFFFFF bs ^^^ 0xFFFFFFFF

/-- The ones' complement sum of 16-bit words of a header, folded: the Internet checksum before its complement. -/
def csum16 : Bytes → Nat
  | [] => 0
  | [a] => a.toNat <<< 8
  | a :: b :: r => (a.toNat <<< 8) + b.toNat + csum16 r

/-- The Internet checksum of a run of bytes. -/
def inetCsum (bs : Bytes) : Nat :=
  let s := csum16 bs
  let f := s % 65536 + s / 65536
  let g := f % 65536 + f / 65536
  65535 - (g % 65536 + g / 65536)

/-- A value no larger than a limit. -/
def satTo (m x : Nat) : Nat := if x ≤ m then x else m

/-- The indices below `n` whose bit is set. -/
def bitsSet {w : Nat} (v : BitVec w) (n : Nat) : List Nat := (List.range n).filter (fun i => bit v i)

/-- A quotient rounded up. -/
def ceilDiv (a b : Nat) : Nat := (a + b - 1) / b

end Sys2Proof.Machine
end

