-- ==== Sys2Proof/Machine/Map.lean ====
section
/-!
DEFINITION. Machine/Map.lean: finite maps held as plain data. A map is a list of (key, value) pairs with keys strictly
rising and no entry equal to what an unlisted key reads as, so equal maps are equal lists.
-/
namespace Sys2Proof.Machine

/-- A sparse map from natural-number keys. -/
abbrev SMap (β : Type) := List (Nat × β)

/-- What key `k` reads as; `d k` where the map lists nothing. -/
def mapGet {β : Type} (d : Nat → β) : SMap β → Nat → β
  | [], k => d k
  | (a, v) :: r, k => if k = a then v else mapGet d r k

/-- The map without key `k`. -/
def mapDel {β : Type} (m : SMap β) (k : Nat) : SMap β := m.filter (fun e => decide (e.1 ≠ k))

/-- `(k, v)` put in its place among rising keys, where `k` is not listed. -/
def mapIns {β : Type} : SMap β → Nat → β → SMap β
  | [], k, v => [(k, v)]
  | (a, w) :: r, k, v => if k < a then (k, v) :: (a, w) :: r else (a, w) :: mapIns r k v

/-- The map with `v` at key `k`; writing what an unlisted key reads as removes the entry. -/
def mapSet {β : Type} [DecidableEq β] (d : Nat → β) (m : SMap β) (k : Nat) (v : β) : SMap β :=
  if v = d k then mapDel m k else mapIns (mapDel m k) k v

/-- `a` lies above the bound, if there is one. -/
def aboveOpt : Option Nat → Nat → Bool
  | none, _ => true
  | some l, a => decide (l < a)

/-- Keys strictly rising above `lo`, and no entry at its default. -/
def mapWfFrom {β : Type} [DecidableEq β] (d : Nat → β) : Option Nat → SMap β → Bool
  | _, [] => true
  | lo, (a, v) :: r =>
    aboveOpt lo a && decide (v ≠ d a) && mapWfFrom d (some a) r

/-- The canonical form of a map. -/
def mapWf {β : Type} [DecidableEq β] (d : Nat → β) (m : SMap β) : Bool := mapWfFrom d none m

/-- The map with the value at `k` replaced by `f` of it. -/
def mapUpd {β : Type} [DecidableEq β] (d : Nat → β) (m : SMap β) (k : Nat) (f : β → β) : SMap β :=
  mapSet d m k (f (mapGet d m k))

/-- Every listed key from `lo` up to and not including `hi` returns to its default. -/
def mapClear {β : Type} (m : SMap β) (lo hi : Nat) : SMap β :=
  m.filter (fun e => decide (e.1 < lo) || decide (hi ≤ e.1))

/-- The map keeping only the keys that satisfy `p`. -/
def mapKeep {β : Type} (p : Nat → Bool) (m : SMap β) : SMap β := m.filter (fun e => p e.1)

/-- Consecutive keys from `k` written with `vs`. -/
def mapSetList {β : Type} [DecidableEq β] (d : Nat → β) (m : SMap β) (k : Nat) : List β → SMap β
  | [] => m
  | v :: vs => mapSetList d (mapSet d m k v) (k + 1) vs

/-- The values at `n` consecutive keys from `k`. -/
def mapGetList {β : Type} (d : Nat → β) (m : SMap β) (k : Nat) : Nat → List β
  | 0 => []
  | n + 1 => mapGet d m k :: mapGetList d m (k + 1) n

end Sys2Proof.Machine
end

