-- ==== Sys2Proof/Machine/RegMap.lean ====
section
/-!
DEFINITION. Machine/RegMap.lean: the device register space (R11, R13, Table 1-4): one address function for every register
of the spec's register maps, and one descriptor for each with its access code and the bits a write sets. Reserved bits
are in no mask, so a write leaves them 0 (R18). Offsets are those of Tables 1-5, 1-10, 2-8, 3-10, 3-14, 4-15, 5-6, 6-10,
7-4, 7-7, 8-11, 8-12, 8-17, 10-9, 11-7, 13-15, 14-16, 15-11, 16-9, 17-4, 17-5, 18-6, 19-7, 20-16, 21-15, 21-16 and 22-2.
-/
namespace Sys2Proof.Machine

/-- The access codes of Table 0-4. -/
inductive Access where
  | ro | rw | rw1c | rc | wo | tw
  deriving DecidableEq, Repr

/-- One row of a register map: name, offset of its first element, the (count, stride) of each index, whether it is 64 bits
wide, its access code, the bits a write by its writer sets, and the bits that writing 1 clears. -/
structure RegDesc where
  name : String
  base : Nat
  dims : List (Nat × Nat)
  wide : Bool
  acc : Access
  wmask : Nat
  w1c : Nat
  deriving DecidableEq, Repr

namespace R

def IDENT_PART : Nat := 0x000000
def IDENT_STEP : Nat := 0x000004
def IDENT_ENG : Nat := 0x000008
def IDENT_CWAY : Nat := 0x00000C
def IDENT_STATE : Nat := 0x000010
def IDENT_BLOCK_RESET : Nat := 0x000014
def IDENT_SERIAL : Nat := 0x000018
def EVT_ROUTE (i : Nat) : Nat := 0x240000 + i * 0x4
def EVT_PEND (i : Nat) : Nat := 0x242000 + i * 0x4
def EVT_UNDELIVERED_CNT : Nat := 0x242100
def EVT_COUNT (i : Nat) : Nat := 0x244000 + i * 0x8
def EVT_DETAIL (i : Nat) : Nat := 0x248000 + i * 0x8
def EVT_TIME (i : Nat) : Nat := 0x24C000 + i * 0x8
def PARSE_HASH_CFG : Nat := 0x050000
def PARSE_HASH_SEED : Nat := 0x050004
def PARSE_TPID : Nat := 0x050008
def PARSE_L4_PORT (i : Nat) : Nat := 0x050010 + i * 0x4
def PARSE_LANE_MAP (i : Nat) : Nat := 0x050040 + i * 0x4
def PARSE_FOLLOW_CFG : Nat := 0x050080
def PARSE_MAL_ACT (i : Nat) : Nat := 0x050100 + i * 0x4
def PARSE_MAL_CNT (i : Nat) : Nat := 0x050200 + i * 0x8
def PARSE_MAL_DROP_CNT (i : Nat) : Nat := 0x050280 + i * 0x8
def PARSE_UNIT_PKT_CNT (i : Nat) : Nat := 0x050300 + i * 0x8
def PARSE_LANE_CNT (i : Nat) : Nat := 0x050400 + i * 0x8
def PARSE_LANE_HOLD_CNT : Nat := 0x050480
def PARSE_FOLLOW_ENTRIES (i : Nat) : Nat := 0x050500 + i * 0x4
def PARSE_FOLLOW_HELD (i : Nat) : Nat := 0x050510 + i * 0x4
def PARSE_FOLLOW_HOLD_CNT (i : Nat) : Nat := 0x050520 + i * 0x8
def PARSE_FOLLOW_ORPHAN_CNT (i : Nat) : Nat := 0x050540 + i * 0x8
def PARSE_FOLLOW_FULL_CNT (i : Nat) : Nat := 0x050560 + i * 0x8
def PARSE_FOLLOW_AGED_CNT (i : Nat) : Nat := 0x050580 + i * 0x8
def PARSE_FOLLOW_DROP_CNT (i : Nat) : Nat := 0x0505A0 + i * 0x8
def CWAY_GEN_CTL : Nat := 0x060000
def CWAY_GEN_COMMIT : Nat := 0x060004
def CWAY_GEN_SLOT (i : Nat) : Nat := 0x060008 + i * 0x4
def CWAY_GEN_INFLIGHT (i : Nat) : Nat := 0x060010 + i * 0x8
def CWAY_SWAP_CNT : Nat := 0x060020
def CWAY_SWAP_BUSY_CNT : Nat := 0x060028
def CWAY_TCAM_REFUSED_CNT : Nat := 0x060030
def CWAY_TCAM_STAGE (i : Nat) : Nat := 0x060100 + i * 0x4
def CWAY_TCAM_COMMIT : Nat := 0x060190
def CWAY_STAGE_CFG (i j : Nat) : Nat := 0x061000 + i * 0x100 + j * 0x8
def CWAY_KEY_TPL (i j k : Nat) : Nat := 0x062000 + i * 0x800 + j * 0x20 + k * 0x4
def CWAY_INST_STATUS (i : Nat) : Nat := 0x080000 + i * 0x10000
def CWAY_RETAIN_LEVEL (i : Nat) : Nat := 0x080004 + i * 0x10000
def CWAY_IN_PKT_CNT (i : Nat) : Nat := 0x080008 + i * 0x10000
def CWAY_PASS_CNT (i : Nat) : Nat := 0x080010 + i * 0x10000
def CWAY_RECIRC_CNT (i : Nat) : Nat := 0x080018 + i * 0x10000
def CWAY_NO_DEST_CNT (i : Nat) : Nat := 0x080020 + i * 0x10000
def CWAY_PASS_LIMIT_CNT (i : Nat) : Nat := 0x080028 + i * 0x10000
def CWAY_BAD_OP_CNT (i : Nat) : Nat := 0x080030 + i * 0x10000
def CWAY_RETAIN_STALL_CNT (i : Nat) : Nat := 0x080038 + i * 0x10000
def CWAY_LAT_MAX (i : Nat) : Nat := 0x080040 + i * 0x10000
def CWAY_TCAM_PARITY_CNT (i : Nat) : Nat := 0x080048 + i * 0x10000
def CWAY_TCAM_CRC (i j : Nat) : Nat := 0x080050 + i * 0x10000 + j * 0x4
def CWAY_ACT_DROP_CNT (i j : Nat) : Nat := 0x080200 + i * 0x10000 + j * 0x8
def CWAY_STAGE_HIT_CNT (i j : Nat) : Nat := 0x080400 + i * 0x10000 + j * 0x8
def CWAY_STAGE_MISS_CNT (i j : Nat) : Nat := 0x080500 + i * 0x10000 + j * 0x8
def RTBL_AGE_TICK : Nat := 0x0D0000
def RTBL_AGE_NOW : Nat := 0x0D0004
def RTBL_AGE_LIMIT (i : Nat) : Nat := 0x0D0008 + i * 0x4
def RTBL_LEARN_CFG (i : Nat) : Nat := 0x0D0010 + i * 0x4
def RTBL_STN_COPY : Nat := 0x0D0018
def RTBL_OVF_THRESH (i : Nat) : Nat := 0x0D0020 + i * 0x4
def RTBL_TA_OP_CNT : Nat := 0x0D0100
def RTBL_TA_DENIED_CNT : Nat := 0x0D0108
def RTBL_PFX_USED (i : Nat) : Nat := 0x0D0110 + i * 0x4
def RTBL_LEV_LOST_CNT : Nat := 0x0D0118
def RTBL_PFX_UPD_CNT : Nat := 0x0D0120
def RTBL_ENTRIES (i j : Nat) : Nat := 0x0D1000 + i * 0x100 + j * 0x4
def RTBL_OVF_USED (i j : Nat) : Nat := 0x0D1008 + i * 0x100 + j * 0x4
def RTBL_DIGEST (i j : Nat) : Nat := 0x0D1010 + i * 0x100 + j * 0x8
def RTBL_LEARN_CNT (i j : Nat) : Nat := 0x0D1020 + i * 0x100 + j * 0x8
def RTBL_AGED_CNT (i j : Nat) : Nat := 0x0D1030 + i * 0x100 + j * 0x8
def RTBL_LEARN_FAIL_CNT (i j : Nat) : Nat := 0x0D1040 + i * 0x100 + j * 0x8
def RTBL_DIVERGE_CNT (i j : Nat) : Nat := 0x0D1050 + i * 0x100 + j * 0x8
def RTBL_PROMOTE_CNT (i j : Nat) : Nat := 0x0D1060 + i * 0x100 + j * 0x8
def RTBL_MOVE_CNT (i : Nat) : Nat := 0x0D1070 + i * 0x100
def RTBL_COPY_IN_CNT (i : Nat) : Nat := 0x0D1078 + i * 0x100
def RTBL_COPY_LOST_CNT (i : Nat) : Nat := 0x0D1080 + i * 0x100
def RTBL_LEARN_QFULL_CNT (i : Nat) : Nat := 0x0D1088 + i * 0x100
def RTBL_COPY_LEVEL (i : Nat) : Nat := 0x0D1090 + i * 0x100
def RTBL_LEARN_LEVEL (i : Nat) : Nat := 0x0D1094 + i * 0x100
def CWAY_SHLD_CFG : Nat := 0x068000
def CWAY_SHLD_STATUS : Nat := 0x068004
def CWAY_SHLD_FORCE : Nat := 0x068008
def CWAY_SHLD_SPLIT : Nat := 0x06800C
def CWAY_SHLD_CMP_CNT : Nat := 0x068010
def CWAY_SHLD_MATCH_CNT : Nat := 0x068018
def CWAY_SHLD_MISMATCH_CNT : Nat := 0x068020
def CWAY_SHLD_VOID_CNT : Nat := 0x068028
def CWAY_SHLD_SKIP_CNT : Nat := 0x068030
def CWAY_SHLD_NO_MAJ_CNT : Nat := 0x068038
def CWAY_SHLD_NO_REPLAY_CNT : Nat := 0x068040
def CWAY_SHLD_REPLAY_CNT : Nat := 0x068048
def CWAY_SHLD_WINDOW_CNT : Nat := 0x068050
def CWAY_SHLD_LEARN_LOST_CNT : Nat := 0x068058
def CWAY_SHLD_SUB_TIME : Nat := 0x068060
def CWAY_SHLD_SUB_NS : Nat := 0x068068
def CWAY_SHLD_CHARGE_CNT (i : Nat) : Nat := 0x068080 + i * 0x8
def CWAY_SHLD_LAST_CHARGE (i : Nat) : Nat := 0x0680C0 + i * 0x8
def CWAY_SHLD_MM_SIGNPOST (i : Nat) : Nat := 0x068100 + i * 0x4
def CWAY_SHLD_MM_DIGEST (i : Nat) : Nat := 0x068140 + i * 0x4
def CWAY_SHLD_MM_INFO : Nat := 0x06814C
def CWAY_SHLD_MM_TIME : Nat := 0x068150
def TM_CFG : Nat := 0x0E0000
def TM_IND_CTL : Nat := 0x0E0004
def TM_IND_STATUS : Nat := 0x0E0008
def TM_IND_REFUSED_CNT : Nat := 0x0E0010
def TM_IND_DATA (i : Nat) : Nat := 0x0E0040 + i * 0x4
def TM_DROP_CNT (i : Nat) : Nat := 0x0E0100 + i * 0x8
def TM_ENQ_CNT : Nat := 0x0E0180
def TM_DEQ_CNT : Nat := 0x0E0188
def TM_ECN_MARK_CNT : Nat := 0x0E0190
def TM_TOLL_OP_CNT : Nat := 0x0E0198
def TM_TOLL_DISABLED_CNT : Nat := 0x0E01A0
def TM_TG_STEP_CNT : Nat := 0x0E01A8
def TM_POOL_LIMIT (i : Nat) : Nat := 0x0E0200 + i * 0x4
def TM_POOL_USED (i : Nat) : Nat := 0x0E0280 + i * 0x4
def TM_MIRROR_Q (i : Nat) : Nat := 0x0E0300 + i * 0x4
def TM_PORT_DEQ_PKT_CNT (i : Nat) : Nat := 0x0E0400 + i * 0x8
def TM_PORT_DEQ_BYTE_CNT (i : Nat) : Nat := 0x0E0480 + i * 0x8
def TM_PORT_STATE (i : Nat) : Nat := 0x0E0500 + i * 0x4
def TM_TG_CFG (i : Nat) : Nat := 0x0E1000 + i * 0x100
def TM_TG_STATUS (i : Nat) : Nat := 0x0E1004 + i * 0x100
def TM_TG_BASE (i : Nat) : Nat := 0x0E1008 + i * 0x100
def TM_TG_CYCLE (i : Nat) : Nat := 0x0E1010 + i * 0x100
def TM_TG_LEN (i : Nat) : Nat := 0x0E1014 + i * 0x100
def TM_TG_NEXT_BASE (i : Nat) : Nat := 0x0E1018 + i * 0x100
def TM_TG_NEXT_CYCLE (i : Nat) : Nat := 0x0E1020 + i * 0x100
def TM_TG_NEXT_LEN (i : Nat) : Nat := 0x0E1024 + i * 0x100
def TM_TG_SWITCH (i : Nat) : Nat := 0x0E1028 + i * 0x100
def TM_TG_SWITCH_TIME (i : Nat) : Nat := 0x0E1030 + i * 0x100
def TM_TG_OVERSIZE_CNT (i : Nat) : Nat := 0x0E1038 + i * 0x100
def TM_TG_MAXOPEN (i j : Nat) : Nat := 0x0E1040 + i * 0x100 + j * 0x4
def TM_TG_DEFER_CNT (i : Nat) : Nat := 0x0E1060 + i * 0x100
def LINE_PORT_OPT : Nat := 0x040000
def LINE_MGMT_CFG : Nat := 0x040004
def LINE_MGMT_STATUS : Nat := 0x040008
def LINE_FEC_THRESH : Nat := 0x04000C
def LINE_LANE_CFG (i : Nat) : Nat := 0x040100 + i * 0x4
def LINE_PORT_CFG (i : Nat) : Nat := 0x041000 + i * 0x200
def LINE_PORT_STATUS (i : Nat) : Nat := 0x041004 + i * 0x200
def LINE_PFC_THRESH (i : Nat) : Nat := 0x041008 + i * 0x200
def LINE_RX_PKT_CNT (i : Nat) : Nat := 0x041010 + i * 0x200
def LINE_RX_BYTE_CNT (i : Nat) : Nat := 0x041018 + i * 0x200
def LINE_TX_PKT_CNT (i : Nat) : Nat := 0x041020 + i * 0x200
def LINE_TX_BYTE_CNT (i : Nat) : Nat := 0x041028 + i * 0x200
def LINE_DROP_CNT (i j : Nat) : Nat := 0x041040 + i * 0x200 + j * 0x8
def LINE_FEC_CORR_CNT (i : Nat) : Nat := 0x041068 + i * 0x200
def LINE_FEC_UNCORR_CNT (i : Nat) : Nat := 0x041070 + i * 0x200
def LINE_FEC_SYM_CNT (i : Nat) : Nat := 0x041078 + i * 0x200
def LINE_LINK_DOWN_CNT (i : Nat) : Nat := 0x041080 + i * 0x200
def LINE_PFC_RX_CNT (i j : Nat) : Nat := 0x041100 + i * 0x200 + j * 0x8
def LINE_PFC_TX_CNT (i j : Nat) : Nat := 0x041140 + i * 0x200 + j * 0x8
def LINE_PAUSE_RX_CNT (i : Nat) : Nat := 0x041180 + i * 0x200
def LINE_PAUSE_TX_CNT (i : Nat) : Nat := 0x041188 + i * 0x200
def TIME_NOW : Nat := 0x230000
def TIME_INCR : Nat := 0x230008
def TIME_SET : Nat := 0x230010
def TIME_OFFSET : Nat := 0x230018
def TIME_CTL : Nat := 0x230020
def TIME_SLEW : Nat := 0x230024
def TIME_STEP_CNT : Nat := 0x230028
def TIME_PPS_CFG : Nat := 0x230030
def TIME_PPS_IN_TS : Nat := 0x230038
def TIME_TS_LOST_CNT : Nat := 0x230040
def ENG_STATUS (i : Nat) : Nat := 0x100000 + i * 0x1000
def ENG_ORPHAN_LEVEL (i : Nat) : Nat := 0x100004 + i * 0x1000
def ENG_SLOT_TABLE (i : Nat) : Nat := 0x100008 + i * 0x1000
def ENG_FAULT_INFO (i : Nat) : Nat := 0x100010 + i * 0x1000
def ENG_FAULT_TIME (i : Nat) : Nat := 0x100018 + i * 0x1000
def ENG_STALL_TIME (i : Nat) : Nat := 0x100020 + i * 0x1000
def ENG_ISSUE_CNT (i : Nat) : Nat := 0x100028 + i * 0x1000
def ENG_IDLE_CNT (i : Nat) : Nat := 0x100030 + i * 0x1000
def ENG_STALL_CNT (i : Nat) : Nat := 0x100038 + i * 0x1000
def ENG_ORPHAN_CNT (i : Nat) : Nat := 0x100040 + i * 0x1000
def ENG_ORPHAN_LOST_CNT (i : Nat) : Nat := 0x100048 + i * 0x1000
def ENG_PARTIAL_DISCARD_CNT (i : Nat) : Nat := 0x100050 + i * 0x1000
def ENG_FAULT_CNT (i : Nat) : Nat := 0x100058 + i * 0x1000
def ENG_ECC_CORR_CNT (i : Nat) : Nat := 0x100060 + i * 0x1000
def ENG_PKT_DROP_CNT (i j : Nat) : Nat := 0x100080 + i * 0x1000 + j * 0x8
def ENG_CH_BIND (i j : Nat) : Nat := 0x100100 + i * 0x1000 + j * 0x4
def ENG_CH_LEVEL (i j : Nat) : Nat := 0x100180 + i * 0x1000 + j * 0x4
def ENG_SREG (i j : Nat) : Nat := 0x100400 + i * 0x1000 + j * 0x8
def ENG_PREG (i j k : Nat) : Nat := 0x100800 + i * 0x1000 + j * 0x100 + k * 0x8
def ENG_THR_STATUS (i j : Nat) : Nat := 0x100200 + i * 0x1000 + j * 0x40
def ENG_THR_PC (i j : Nat) : Nat := 0x100204 + i * 0x1000 + j * 0x40
def ENG_THR_ENTRY (i j : Nat) : Nat := 0x100208 + i * 0x1000 + j * 0x40
def ENG_THR_INSTR_CNT (i j : Nat) : Nat := 0x100210 + i * 0x1000 + j * 0x40
def ENG_THR_BLOCK_CNT (i j : Nat) : Nat := 0x100218 + i * 0x1000 + j * 0x40
def ENG_THR_PKT_IN_CNT (i j : Nat) : Nat := 0x100220 + i * 0x1000 + j * 0x40
def ENG_THR_PKT_OUT_CNT (i j : Nat) : Nat := 0x100228 + i * 0x1000 + j * 0x40
def ENG_STALL_SNAP (i j : Nat) : Nat := 0x100230 + i * 0x1000 + j * 0x40
def JCT_ENG_RUN (i : Nat) : Nat := 0x190000 + i * 0x4
def JCT_MSG_CNT : Nat := 0x190020
def JCT_UNBOUND_CNT : Nat := 0x190028
def JCT_STORE_USED : Nat := 0x190030
def JCT_CLASS_CFG (i : Nat) : Nat := 0x190100 + i * 0x8
def JCT_CLASS_LEVEL (i : Nat) : Nat := 0x190300 + i * 0x4
def JCT_CLASS_DROP_CNT (i : Nat) : Nat := 0x190400 + i * 0x8
def JCT_CLASS_PKT_CNT (i : Nat) : Nat := 0x190600 + i * 0x8
def JCT_MEMBER (i : Nat) : Nat := 0x191000 + i * 0x4
def HIU_STRAPS : Nat := 0x010000
def HIU_PF_MAP : Nat := 0x010004
def HIU_REGWRITE_DISCARD_CNT : Nat := 0x010010
def HIU_BAD_ACCESS_CNT : Nat := 0x010018
def HIU_LINK_STATUS (i : Nat) : Nat := 0x011000 + i * 0x400
def HIU_LINK_CFG (i : Nat) : Nat := 0x011004 + i * 0x400
def HIU_TAGS_USED (i : Nat) : Nat := 0x011008 + i * 0x400
def HIU_TAGS_QUAR (i : Nat) : Nat := 0x01100C + i * 0x400
def HIU_RD_REQ_CNT (i : Nat) : Nat := 0x011010 + i * 0x400
def HIU_WR_REQ_CNT (i : Nat) : Nat := 0x011018 + i * 0x400
def HIU_RD_BYTE_CNT (i : Nat) : Nat := 0x011020 + i * 0x400
def HIU_WR_BYTE_CNT (i : Nat) : Nat := 0x011028 + i * 0x400
def HIU_TIMEOUT_CNT (i : Nat) : Nat := 0x011030 + i * 0x400
def HIU_LATE_CPL_CNT (i : Nat) : Nat := 0x011038 + i * 0x400
def HIU_UR_CNT (i : Nat) : Nat := 0x011040 + i * 0x400
def HIU_BM_DISCARD_CNT (i : Nat) : Nat := 0x011048 + i * 0x400
def HIU_LINK_DOWN_CNT (i : Nat) : Nat := 0x011050 + i * 0x400
def HIU_RECOVERY_CNT (i : Nat) : Nat := 0x011058 + i * 0x400
def HIU_INBOUND_DISCARD_CNT (i : Nat) : Nat := 0x011060 + i * 0x400
def HIU_IDE_FAIL_CNT (i : Nat) : Nat := 0x011068 + i * 0x400
def HIU_ATC_INVAL_CNT (i : Nat) : Nat := 0x011070 + i * 0x400
def HIU_LAST_DOWN_TIME (i : Nat) : Nat := 0x011078 + i * 0x400
def HIU_PEER_WIN_SHADOW (i j : Nat) : Nat := 0x014000 + i * 0x40 + j * 0x8
def HIU_PEER_WIN_ACTIVE (i j : Nat) : Nat := 0x014200 + i * 0x40 + j * 0x8
def HIU_WINDOW_COMMIT : Nat := 0x014400
def HIU_WIN_STATUS : Nat := 0x014404
def HIU_WIN_SWITCH_CNT : Nat := 0x014408
def HIU_FN_STATE (i : Nat) : Nat := 0x018000 + i * 0x4
def FNM_CFG : Nat := 0x020000
def FNM_PF_CFG (i : Nat) : Nat := 0x020008 + i * 0x4
def FNM_IND_CTL : Nat := 0x020040
def FNM_IND_STATUS : Nat := 0x020044
def FNM_IND_DATA (i : Nat) : Nat := 0x020080 + i * 0x4
def FNM_POOL_TOTAL (i : Nat) : Nat := 0x020100 + i * 0x4
def FNM_POOL_FREE (i : Nat) : Nat := 0x020140 + i * 0x4
def FNM_CREATE_CNT : Nat := 0x020180
def FNM_REMOVE_CNT : Nat := 0x020188
def FNM_REFUSED_CNT : Nat := 0x020190
def FNM_FOREIGN_DB_CNT : Nat := 0x020198
def FNM_QUIESCE_ABORT_CNT : Nat := 0x0201A0
def FNM_INST_STATE (i : Nat) : Nat := 0x021000 + i * 0x4
def RING_IND_CTL : Nat := 0x030000
def RING_IND_STATUS : Nat := 0x030004
def RING_CTX_CACHED : Nat := 0x030008
def RING_BACKLOG_USED : Nat := 0x03000C
def RING_DB_CNT : Nat := 0x030010
def RING_DB_BAD_CNT : Nat := 0x030018
def RING_DB_MERGED_CNT : Nat := 0x030020
def RING_HINT_MISMATCH_CNT : Nat := 0x030028
def RING_INDEX_BAD_CNT : Nat := 0x030030
def RING_DESC_CNT : Nat := 0x030038
def RING_CPL_CNT : Nat := 0x030040
def RING_MALFORMED_CNT : Nat := 0x030048
def RING_BACKLOG_CNT : Nat := 0x030050
def RING_RX_NOBUF_CNT : Nat := 0x030058
def RING_RX_UNBOUND_CNT : Nat := 0x030060
def RING_ABORT_CNT : Nat := 0x030068
def RING_ABORT_MISSED_CNT : Nat := 0x030070
def RING_CTX_MISS_CNT : Nat := 0x030078
def RING_CTX_WAIT_CNT : Nat := 0x030080
def RING_IND_DATA (i : Nat) : Nat := 0x030100 + i * 0x4
def RTE_CFG : Nat := 0x1A0000
def RTE_RETRY_CFG : Nat := 0x1A0004
def RTE_CC_CFG : Nat := 0x1A0008
def RTE_GSI_CFG : Nat := 0x1A000C
def RTE_IND_CTL : Nat := 0x1A0010
def RTE_IND_STATUS : Nat := 0x1A0014
def RTE_QP_USED : Nat := 0x1A0018
def RTE_CTX_CACHED : Nat := 0x1A001C
def RTE_LAYBY_LEVEL : Nat := 0x1A0020
def RTE_TRACKERS_USED : Nat := 0x1A0024
def RTE_MR_USED : Nat := 0x1A0028
def RTE_RX_PKT_CNT : Nat := 0x1A0040
def RTE_TX_PKT_CNT : Nat := 0x1A0048
def RTE_RETX_PKT_CNT : Nat := 0x1A0050
def RTE_TIMEOUT_CNT : Nat := 0x1A0058
def RTE_NAK_TX_CNT : Nat := 0x1A0060
def RTE_NAK_RX_CNT : Nat := 0x1A0068
def RTE_CNP_TX_CNT : Nat := 0x1A0070
def RTE_CNP_RX_CNT : Nat := 0x1A0078
def RTE_CTX_MISS_CNT : Nat := 0x1A0080
def RTE_CTX_WRITEBACK_CNT : Nat := 0x1A0088
def RTE_LAYBY_WAIT_CNT : Nat := 0x1A0090
def RTE_TRACKER_DONE_CNT : Nat := 0x1A0098
def RTE_TRACKER_AGED_CNT : Nat := 0x1A00A0
def RTE_DUP_PKT_CNT : Nat := 0x1A00A8
def RTE_IND_DATA (i : Nat) : Nat := 0x1A0100 + i * 0x4
def RTE_DROP_CNT (i : Nat) : Nat := 0x1A0200 + i * 0x8
def SCE_CFG : Nat := 0x1B0000
def SCE_IND_CTL : Nat := 0x1B0004
def SCE_IND_STATUS : Nat := 0x1B0008
def SCE_SLOTS_USED : Nat := 0x1B000C
def SCE_CONN_UP : Nat := 0x1B0010
def SCE_CMD_CNT : Nat := 0x1B0020
def SCE_CMD_ERR_CNT : Nat := 0x1B0028
def SCE_READ_BYTE_CNT : Nat := 0x1B0030
def SCE_WRITE_BYTE_CNT : Nat := 0x1B0038
def SCE_SPLIT_CNT : Nat := 0x1B0040
def SCE_FAILOVER_CNT : Nat := 0x1B0048
def SCE_TIMEOUT_CNT : Nat := 0x1B0050
def SCE_SLOT_WAIT_CNT : Nat := 0x1B0058
def SCE_BAD_DB_CNT : Nat := 0x1B0060
def SCE_PS_HOLD_CNT : Nat := 0x1B0068
def SCE_IND_DATA (i : Nat) : Nat := 0x1B0100 + i * 0x4
def SCE_DROP_CNT (i : Nat) : Nat := 0x1B0200 + i * 0x8
def CIPH_SHARE : Nat := 0x1C0000
def CIPH_CORE_STATUS : Nat := 0x1C0004
def CIPH_SOFT_THRESH : Nat := 0x1C0008
def CIPH_IND_CTL : Nat := 0x1C0010
def CIPH_IND_STATUS : Nat := 0x1C0014
def CIPH_ENC_PKT_CNT : Nat := 0x1C0020
def CIPH_DEC_PKT_CNT : Nat := 0x1C0028
def CIPH_ENC_BYTE_CNT : Nat := 0x1C0030
def CIPH_DEC_BYTE_CNT : Nat := 0x1C0038
def CIPH_DS_OP_CNT : Nat := 0x1C0040
def CIPH_DS_IN_BYTE_CNT : Nat := 0x1C0048
def CIPH_DS_OUT_BYTE_CNT : Nat := 0x1C0050
def CIPH_IND_DATA (i : Nat) : Nat := 0x1C0100 + i * 0x4
def CIPH_DROP_CNT (i : Nat) : Nat := 0x1C0200 + i * 0x8
def CIPH_MACSEC_CFG (i : Nat) : Nat := 0x1C1000 + i * 0x100
def CIPH_MACSEC_TX (i : Nat) : Nat := 0x1C1008 + i * 0x100
def CIPH_MACSEC_UNPROT_CNT (i : Nat) : Nat := 0x1C1010 + i * 0x100
def CIPH_MACSEC_DROP_CNT (i j : Nat) : Nat := 0x1C1040 + i * 0x100 + j * 0x8
def PBUF_SPILL_CFG : Nat := 0x1D0000
def PBUF_SPILL_POOLS : Nat := 0x1D0004
def PBUF_STAGE_CFG : Nat := 0x1D0008
def PBUF_INGRESS_RESERVE : Nat := 0x1D000C
def PBUF_FREE : Nat := 0x1D0010
def PBUF_SPILL_USED : Nat := 0x1D0014
def PBUF_SCRUB_CFG : Nat := 0x1D0018
def PBUF_ROWS : Nat := 0x1D001C
def PBUF_SPILL_CNT : Nat := 0x1D0020
def PBUF_STAGE_CNT : Nat := 0x1D0028
def PBUF_SPILL_LIMIT_CNT : Nat := 0x1D0030
def PBUF_WAIT_CNT : Nat := 0x1D0038
def PBUF_ALLOC_FAIL_CNT : Nat := 0x1D0040
def PBUF_ECC_CORR_CNT : Nat := 0x1D0048
def PBUF_ECC_UNCORR_CNT : Nat := 0x1D0050
def PBUF_DROP_CNT (i : Nat) : Nat := 0x1D0080 + i * 0x8
def PBUF_BANK_CORR_CNT (i : Nat) : Nat := 0x1D0100 + i * 0x8
def HBMC_PATROL_CFG : Nat := 0x1E0000
def HBMC_ARB_CFG : Nat := 0x1E0004
def HBMC_LANE_THRESH : Nat := 0x1E0008
def HBMC_PATROL_POS : Nat := 0x1E0010
def HBMC_PATROL_PASS_CNT : Nat := 0x1E0018
def HBMC_LAST_UNCORR_ADDR : Nat := 0x1E0020
def HBMC_LAST_UNCORR_TIME : Nat := 0x1E0028
def HBMC_CORR_CNT (i : Nat) : Nat := 0x1E0040 + i * 0x8
def HBMC_UNCORR_CNT (i : Nat) : Nat := 0x1E0060 + i * 0x8
def HBMC_OWNER_UNCORR_CNT (i : Nat) : Nat := 0x1E0080 + i * 0x8
def HBMC_CLASS_BYTE_CNT (i : Nat) : Nat := 0x1E0100 + i * 0x8
def HBMC_REPAIR (i : Nat) : Nat := 0x1E0200 + i * 0x4
def CLKRST_PLL_STATUS : Nat := 0x1F0000
def CLKRST_CLK_STATUS : Nat := 0x1F0004
def CLKRST_RESET_CAUSE : Nat := 0x1F0008
def CLKRST_RESET_REQ : Nat := 0x1F000C
def CLKRST_BLOCK_RESET : Nat := 0x1F0010
def CLKRST_FREQ_MEAS (i : Nat) : Nat := 0x1F0020 + i * 0x4
def CLKRST_WARM_CNT : Nat := 0x1F0040
def CLKRST_UNLOCK_CNT : Nat := 0x1F0048
def CLKRST_DEVIATION_CNT : Nat := 0x1F0050
def CLKRST_EVT_MERGE_CNT : Nat := 0x1F0058
def CLKRST_XING_HOLD_CNT : Nat := 0x1F0060
def CLKRST_LAST_WARM_TIME : Nat := 0x1F0068
def CLKRST_FLUSH_CNT (i : Nat) : Nat := 0x1F0100 + i * 0x8
def CLKRST_BLOCK_DROP_CNT (i : Nat) : Nat := 0x1F0200 + i * 0x8
def TETHER_ID : Nat := 0x200000
def TETHER_STATE : Nat := 0x200004
def TETHER_THERM_CFG : Nat := 0x200008
def TETHER_THERM_STATUS : Nat := 0x20000C
def TETHER_RAIL_CFG : Nat := 0x200010
def TETHER_WDT_CFG : Nat := 0x200014
def TETHER_TRIAL : Nat := 0x200018
def TETHER_MAP_INFO : Nat := 0x20001C
def TETHER_ST_RESULT : Nat := 0x200020
def TETHER_ST_TIME : Nat := 0x200024
def TETHER_TEMP (i : Nat) : Nat := 0x200040 + i * 0x4
def TETHER_RAIL_MV (i : Nat) : Nat := 0x2000C0 + i * 0x4
def TETHER_THROTTLE_CNT : Nat := 0x200100
def TETHER_FW_HANG_CNT : Nat := 0x200108
def TETHER_TRIAL_EXPIRE_CNT : Nat := 0x200110
def TETHER_RESTART_CNT : Nat := 0x200118
def TETHER_MAP_LOST_CNT : Nat := 0x200120
def TETHER_HANG_CNT (i : Nat) : Nat := 0x200200 + i * 0x8
def TETHER_MAP (i : Nat) : Nat := 0x204000 + i * 0x8
def BOOT_STATUS : Nat := 0x250000
def BOOT_FUSE : Nat := 0x250004
def BOOT_TRIAL : Nat := 0x250008
def BOOT_LEDGER : Nat := 0x25000C
def BOOT_CTL_RELEASE : Nat := 0x250010
def BOOT_CC_RESTART : Nat := 0x250014
def BOOT_MEAS_LOCK : Nat := 0x250018
def BOOT_EXT_CTL : Nat := 0x25001C
def BOOT_ORDER_USED : Nat := 0x250020
def BOOT_TIME_MS : Nat := 0x250024
def BOOT_EXT_DATA (i : Nat) : Nat := 0x250040 + i * 0x4
def BOOT_SRC_RESULT (i : Nat) : Nat := 0x250080 + i * 0x4
def BOOT_REFUSED_CNT : Nat := 0x2500A0
def BOOT_LEDGER_BAD_CNT : Nat := 0x2500A8
def BOOT_EXT_REFUSED_CNT : Nat := 0x2500B0
def BOOT_LOG_LOST_CNT : Nat := 0x2500B8
def BOOT_MEAS (i j : Nat) : Nat := 0x250400 + i * 0x30 + j * 0x4
def MLST_STATUS : Nat := 0x210000
def MLST_OP_SECONDS : Nat := 0x210008
def MLST_HOURS : Nat := 0x210010
def MLST_POWER_CYCLES : Nat := 0x210014
def MLST_NEXT_SEQ : Nat := 0x210018
def MLST_FIRST_SEQ : Nat := 0x21001C
def MLST_LAST_CLEAR_HOUR : Nat := 0x210020
def MLST_MERGED_CNT : Nat := 0x210028
def MLST_WRAP_CNT : Nat := 0x210030
def MLST_CLEAR_CNT : Nat := 0x210038
def MLST_FLASH_ERR_CNT : Nat := 0x210040
def MLST_COLD_CNT (i : Nat) : Nat := 0x210080 + i * 0x8
def MLST_EXTRA (i : Nat) : Nat := 0x210100 + i * 0x4
def MLST_EXTREME (i j : Nat) : Nat := 0x210200 + i * 0x10 + j * 0x4
def MLST_HIST (i j : Nat) : Nat := 0x210800 + i * 0x100 + j * 0x8
def SND_STATUS : Nat := 0x220000
def SND_REC_CNT : Nat := 0x220010
def SND_MATCH_CNT : Nat := 0x220018
def SND_FABRIC_LOST_CNT : Nat := 0x220020
def SND_SINK_CFG (i : Nat) : Nat := 0x220100 + i * 0x40
def SND_SINK_RATE (i : Nat) : Nat := 0x220104 + i * 0x40
def SND_SINK_RING (i : Nat) : Nat := 0x220108 + i * 0x40
def SND_SINK_BUF (i : Nat) : Nat := 0x220110 + i * 0x40
def SND_SINK_REC_CNT (i : Nat) : Nat := 0x220120 + i * 0x40
def SND_SINK_LOST_CNT (i : Nat) : Nat := 0x220128 + i * 0x40
def SND_SINK_SEQ (i : Nat) : Nat := 0x220130 + i * 0x40
def SND_FILTER (i j k : Nat) : Nat := 0x221000 + i * 0x80 + j * 0x10 + k * 0x4
def SND_CNT_LIST (i j : Nat) : Nat := 0x222000 + i * 0x100 + j * 0x4
def SND_PORT (i j : Nat) : Nat := 0x228000 + i * 0x20 + j * 0x8
def TETHER_POWER : Nat := 0x200300
def TETHER_ENERGY : Nat := 0x200308
def TETHER_POWER_GROUP (i : Nat) : Nat := 0x200340 + i * 0x4

end R

/-- Register descriptors, part 1. -/
def regRows1 : List RegDesc := [
  ⟨"IDENT_PART", 0x000000, [], false, .ro, 0x0, 0x0⟩,
  ⟨"IDENT_STEP", 0x000004, [], false, .ro, 0x0, 0x0⟩,
  ⟨"IDENT_ENG", 0x000008, [], false, .tw, 0xffffffff, 0x0⟩,
  ⟨"IDENT_CWAY", 0x00000C, [], false, .ro, 0x0, 0x0⟩,
  ⟨"IDENT_STATE", 0x000010, [], false, .rw, 0x7, 0x0⟩,
  ⟨"IDENT_BLOCK_RESET", 0x000014, [], false, .ro, 0x0, 0x0⟩,
  ⟨"IDENT_SERIAL", 0x000018, [], true, .ro, 0x0, 0x0⟩,
  ⟨"EVT_ROUTE", 0x240000, [(2048, 0x4)], false, .rw, 0xf0ffffff, 0x0⟩,
  ⟨"EVT_PEND", 0x242000, [(64, 0x4)], false, .ro, 0x0, 0x0⟩,
  ⟨"EVT_UNDELIVERED_CNT", 0x242100, [], true, .rc, 0x0, 0x0⟩,
  ⟨"EVT_COUNT", 0x244000, [(2048, 0x8)], true, .ro, 0x0, 0x0⟩,
  ⟨"EVT_DETAIL", 0x248000, [(2048, 0x8)], true, .ro, 0x0, 0x0⟩,
  ⟨"EVT_TIME", 0x24C000, [(2048, 0x8)], true, .ro, 0x0, 0x0⟩,
  ⟨"PARSE_HASH_CFG", 0x050000, [], false, .rw, 0x7f, 0x0⟩,
  ⟨"PARSE_HASH_SEED", 0x050004, [], false, .rw, 0xffff, 0x0⟩,
  ⟨"PARSE_TPID", 0x050008, [], false, .rw, 0xffff, 0x0⟩,
  ⟨"PARSE_L4_PORT", 0x050010, [(8, 0x4)], false, .rw, 0xf000ffff, 0x0⟩,
  ⟨"PARSE_LANE_MAP", 0x050040, [(16, 0x4)], false, .rw, 0x7, 0x0⟩,
  ⟨"PARSE_FOLLOW_CFG", 0x050080, [], false, .rw, 0xff7fffff, 0x0⟩,
  ⟨"PARSE_MAL_ACT", 0x050100, [(16, 0x4)], false, .rw, 0xff, 0x0⟩,
  ⟨"PARSE_MAL_CNT", 0x050200, [(16, 0x8)], true, .ro, 0x0, 0x0⟩,
  ⟨"PARSE_MAL_DROP_CNT", 0x050280, [(16, 0x8)], true, .ro, 0x0, 0x0⟩,
  ⟨"PARSE_UNIT_PKT_CNT", 0x050300, [(5, 0x8)], true, .ro, 0x0, 0x0⟩,
  ⟨"PARSE_LANE_CNT", 0x050400, [(16, 0x8)], true, .ro, 0x0, 0x0⟩]

/-- Register descriptors, part 2. -/
def regRows2 : List RegDesc := [
  ⟨"PARSE_LANE_HOLD_CNT", 0x050480, [], true, .ro, 0x0, 0x0⟩,
  ⟨"PARSE_FOLLOW_ENTRIES", 0x050500, [(4, 0x4)], false, .ro, 0x0, 0x0⟩,
  ⟨"PARSE_FOLLOW_HELD", 0x050510, [(4, 0x4)], false, .ro, 0x0, 0x0⟩,
  ⟨"PARSE_FOLLOW_HOLD_CNT", 0x050520, [(4, 0x8)], true, .ro, 0x0, 0x0⟩,
  ⟨"PARSE_FOLLOW_ORPHAN_CNT", 0x050540, [(4, 0x8)], true, .ro, 0x0, 0x0⟩,
  ⟨"PARSE_FOLLOW_FULL_CNT", 0x050560, [(4, 0x8)], true, .ro, 0x0, 0x0⟩,
  ⟨"PARSE_FOLLOW_AGED_CNT", 0x050580, [(4, 0x8)], true, .ro, 0x0, 0x0⟩,
  ⟨"PARSE_FOLLOW_DROP_CNT", 0x0505A0, [(4, 0x8)], true, .ro, 0x0, 0x0⟩,
  ⟨"CWAY_GEN_CTL", 0x060000, [], false, .ro, 0x0, 0x0⟩,
  ⟨"CWAY_GEN_COMMIT", 0x060004, [], false, .wo, 0x0, 0x0⟩,
  ⟨"CWAY_GEN_SLOT", 0x060008, [(2, 0x4)], false, .rw, 0xc0000000, 0x0⟩,
  ⟨"CWAY_GEN_INFLIGHT", 0x060010, [(2, 0x8)], true, .ro, 0x0, 0x0⟩,
  ⟨"CWAY_SWAP_CNT", 0x060020, [], true, .ro, 0x0, 0x0⟩,
  ⟨"CWAY_SWAP_BUSY_CNT", 0x060028, [], true, .ro, 0x0, 0x0⟩,
  ⟨"CWAY_TCAM_REFUSED_CNT", 0x060030, [], true, .ro, 0x0, 0x0⟩,
  ⟨"CWAY_TCAM_STAGE", 0x060100, [(34, 0x4)], false, .rw, 0xffffffff, 0x0⟩,
  ⟨"CWAY_TCAM_COMMIT", 0x060190, [], false, .wo, 0x0, 0x0⟩,
  ⟨"CWAY_STAGE_CFG", 0x061000, [(2, 0x100), (24, 0x8)], true, .rw, 0xffffff000001ffff, 0x0⟩,
  ⟨"CWAY_KEY_TPL", 0x062000, [(2, 0x800), (64, 0x20), (8, 0x4)], false, .rw, 0xffffffff, 0x0⟩,
  ⟨"CWAY_INST_STATUS", 0x080000, [(5, 0x10000)], false, .ro, 0x0, 0x0⟩,
  ⟨"CWAY_RETAIN_LEVEL", 0x080004, [(5, 0x10000)], false, .ro, 0x0, 0x0⟩,
  ⟨"CWAY_IN_PKT_CNT", 0x080008, [(5, 0x10000)], true, .ro, 0x0, 0x0⟩,
  ⟨"CWAY_PASS_CNT", 0x080010, [(5, 0x10000)], true, .ro, 0x0, 0x0⟩,
  ⟨"CWAY_RECIRC_CNT", 0x080018, [(5, 0x10000)], true, .ro, 0x0, 0x0⟩]

/-- Register descriptors, part 3. -/
def regRows3 : List RegDesc := [
  ⟨"CWAY_NO_DEST_CNT", 0x080020, [(5, 0x10000)], true, .ro, 0x0, 0x0⟩,
  ⟨"CWAY_PASS_LIMIT_CNT", 0x080028, [(5, 0x10000)], true, .ro, 0x0, 0x0⟩,
  ⟨"CWAY_BAD_OP_CNT", 0x080030, [(5, 0x10000)], true, .ro, 0x0, 0x0⟩,
  ⟨"CWAY_RETAIN_STALL_CNT", 0x080038, [(5, 0x10000)], true, .ro, 0x0, 0x0⟩,
  ⟨"CWAY_LAT_MAX", 0x080040, [(5, 0x10000)], false, .rc, 0x0, 0x0⟩,
  ⟨"CWAY_TCAM_PARITY_CNT", 0x080048, [(5, 0x10000)], true, .ro, 0x0, 0x0⟩,
  ⟨"CWAY_TCAM_CRC", 0x080050, [(5, 0x10000), (2, 0x4)], false, .ro, 0x0, 0x0⟩,
  ⟨"CWAY_ACT_DROP_CNT", 0x080200, [(5, 0x10000), (64, 0x8)], true, .ro, 0x0, 0x0⟩,
  ⟨"CWAY_STAGE_HIT_CNT", 0x080400, [(5, 0x10000), (24, 0x8)], true, .ro, 0x0, 0x0⟩,
  ⟨"CWAY_STAGE_MISS_CNT", 0x080500, [(5, 0x10000), (24, 0x8)], true, .ro, 0x0, 0x0⟩,
  ⟨"RTBL_AGE_TICK", 0x0D0000, [], false, .rw, 0xffff, 0x0⟩,
  ⟨"RTBL_AGE_NOW", 0x0D0004, [], false, .ro, 0x0, 0x0⟩,
  ⟨"RTBL_AGE_LIMIT", 0x0D0008, [(2, 0x4)], false, .rw, 0x8000ffff, 0x0⟩,
  ⟨"RTBL_LEARN_CFG", 0x0D0010, [(2, 0x4)], false, .rw, 0x8001ffff, 0x0⟩,
  ⟨"RTBL_STN_COPY", 0x0D0018, [], false, .rw, 0x80000000, 0x0⟩,
  ⟨"RTBL_OVF_THRESH", 0x0D0020, [(2, 0x4)], false, .rw, 0x1ffff, 0x0⟩,
  ⟨"RTBL_TA_OP_CNT", 0x0D0100, [], true, .ro, 0x0, 0x0⟩,
  ⟨"RTBL_TA_DENIED_CNT", 0x0D0108, [], true, .ro, 0x0, 0x0⟩,
  ⟨"RTBL_PFX_USED", 0x0D0110, [(2, 0x4)], false, .ro, 0x0, 0x0⟩,
  ⟨"RTBL_LEV_LOST_CNT", 0x0D0118, [], true, .ro, 0x0, 0x0⟩,
  ⟨"RTBL_PFX_UPD_CNT", 0x0D0120, [], true, .ro, 0x0, 0x0⟩,
  ⟨"RTBL_ENTRIES", 0x0D1000, [(5, 0x100), (2, 0x4)], false, .ro, 0x0, 0x0⟩,
  ⟨"RTBL_OVF_USED", 0x0D1008, [(5, 0x100), (2, 0x4)], false, .ro, 0x0, 0x0⟩,
  ⟨"RTBL_DIGEST", 0x0D1010, [(5, 0x100), (2, 0x8)], true, .ro, 0x0, 0x0⟩]

/-- Register descriptors, part 4. -/
def regRows4 : List RegDesc := [
  ⟨"RTBL_LEARN_CNT", 0x0D1020, [(5, 0x100), (2, 0x8)], true, .ro, 0x0, 0x0⟩,
  ⟨"RTBL_AGED_CNT", 0x0D1030, [(5, 0x100), (2, 0x8)], true, .ro, 0x0, 0x0⟩,
  ⟨"RTBL_LEARN_FAIL_CNT", 0x0D1040, [(5, 0x100), (2, 0x8)], true, .ro, 0x0, 0x0⟩,
  ⟨"RTBL_DIVERGE_CNT", 0x0D1050, [(5, 0x100), (2, 0x8)], true, .ro, 0x0, 0x0⟩,
  ⟨"RTBL_PROMOTE_CNT", 0x0D1060, [(5, 0x100), (2, 0x8)], true, .ro, 0x0, 0x0⟩,
  ⟨"RTBL_MOVE_CNT", 0x0D1070, [(5, 0x100)], true, .ro, 0x0, 0x0⟩,
  ⟨"RTBL_COPY_IN_CNT", 0x0D1078, [(5, 0x100)], true, .ro, 0x0, 0x0⟩,
  ⟨"RTBL_COPY_LOST_CNT", 0x0D1080, [(5, 0x100)], true, .ro, 0x0, 0x0⟩,
  ⟨"RTBL_LEARN_QFULL_CNT", 0x0D1088, [(5, 0x100)], true, .ro, 0x0, 0x0⟩,
  ⟨"RTBL_COPY_LEVEL", 0x0D1090, [(5, 0x100)], false, .ro, 0x0, 0x0⟩,
  ⟨"RTBL_LEARN_LEVEL", 0x0D1094, [(5, 0x100)], false, .ro, 0x0, 0x0⟩,
  ⟨"CWAY_SHLD_CFG", 0x068000, [], false, .rw, 0x83ffff0f, 0x0⟩,
  ⟨"CWAY_SHLD_STATUS", 0x068004, [], false, .ro, 0x0, 0x0⟩,
  ⟨"CWAY_SHLD_FORCE", 0x068008, [], false, .wo, 0x0, 0x0⟩,
  ⟨"CWAY_SHLD_SPLIT", 0x06800C, [], false, .tw, 0x80001fff, 0x0⟩,
  ⟨"CWAY_SHLD_CMP_CNT", 0x068010, [], true, .ro, 0x0, 0x0⟩,
  ⟨"CWAY_SHLD_MATCH_CNT", 0x068018, [], true, .ro, 0x0, 0x0⟩,
  ⟨"CWAY_SHLD_MISMATCH_CNT", 0x068020, [], true, .ro, 0x0, 0x0⟩,
  ⟨"CWAY_SHLD_VOID_CNT", 0x068028, [], true, .ro, 0x0, 0x0⟩,
  ⟨"CWAY_SHLD_SKIP_CNT", 0x068030, [], true, .ro, 0x0, 0x0⟩,
  ⟨"CWAY_SHLD_NO_MAJ_CNT", 0x068038, [], true, .ro, 0x0, 0x0⟩,
  ⟨"CWAY_SHLD_NO_REPLAY_CNT", 0x068040, [], true, .ro, 0x0, 0x0⟩,
  ⟨"CWAY_SHLD_REPLAY_CNT", 0x068048, [], true, .ro, 0x0, 0x0⟩,
  ⟨"CWAY_SHLD_WINDOW_CNT", 0x068050, [], true, .ro, 0x0, 0x0⟩]

/-- Register descriptors, part 5. -/
def regRows5 : List RegDesc := [
  ⟨"CWAY_SHLD_LEARN_LOST_CNT", 0x068058, [], true, .ro, 0x0, 0x0⟩,
  ⟨"CWAY_SHLD_SUB_TIME", 0x068060, [], true, .ro, 0x0, 0x0⟩,
  ⟨"CWAY_SHLD_SUB_NS", 0x068068, [], false, .ro, 0x0, 0x0⟩,
  ⟨"CWAY_SHLD_CHARGE_CNT", 0x068080, [(5, 0x8)], true, .ro, 0x0, 0x0⟩,
  ⟨"CWAY_SHLD_LAST_CHARGE", 0x0680C0, [(5, 0x8)], true, .ro, 0x0, 0x0⟩,
  ⟨"CWAY_SHLD_MM_SIGNPOST", 0x068100, [(16, 0x4)], false, .ro, 0x0, 0x0⟩,
  ⟨"CWAY_SHLD_MM_DIGEST", 0x068140, [(3, 0x4)], false, .ro, 0x0, 0x0⟩,
  ⟨"CWAY_SHLD_MM_INFO", 0x06814C, [], false, .ro, 0x0, 0x0⟩,
  ⟨"CWAY_SHLD_MM_TIME", 0x068150, [], true, .ro, 0x0, 0x0⟩,
  ⟨"TM_CFG", 0x0E0000, [], false, .rw, 0xffff, 0x0⟩,
  ⟨"TM_IND_CTL", 0x0E0004, [], false, .rw, 0xfcffffff, 0x0⟩,
  ⟨"TM_IND_STATUS", 0x0E0008, [], false, .ro, 0x0, 0x0⟩,
  ⟨"TM_IND_REFUSED_CNT", 0x0E0010, [], true, .ro, 0x0, 0x0⟩,
  ⟨"TM_IND_DATA", 0x0E0040, [(32, 0x4)], false, .rw, 0xffffffff, 0x0⟩,
  ⟨"TM_DROP_CNT", 0x0E0100, [(16, 0x8)], true, .rc, 0x0, 0x0⟩,
  ⟨"TM_ENQ_CNT", 0x0E0180, [], true, .ro, 0x0, 0x0⟩,
  ⟨"TM_DEQ_CNT", 0x0E0188, [], true, .ro, 0x0, 0x0⟩,
  ⟨"TM_ECN_MARK_CNT", 0x0E0190, [], true, .ro, 0x0, 0x0⟩,
  ⟨"TM_TOLL_OP_CNT", 0x0E0198, [], true, .ro, 0x0, 0x0⟩,
  ⟨"TM_TOLL_DISABLED_CNT", 0x0E01A0, [], true, .ro, 0x0, 0x0⟩,
  ⟨"TM_TG_STEP_CNT", 0x0E01A8, [], true, .ro, 0x0, 0x0⟩,
  ⟨"TM_POOL_LIMIT", 0x0E0200, [(32, 0x4)], false, .rw, 0x3fffff, 0x0⟩,
  ⟨"TM_POOL_USED", 0x0E0280, [(32, 0x4)], false, .ro, 0x0, 0x0⟩,
  ⟨"TM_MIRROR_Q", 0x0E0300, [(16, 0x4)], false, .rw, 0x3ffff, 0x0⟩]

/-- Register descriptors, part 6. -/
def regRows6 : List RegDesc := [
  ⟨"TM_PORT_DEQ_PKT_CNT", 0x0E0400, [(16, 0x8)], true, .ro, 0x0, 0x0⟩,
  ⟨"TM_PORT_DEQ_BYTE_CNT", 0x0E0480, [(16, 0x8)], true, .ro, 0x0, 0x0⟩,
  ⟨"TM_PORT_STATE", 0x0E0500, [(16, 0x4)], false, .ro, 0x0, 0x0⟩,
  ⟨"TM_TG_CFG", 0x0E1000, [(8, 0x100)], false, .rw, 0xc000ffff, 0x0⟩,
  ⟨"TM_TG_STATUS", 0x0E1004, [(8, 0x100)], false, .ro, 0x0, 0x0⟩,
  ⟨"TM_TG_BASE", 0x0E1008, [(8, 0x100)], true, .ro, 0x0, 0x0⟩,
  ⟨"TM_TG_CYCLE", 0x0E1010, [(8, 0x100)], false, .ro, 0x0, 0x0⟩,
  ⟨"TM_TG_LEN", 0x0E1014, [(8, 0x100)], false, .ro, 0x0, 0x0⟩,
  ⟨"TM_TG_NEXT_BASE", 0x0E1018, [(8, 0x100)], true, .rw, 0xffffffffffffffff, 0x0⟩,
  ⟨"TM_TG_NEXT_CYCLE", 0x0E1020, [(8, 0x100)], false, .rw, 0x3fffffff, 0x0⟩,
  ⟨"TM_TG_NEXT_LEN", 0x0E1024, [(8, 0x100)], false, .rw, 0x7ff, 0x0⟩,
  ⟨"TM_TG_SWITCH", 0x0E1028, [(8, 0x100)], false, .wo, 0x0, 0x0⟩,
  ⟨"TM_TG_SWITCH_TIME", 0x0E1030, [(8, 0x100)], true, .ro, 0x0, 0x0⟩,
  ⟨"TM_TG_OVERSIZE_CNT", 0x0E1038, [(8, 0x100)], true, .ro, 0x0, 0x0⟩,
  ⟨"TM_TG_MAXOPEN", 0x0E1040, [(8, 0x100), (8, 0x4)], false, .ro, 0x0, 0x0⟩,
  ⟨"TM_TG_DEFER_CNT", 0x0E1060, [(8, 0x100)], true, .ro, 0x0, 0x0⟩,
  ⟨"LINE_PORT_OPT", 0x040000, [], false, .rw, 0x7, 0x0⟩,
  ⟨"LINE_MGMT_CFG", 0x040004, [], false, .rw, 0xc000000f, 0x0⟩,
  ⟨"LINE_MGMT_STATUS", 0x040008, [], false, .ro, 0x0, 0x0⟩,
  ⟨"LINE_FEC_THRESH", 0x04000C, [], false, .rw, 0xffffffff, 0x0⟩,
  ⟨"LINE_LANE_CFG", 0x040100, [(8, 0x4)], false, .rw, 0x3, 0x0⟩,
  ⟨"LINE_PORT_CFG", 0x041000, [(8, 0x200)], false, .rw, 0xf8003fff, 0x0⟩,
  ⟨"LINE_PORT_STATUS", 0x041004, [(8, 0x200)], false, .ro, 0x0, 0x0⟩,
  ⟨"LINE_PFC_THRESH", 0x041008, [(8, 0x200)], false, .rw, 0xffffffff, 0x0⟩]

/-- Register descriptors, part 7. -/
def regRows7 : List RegDesc := [
  ⟨"LINE_RX_PKT_CNT", 0x041010, [(8, 0x200)], true, .ro, 0x0, 0x0⟩,
  ⟨"LINE_RX_BYTE_CNT", 0x041018, [(8, 0x200)], true, .ro, 0x0, 0x0⟩,
  ⟨"LINE_TX_PKT_CNT", 0x041020, [(8, 0x200)], true, .ro, 0x0, 0x0⟩,
  ⟨"LINE_TX_BYTE_CNT", 0x041028, [(8, 0x200)], true, .ro, 0x0, 0x0⟩,
  ⟨"LINE_DROP_CNT", 0x041040, [(8, 0x200), (5, 0x8)], true, .ro, 0x0, 0x0⟩,
  ⟨"LINE_FEC_CORR_CNT", 0x041068, [(8, 0x200)], true, .ro, 0x0, 0x0⟩,
  ⟨"LINE_FEC_UNCORR_CNT", 0x041070, [(8, 0x200)], true, .ro, 0x0, 0x0⟩,
  ⟨"LINE_FEC_SYM_CNT", 0x041078, [(8, 0x200)], true, .ro, 0x0, 0x0⟩,
  ⟨"LINE_LINK_DOWN_CNT", 0x041080, [(8, 0x200)], true, .ro, 0x0, 0x0⟩,
  ⟨"LINE_PFC_RX_CNT", 0x041100, [(8, 0x200), (8, 0x8)], true, .ro, 0x0, 0x0⟩,
  ⟨"LINE_PFC_TX_CNT", 0x041140, [(8, 0x200), (8, 0x8)], true, .ro, 0x0, 0x0⟩,
  ⟨"LINE_PAUSE_RX_CNT", 0x041180, [(8, 0x200)], true, .ro, 0x0, 0x0⟩,
  ⟨"LINE_PAUSE_TX_CNT", 0x041188, [(8, 0x200)], true, .ro, 0x0, 0x0⟩,
  ⟨"TIME_NOW", 0x230000, [], true, .ro, 0x0, 0x0⟩,
  ⟨"TIME_INCR", 0x230008, [], true, .rw, 0xffffffffff, 0x0⟩,
  ⟨"TIME_SET", 0x230010, [], true, .rw, 0xffffffffffffffff, 0x0⟩,
  ⟨"TIME_OFFSET", 0x230018, [], true, .rw, 0xffffffffffffffff, 0x0⟩,
  ⟨"TIME_CTL", 0x230020, [], false, .wo, 0x0, 0x0⟩,
  ⟨"TIME_SLEW", 0x230024, [], false, .rw, 0x1fffff, 0x0⟩,
  ⟨"TIME_STEP_CNT", 0x230028, [], true, .ro, 0x0, 0x0⟩,
  ⟨"TIME_PPS_CFG", 0x230030, [], false, .rw, 0xffffffff, 0x0⟩,
  ⟨"TIME_PPS_IN_TS", 0x230038, [], true, .ro, 0x0, 0x0⟩,
  ⟨"TIME_TS_LOST_CNT", 0x230040, [], true, .ro, 0x0, 0x0⟩,
  ⟨"ENG_STATUS", 0x100000, [(136, 0x1000)], false, .tw, 0xc0000000, 0x0⟩]

/-- Register descriptors, part 8. -/
def regRows8 : List RegDesc := [
  ⟨"ENG_ORPHAN_LEVEL", 0x100004, [(136, 0x1000)], false, .ro, 0x0, 0x0⟩,
  ⟨"ENG_SLOT_TABLE", 0x100008, [(136, 0x1000)], true, .rw, 0xffffffffffffffff, 0x0⟩,
  ⟨"ENG_FAULT_INFO", 0x100010, [(136, 0x1000)], true, .ro, 0x0, 0x0⟩,
  ⟨"ENG_FAULT_TIME", 0x100018, [(136, 0x1000)], true, .ro, 0x0, 0x0⟩,
  ⟨"ENG_STALL_TIME", 0x100020, [(136, 0x1000)], true, .ro, 0x0, 0x0⟩,
  ⟨"ENG_ISSUE_CNT", 0x100028, [(136, 0x1000)], true, .ro, 0x0, 0x0⟩,
  ⟨"ENG_IDLE_CNT", 0x100030, [(136, 0x1000)], true, .ro, 0x0, 0x0⟩,
  ⟨"ENG_STALL_CNT", 0x100038, [(136, 0x1000)], true, .ro, 0x0, 0x0⟩,
  ⟨"ENG_ORPHAN_CNT", 0x100040, [(136, 0x1000)], true, .ro, 0x0, 0x0⟩,
  ⟨"ENG_ORPHAN_LOST_CNT", 0x100048, [(136, 0x1000)], true, .ro, 0x0, 0x0⟩,
  ⟨"ENG_PARTIAL_DISCARD_CNT", 0x100050, [(136, 0x1000)], true, .ro, 0x0, 0x0⟩,
  ⟨"ENG_FAULT_CNT", 0x100058, [(136, 0x1000)], true, .ro, 0x0, 0x0⟩,
  ⟨"ENG_ECC_CORR_CNT", 0x100060, [(136, 0x1000)], true, .ro, 0x0, 0x0⟩,
  ⟨"ENG_PKT_DROP_CNT", 0x100080, [(136, 0x1000), (16, 0x8)], true, .ro, 0x0, 0x0⟩,
  ⟨"ENG_CH_BIND", 0x100100, [(136, 0x1000), (32, 0x4)], false, .rw, 0xfc000000, 0x0⟩,
  ⟨"ENG_CH_LEVEL", 0x100180, [(136, 0x1000), (32, 0x4)], false, .ro, 0x0, 0x0⟩,
  ⟨"ENG_SREG", 0x100400, [(136, 0x1000), (32, 0x8)], true, .ro, 0x0, 0x0⟩,
  ⟨"ENG_PREG", 0x100800, [(136, 0x1000), (8, 0x100), (32, 0x8)], true, .ro, 0x0, 0x0⟩,
  ⟨"ENG_THR_STATUS", 0x100200, [(136, 0x1000), (8, 0x40)], false, .ro, 0x0, 0x0⟩,
  ⟨"ENG_THR_PC", 0x100204, [(136, 0x1000), (8, 0x40)], false, .ro, 0x0, 0x0⟩,
  ⟨"ENG_THR_ENTRY", 0x100208, [(136, 0x1000), (8, 0x40)], false, .rw, 0xbfff, 0x0⟩,
  ⟨"ENG_THR_INSTR_CNT", 0x100210, [(136, 0x1000), (8, 0x40)], true, .ro, 0x0, 0x0⟩,
  ⟨"ENG_THR_BLOCK_CNT", 0x100218, [(136, 0x1000), (8, 0x40)], true, .ro, 0x0, 0x0⟩,
  ⟨"ENG_THR_PKT_IN_CNT", 0x100220, [(136, 0x1000), (8, 0x40)], true, .ro, 0x0, 0x0⟩]

/-- Register descriptors, part 9. -/
def regRows9 : List RegDesc := [
  ⟨"ENG_THR_PKT_OUT_CNT", 0x100228, [(136, 0x1000), (8, 0x40)], true, .ro, 0x0, 0x0⟩,
  ⟨"ENG_STALL_SNAP", 0x100230, [(136, 0x1000), (8, 0x40)], true, .ro, 0x0, 0x0⟩,
  ⟨"JCT_ENG_RUN", 0x190000, [(5, 0x4)], false, .rw, 0xffffffff, 0x0⟩,
  ⟨"JCT_MSG_CNT", 0x190020, [], true, .ro, 0x0, 0x0⟩,
  ⟨"JCT_UNBOUND_CNT", 0x190028, [], true, .ro, 0x0, 0x0⟩,
  ⟨"JCT_STORE_USED", 0x190030, [], false, .ro, 0x0, 0x0⟩,
  ⟨"JCT_CLASS_CFG", 0x190100, [(64, 0x8)], true, .rw, 0xc0007fff001fffff, 0x0⟩,
  ⟨"JCT_CLASS_LEVEL", 0x190300, [(64, 0x4)], false, .ro, 0x0, 0x0⟩,
  ⟨"JCT_CLASS_DROP_CNT", 0x190400, [(64, 0x8)], true, .ro, 0x0, 0x0⟩,
  ⟨"JCT_CLASS_PKT_CNT", 0x190600, [(64, 0x8)], true, .ro, 0x0, 0x0⟩,
  ⟨"JCT_MEMBER", 0x191000, [(1024, 0x4)], false, .rw, 0x8000ff1f, 0x0⟩,
  ⟨"HIU_STRAPS", 0x010000, [], false, .ro, 0x0, 0x0⟩,
  ⟨"HIU_PF_MAP", 0x010004, [], false, .rw, 0xeeeeeeee, 0x0⟩,
  ⟨"HIU_REGWRITE_DISCARD_CNT", 0x010010, [], true, .ro, 0x0, 0x0⟩,
  ⟨"HIU_BAD_ACCESS_CNT", 0x010018, [], true, .ro, 0x0, 0x0⟩,
  ⟨"HIU_LINK_STATUS", 0x011000, [(4, 0x400)], false, .ro, 0x0, 0x0⟩,
  ⟨"HIU_LINK_CFG", 0x011004, [(4, 0x400)], false, .rw, 0x87000001, 0x0⟩,
  ⟨"HIU_TAGS_USED", 0x011008, [(4, 0x400)], false, .ro, 0x0, 0x0⟩,
  ⟨"HIU_TAGS_QUAR", 0x01100C, [(4, 0x400)], false, .ro, 0x0, 0x0⟩,
  ⟨"HIU_RD_REQ_CNT", 0x011010, [(4, 0x400)], true, .ro, 0x0, 0x0⟩,
  ⟨"HIU_WR_REQ_CNT", 0x011018, [(4, 0x400)], true, .ro, 0x0, 0x0⟩,
  ⟨"HIU_RD_BYTE_CNT", 0x011020, [(4, 0x400)], true, .ro, 0x0, 0x0⟩,
  ⟨"HIU_WR_BYTE_CNT", 0x011028, [(4, 0x400)], true, .ro, 0x0, 0x0⟩,
  ⟨"HIU_TIMEOUT_CNT", 0x011030, [(4, 0x400)], true, .ro, 0x0, 0x0⟩]

/-- Register descriptors, part 10. -/
def regRows10 : List RegDesc := [
  ⟨"HIU_LATE_CPL_CNT", 0x011038, [(4, 0x400)], true, .ro, 0x0, 0x0⟩,
  ⟨"HIU_UR_CNT", 0x011040, [(4, 0x400)], true, .ro, 0x0, 0x0⟩,
  ⟨"HIU_BM_DISCARD_CNT", 0x011048, [(4, 0x400)], true, .ro, 0x0, 0x0⟩,
  ⟨"HIU_LINK_DOWN_CNT", 0x011050, [(4, 0x400)], true, .ro, 0x0, 0x0⟩,
  ⟨"HIU_RECOVERY_CNT", 0x011058, [(4, 0x400)], true, .ro, 0x0, 0x0⟩,
  ⟨"HIU_INBOUND_DISCARD_CNT", 0x011060, [(4, 0x400)], true, .ro, 0x0, 0x0⟩,
  ⟨"HIU_IDE_FAIL_CNT", 0x011068, [(4, 0x400)], true, .ro, 0x0, 0x0⟩,
  ⟨"HIU_ATC_INVAL_CNT", 0x011070, [(4, 0x400)], true, .ro, 0x0, 0x0⟩,
  ⟨"HIU_LAST_DOWN_TIME", 0x011078, [(4, 0x400)], true, .ro, 0x0, 0x0⟩,
  ⟨"HIU_PEER_WIN_SHADOW", 0x014000, [(8, 0x40), (8, 0x8)], true, .rw, 0xe000001ffff00000, 0x0⟩,
  ⟨"HIU_PEER_WIN_ACTIVE", 0x014200, [(8, 0x40), (8, 0x8)], true, .ro, 0x0, 0x0⟩,
  ⟨"HIU_WINDOW_COMMIT", 0x014400, [], false, .wo, 0x0, 0x0⟩,
  ⟨"HIU_WIN_STATUS", 0x014404, [], false, .ro, 0x0, 0x0⟩,
  ⟨"HIU_WIN_SWITCH_CNT", 0x014408, [], true, .ro, 0x0, 0x0⟩,
  ⟨"HIU_FN_STATE", 0x018000, [(4104, 0x4)], false, .ro, 0x0, 0x0⟩,
  ⟨"FNM_CFG", 0x020000, [], false, .rw, 0x3fff, 0x0⟩,
  ⟨"FNM_PF_CFG", 0x020008, [(8, 0x4)], false, .rw, 0x7ff, 0x0⟩,
  ⟨"FNM_IND_CTL", 0x020040, [], false, .rw, 0xc0001fff, 0x0⟩,
  ⟨"FNM_IND_STATUS", 0x020044, [], false, .ro, 0x0, 0x0⟩,
  ⟨"FNM_IND_DATA", 0x020080, [(16, 0x4)], false, .rw, 0xffffffff, 0x0⟩,
  ⟨"FNM_POOL_TOTAL", 0x020100, [(11, 0x4)], false, .ro, 0x0, 0x0⟩,
  ⟨"FNM_POOL_FREE", 0x020140, [(11, 0x4)], false, .ro, 0x0, 0x0⟩,
  ⟨"FNM_CREATE_CNT", 0x020180, [], true, .ro, 0x0, 0x0⟩,
  ⟨"FNM_REMOVE_CNT", 0x020188, [], true, .ro, 0x0, 0x0⟩]

/-- Register descriptors, part 11. -/
def regRows11 : List RegDesc := [
  ⟨"FNM_REFUSED_CNT", 0x020190, [], true, .ro, 0x0, 0x0⟩,
  ⟨"FNM_FOREIGN_DB_CNT", 0x020198, [], true, .ro, 0x0, 0x0⟩,
  ⟨"FNM_QUIESCE_ABORT_CNT", 0x0201A0, [], true, .ro, 0x0, 0x0⟩,
  ⟨"FNM_INST_STATE", 0x021000, [(4104, 0x4)], false, .ro, 0x0, 0x0⟩,
  ⟨"RING_IND_CTL", 0x030000, [], false, .rw, 0xf00fffff, 0x0⟩,
  ⟨"RING_IND_STATUS", 0x030004, [], false, .ro, 0x0, 0x0⟩,
  ⟨"RING_CTX_CACHED", 0x030008, [], false, .ro, 0x0, 0x0⟩,
  ⟨"RING_BACKLOG_USED", 0x03000C, [], false, .ro, 0x0, 0x0⟩,
  ⟨"RING_DB_CNT", 0x030010, [], true, .ro, 0x0, 0x0⟩,
  ⟨"RING_DB_BAD_CNT", 0x030018, [], true, .ro, 0x0, 0x0⟩,
  ⟨"RING_DB_MERGED_CNT", 0x030020, [], true, .ro, 0x0, 0x0⟩,
  ⟨"RING_HINT_MISMATCH_CNT", 0x030028, [], true, .ro, 0x0, 0x0⟩,
  ⟨"RING_INDEX_BAD_CNT", 0x030030, [], true, .ro, 0x0, 0x0⟩,
  ⟨"RING_DESC_CNT", 0x030038, [], true, .ro, 0x0, 0x0⟩,
  ⟨"RING_CPL_CNT", 0x030040, [], true, .ro, 0x0, 0x0⟩,
  ⟨"RING_MALFORMED_CNT", 0x030048, [], true, .ro, 0x0, 0x0⟩,
  ⟨"RING_BACKLOG_CNT", 0x030050, [], true, .ro, 0x0, 0x0⟩,
  ⟨"RING_RX_NOBUF_CNT", 0x030058, [], true, .ro, 0x0, 0x0⟩,
  ⟨"RING_RX_UNBOUND_CNT", 0x030060, [], true, .ro, 0x0, 0x0⟩,
  ⟨"RING_ABORT_CNT", 0x030068, [], true, .ro, 0x0, 0x0⟩,
  ⟨"RING_ABORT_MISSED_CNT", 0x030070, [], true, .ro, 0x0, 0x0⟩,
  ⟨"RING_CTX_MISS_CNT", 0x030078, [], true, .ro, 0x0, 0x0⟩,
  ⟨"RING_CTX_WAIT_CNT", 0x030080, [], true, .ro, 0x0, 0x0⟩,
  ⟨"RING_IND_DATA", 0x030100, [(32, 0x4)], false, .rw, 0xffffffff, 0x0⟩]

/-- Register descriptors, part 12. -/
def regRows12 : List RegDesc := [
  ⟨"RTE_CFG", 0x1A0000, [], false, .rw, 0xffffffff, 0x0⟩,
  ⟨"RTE_RETRY_CFG", 0x1A0004, [], false, .rw, 0xffffffff, 0x0⟩,
  ⟨"RTE_CC_CFG", 0x1A0008, [], false, .rw, 0x8000ffff, 0x0⟩,
  ⟨"RTE_GSI_CFG", 0x1A000C, [], false, .rw, 0x8003ffff, 0x0⟩,
  ⟨"RTE_IND_CTL", 0x1A0010, [], false, .rw, 0xf81fffff, 0x0⟩,
  ⟨"RTE_IND_STATUS", 0x1A0014, [], false, .ro, 0x0, 0x0⟩,
  ⟨"RTE_QP_USED", 0x1A0018, [], false, .ro, 0x0, 0x0⟩,
  ⟨"RTE_CTX_CACHED", 0x1A001C, [], false, .ro, 0x0, 0x0⟩,
  ⟨"RTE_LAYBY_LEVEL", 0x1A0020, [], false, .ro, 0x0, 0x0⟩,
  ⟨"RTE_TRACKERS_USED", 0x1A0024, [], false, .ro, 0x0, 0x0⟩,
  ⟨"RTE_MR_USED", 0x1A0028, [], false, .ro, 0x0, 0x0⟩,
  ⟨"RTE_RX_PKT_CNT", 0x1A0040, [], true, .ro, 0x0, 0x0⟩,
  ⟨"RTE_TX_PKT_CNT", 0x1A0048, [], true, .ro, 0x0, 0x0⟩,
  ⟨"RTE_RETX_PKT_CNT", 0x1A0050, [], true, .ro, 0x0, 0x0⟩,
  ⟨"RTE_TIMEOUT_CNT", 0x1A0058, [], true, .ro, 0x0, 0x0⟩,
  ⟨"RTE_NAK_TX_CNT", 0x1A0060, [], true, .ro, 0x0, 0x0⟩,
  ⟨"RTE_NAK_RX_CNT", 0x1A0068, [], true, .ro, 0x0, 0x0⟩,
  ⟨"RTE_CNP_TX_CNT", 0x1A0070, [], true, .ro, 0x0, 0x0⟩,
  ⟨"RTE_CNP_RX_CNT", 0x1A0078, [], true, .ro, 0x0, 0x0⟩,
  ⟨"RTE_CTX_MISS_CNT", 0x1A0080, [], true, .ro, 0x0, 0x0⟩,
  ⟨"RTE_CTX_WRITEBACK_CNT", 0x1A0088, [], true, .ro, 0x0, 0x0⟩,
  ⟨"RTE_LAYBY_WAIT_CNT", 0x1A0090, [], true, .ro, 0x0, 0x0⟩,
  ⟨"RTE_TRACKER_DONE_CNT", 0x1A0098, [], true, .ro, 0x0, 0x0⟩,
  ⟨"RTE_TRACKER_AGED_CNT", 0x1A00A0, [], true, .ro, 0x0, 0x0⟩]

/-- Register descriptors, part 13. -/
def regRows13 : List RegDesc := [
  ⟨"RTE_DUP_PKT_CNT", 0x1A00A8, [], true, .ro, 0x0, 0x0⟩,
  ⟨"RTE_IND_DATA", 0x1A0100, [(64, 0x4)], false, .ro, 0x0, 0x0⟩,
  ⟨"RTE_DROP_CNT", 0x1A0200, [(16, 0x8)], true, .ro, 0x0, 0x0⟩,
  ⟨"SCE_CFG", 0x1B0000, [], false, .rw, 0xffffff00, 0x0⟩,
  ⟨"SCE_IND_CTL", 0x1B0004, [], false, .rw, 0xf0ffffff, 0x0⟩,
  ⟨"SCE_IND_STATUS", 0x1B0008, [], false, .ro, 0x0, 0x0⟩,
  ⟨"SCE_SLOTS_USED", 0x1B000C, [], false, .ro, 0x0, 0x0⟩,
  ⟨"SCE_CONN_UP", 0x1B0010, [], false, .ro, 0x0, 0x0⟩,
  ⟨"SCE_CMD_CNT", 0x1B0020, [], true, .ro, 0x0, 0x0⟩,
  ⟨"SCE_CMD_ERR_CNT", 0x1B0028, [], true, .ro, 0x0, 0x0⟩,
  ⟨"SCE_READ_BYTE_CNT", 0x1B0030, [], true, .ro, 0x0, 0x0⟩,
  ⟨"SCE_WRITE_BYTE_CNT", 0x1B0038, [], true, .ro, 0x0, 0x0⟩,
  ⟨"SCE_SPLIT_CNT", 0x1B0040, [], true, .ro, 0x0, 0x0⟩,
  ⟨"SCE_FAILOVER_CNT", 0x1B0048, [], true, .ro, 0x0, 0x0⟩,
  ⟨"SCE_TIMEOUT_CNT", 0x1B0050, [], true, .ro, 0x0, 0x0⟩,
  ⟨"SCE_SLOT_WAIT_CNT", 0x1B0058, [], true, .ro, 0x0, 0x0⟩,
  ⟨"SCE_BAD_DB_CNT", 0x1B0060, [], true, .ro, 0x0, 0x0⟩,
  ⟨"SCE_PS_HOLD_CNT", 0x1B0068, [], true, .ro, 0x0, 0x0⟩,
  ⟨"SCE_IND_DATA", 0x1B0100, [(64, 0x4)], false, .ro, 0x0, 0x0⟩,
  ⟨"SCE_DROP_CNT", 0x1B0200, [(16, 0x8)], true, .ro, 0x0, 0x0⟩,
  ⟨"CIPH_SHARE", 0x1C0000, [], false, .rw, 0x7fff, 0x0⟩,
  ⟨"CIPH_CORE_STATUS", 0x1C0004, [], false, .ro, 0x0, 0x0⟩,
  ⟨"CIPH_SOFT_THRESH", 0x1C0008, [], true, .rw, 0xffffffffffffffff, 0x0⟩,
  ⟨"CIPH_IND_CTL", 0x1C0010, [], false, .rw, 0xc00fffff, 0x0⟩]

/-- Register descriptors, part 14. -/
def regRows14 : List RegDesc := [
  ⟨"CIPH_IND_STATUS", 0x1C0014, [], false, .ro, 0x0, 0x0⟩,
  ⟨"CIPH_ENC_PKT_CNT", 0x1C0020, [], true, .ro, 0x0, 0x0⟩,
  ⟨"CIPH_DEC_PKT_CNT", 0x1C0028, [], true, .ro, 0x0, 0x0⟩,
  ⟨"CIPH_ENC_BYTE_CNT", 0x1C0030, [], true, .ro, 0x0, 0x0⟩,
  ⟨"CIPH_DEC_BYTE_CNT", 0x1C0038, [], true, .ro, 0x0, 0x0⟩,
  ⟨"CIPH_DS_OP_CNT", 0x1C0040, [], true, .ro, 0x0, 0x0⟩,
  ⟨"CIPH_DS_IN_BYTE_CNT", 0x1C0048, [], true, .ro, 0x0, 0x0⟩,
  ⟨"CIPH_DS_OUT_BYTE_CNT", 0x1C0050, [], true, .ro, 0x0, 0x0⟩,
  ⟨"CIPH_IND_DATA", 0x1C0100, [(16, 0x4)], false, .ro, 0x0, 0x0⟩,
  ⟨"CIPH_DROP_CNT", 0x1C0200, [(16, 0x8)], true, .ro, 0x0, 0x0⟩,
  ⟨"CIPH_MACSEC_CFG", 0x1C1000, [(8, 0x100)], false, .rw, 0xf0000000, 0x0⟩,
  ⟨"CIPH_MACSEC_TX", 0x1C1008, [(8, 0x100)], true, .ro, 0x0, 0x0⟩,
  ⟨"CIPH_MACSEC_UNPROT_CNT", 0x1C1010, [(8, 0x100)], true, .ro, 0x0, 0x0⟩,
  ⟨"CIPH_MACSEC_DROP_CNT", 0x1C1040, [(8, 0x100), (8, 0x8)], true, .ro, 0x0, 0x0⟩,
  ⟨"PBUF_SPILL_CFG", 0x1D0000, [], false, .rw, 0xff0fffff, 0x0⟩,
  ⟨"PBUF_SPILL_POOLS", 0x1D0004, [], false, .rw, 0xffffffff, 0x0⟩,
  ⟨"PBUF_STAGE_CFG", 0x1D0008, [], false, .rw, 0xfffff, 0x0⟩,
  ⟨"PBUF_INGRESS_RESERVE", 0x1D000C, [], false, .rw, 0xfffff, 0x0⟩,
  ⟨"PBUF_FREE", 0x1D0010, [], false, .ro, 0x0, 0x0⟩,
  ⟨"PBUF_SPILL_USED", 0x1D0014, [], false, .ro, 0x0, 0x0⟩,
  ⟨"PBUF_SCRUB_CFG", 0x1D0018, [], false, .rw, 0xffff, 0x0⟩,
  ⟨"PBUF_ROWS", 0x1D001C, [], false, .tw, 0xffffffff, 0x0⟩,
  ⟨"PBUF_SPILL_CNT", 0x1D0020, [], true, .ro, 0x0, 0x0⟩,
  ⟨"PBUF_STAGE_CNT", 0x1D0028, [], true, .ro, 0x0, 0x0⟩]

/-- Register descriptors, part 15. -/
def regRows15 : List RegDesc := [
  ⟨"PBUF_SPILL_LIMIT_CNT", 0x1D0030, [], true, .ro, 0x0, 0x0⟩,
  ⟨"PBUF_WAIT_CNT", 0x1D0038, [], true, .ro, 0x0, 0x0⟩,
  ⟨"PBUF_ALLOC_FAIL_CNT", 0x1D0040, [], true, .ro, 0x0, 0x0⟩,
  ⟨"PBUF_ECC_CORR_CNT", 0x1D0048, [], true, .ro, 0x0, 0x0⟩,
  ⟨"PBUF_ECC_UNCORR_CNT", 0x1D0050, [], true, .ro, 0x0, 0x0⟩,
  ⟨"PBUF_DROP_CNT", 0x1D0080, [(16, 0x8)], true, .ro, 0x0, 0x0⟩,
  ⟨"PBUF_BANK_CORR_CNT", 0x1D0100, [(32, 0x8)], true, .ro, 0x0, 0x0⟩,
  ⟨"HBMC_PATROL_CFG", 0x1E0000, [], false, .rw, 0x800000ff, 0x0⟩,
  ⟨"HBMC_ARB_CFG", 0x1E0004, [], false, .rw, 0xffffff, 0x0⟩,
  ⟨"HBMC_LANE_THRESH", 0x1E0008, [], false, .rw, 0xffffffff, 0x0⟩,
  ⟨"HBMC_PATROL_POS", 0x1E0010, [], true, .ro, 0x0, 0x0⟩,
  ⟨"HBMC_PATROL_PASS_CNT", 0x1E0018, [], true, .ro, 0x0, 0x0⟩,
  ⟨"HBMC_LAST_UNCORR_ADDR", 0x1E0020, [], true, .ro, 0x0, 0x0⟩,
  ⟨"HBMC_LAST_UNCORR_TIME", 0x1E0028, [], true, .ro, 0x0, 0x0⟩,
  ⟨"HBMC_CORR_CNT", 0x1E0040, [(3, 0x8)], true, .ro, 0x0, 0x0⟩,
  ⟨"HBMC_UNCORR_CNT", 0x1E0060, [(3, 0x8)], true, .ro, 0x0, 0x0⟩,
  ⟨"HBMC_OWNER_UNCORR_CNT", 0x1E0080, [(16, 0x8)], true, .ro, 0x0, 0x0⟩,
  ⟨"HBMC_CLASS_BYTE_CNT", 0x1E0100, [(4, 0x8)], true, .ro, 0x0, 0x0⟩,
  ⟨"HBMC_REPAIR", 0x1E0200, [(3, 0x4)], false, .tw, 0xffffffff, 0x0⟩,
  ⟨"CLKRST_PLL_STATUS", 0x1F0000, [], false, .rw1c, 0x0, 0x40000000⟩,
  ⟨"CLKRST_CLK_STATUS", 0x1F0004, [], false, .ro, 0x0, 0x0⟩,
  ⟨"CLKRST_RESET_CAUSE", 0x1F0008, [], false, .ro, 0x0, 0x0⟩,
  ⟨"CLKRST_RESET_REQ", 0x1F000C, [], false, .wo, 0x0, 0x0⟩,
  ⟨"CLKRST_BLOCK_RESET", 0x1F0010, [], false, .tw, 0x1fffffff, 0x0⟩]

/-- Register descriptors, part 16. -/
def regRows16 : List RegDesc := [
  ⟨"CLKRST_FREQ_MEAS", 0x1F0020, [(6, 0x4)], false, .ro, 0x0, 0x0⟩,
  ⟨"CLKRST_WARM_CNT", 0x1F0040, [], true, .ro, 0x0, 0x0⟩,
  ⟨"CLKRST_UNLOCK_CNT", 0x1F0048, [], true, .ro, 0x0, 0x0⟩,
  ⟨"CLKRST_DEVIATION_CNT", 0x1F0050, [], true, .ro, 0x0, 0x0⟩,
  ⟨"CLKRST_EVT_MERGE_CNT", 0x1F0058, [], true, .ro, 0x0, 0x0⟩,
  ⟨"CLKRST_XING_HOLD_CNT", 0x1F0060, [], true, .ro, 0x0, 0x0⟩,
  ⟨"CLKRST_LAST_WARM_TIME", 0x1F0068, [], true, .ro, 0x0, 0x0⟩,
  ⟨"CLKRST_FLUSH_CNT", 0x1F0100, [(29, 0x8)], true, .ro, 0x0, 0x0⟩,
  ⟨"CLKRST_BLOCK_DROP_CNT", 0x1F0200, [(29, 0x8)], true, .ro, 0x0, 0x0⟩,
  ⟨"TETHER_ID", 0x200000, [], false, .tw, 0xffff, 0x0⟩,
  ⟨"TETHER_STATE", 0x200004, [], false, .tw, 0xff000000, 0x0⟩,
  ⟨"TETHER_THERM_CFG", 0x200008, [], false, .tw, 0xffffffff, 0x0⟩,
  ⟨"TETHER_THERM_STATUS", 0x20000C, [], false, .tw, 0xdf00ffff, 0x0⟩,
  ⟨"TETHER_RAIL_CFG", 0x200010, [], false, .tw, 0xffff, 0x0⟩,
  ⟨"TETHER_WDT_CFG", 0x200014, [], false, .tw, 0xffffffff, 0x0⟩,
  ⟨"TETHER_TRIAL", 0x200018, [], false, .tw, 0xffffffff, 0x0⟩,
  ⟨"TETHER_MAP_INFO", 0x20001C, [], false, .tw, 0xffffffff, 0x0⟩,
  ⟨"TETHER_ST_RESULT", 0x200020, [], false, .tw, 0xffffffff, 0x0⟩,
  ⟨"TETHER_ST_TIME", 0x200024, [], false, .tw, 0xffff, 0x0⟩,
  ⟨"TETHER_TEMP", 0x200040, [(19, 0x4)], false, .tw, 0xffff, 0x0⟩,
  ⟨"TETHER_RAIL_MV", 0x2000C0, [(8, 0x4)], false, .tw, 0xffff, 0x0⟩,
  ⟨"TETHER_THROTTLE_CNT", 0x200100, [], true, .tw, 0xffffffffffffffff, 0x0⟩,
  ⟨"TETHER_FW_HANG_CNT", 0x200108, [], true, .tw, 0xffffffffffffffff, 0x0⟩,
  ⟨"TETHER_TRIAL_EXPIRE_CNT", 0x200110, [], true, .tw, 0xffffffffffffffff, 0x0⟩]

/-- Register descriptors, part 17. -/
def regRows17 : List RegDesc := [
  ⟨"TETHER_RESTART_CNT", 0x200118, [], true, .tw, 0xffffffffffffffff, 0x0⟩,
  ⟨"TETHER_MAP_LOST_CNT", 0x200120, [], true, .tw, 0xffffffffffffffff, 0x0⟩,
  ⟨"TETHER_HANG_CNT", 0x200200, [(24, 0x8)], true, .tw, 0xffffffffffffffff, 0x0⟩,
  ⟨"TETHER_MAP", 0x204000, [(1280, 0x8)], true, .tw, 0xffffffffffffffff, 0x0⟩,
  ⟨"BOOT_STATUS", 0x250000, [], false, .ro, 0x0, 0x0⟩,
  ⟨"BOOT_FUSE", 0x250004, [], false, .ro, 0x0, 0x0⟩,
  ⟨"BOOT_TRIAL", 0x250008, [], false, .rw, 0x40000000, 0x0⟩,
  ⟨"BOOT_LEDGER", 0x25000C, [], false, .ro, 0x0, 0x0⟩,
  ⟨"BOOT_CTL_RELEASE", 0x250010, [], false, .rw, 0xe, 0x0⟩,
  ⟨"BOOT_CC_RESTART", 0x250014, [], false, .wo, 0x0, 0x0⟩,
  ⟨"BOOT_MEAS_LOCK", 0x250018, [], false, .ro, 0x0, 0x0⟩,
  ⟨"BOOT_EXT_CTL", 0x25001C, [], false, .wo, 0x0, 0x0⟩,
  ⟨"BOOT_ORDER_USED", 0x250020, [], false, .ro, 0x0, 0x0⟩,
  ⟨"BOOT_TIME_MS", 0x250024, [], false, .ro, 0x0, 0x0⟩,
  ⟨"BOOT_EXT_DATA", 0x250040, [(12, 0x4)], false, .rw, 0xffffffff, 0x0⟩,
  ⟨"BOOT_SRC_RESULT", 0x250080, [(4, 0x4)], false, .ro, 0x0, 0x0⟩,
  ⟨"BOOT_REFUSED_CNT", 0x2500A0, [], true, .ro, 0x0, 0x0⟩,
  ⟨"BOOT_LEDGER_BAD_CNT", 0x2500A8, [], true, .ro, 0x0, 0x0⟩,
  ⟨"BOOT_EXT_REFUSED_CNT", 0x2500B0, [], true, .ro, 0x0, 0x0⟩,
  ⟨"BOOT_LOG_LOST_CNT", 0x2500B8, [], true, .ro, 0x0, 0x0⟩,
  ⟨"BOOT_MEAS", 0x250400, [(16, 0x30), (12, 0x4)], false, .ro, 0x0, 0x0⟩,
  ⟨"MLST_STATUS", 0x210000, [], false, .ro, 0x0, 0x0⟩,
  ⟨"MLST_OP_SECONDS", 0x210008, [], true, .ro, 0x0, 0x0⟩,
  ⟨"MLST_HOURS", 0x210010, [], false, .ro, 0x0, 0x0⟩]

/-- Register descriptors, part 18. -/
def regRows18 : List RegDesc := [
  ⟨"MLST_POWER_CYCLES", 0x210014, [], false, .ro, 0x0, 0x0⟩,
  ⟨"MLST_NEXT_SEQ", 0x210018, [], false, .ro, 0x0, 0x0⟩,
  ⟨"MLST_FIRST_SEQ", 0x21001C, [], false, .ro, 0x0, 0x0⟩,
  ⟨"MLST_LAST_CLEAR_HOUR", 0x210020, [], false, .ro, 0x0, 0x0⟩,
  ⟨"MLST_MERGED_CNT", 0x210028, [], true, .ro, 0x0, 0x0⟩,
  ⟨"MLST_WRAP_CNT", 0x210030, [], true, .ro, 0x0, 0x0⟩,
  ⟨"MLST_CLEAR_CNT", 0x210038, [], true, .ro, 0x0, 0x0⟩,
  ⟨"MLST_FLASH_ERR_CNT", 0x210040, [], true, .ro, 0x0, 0x0⟩,
  ⟨"MLST_COLD_CNT", 0x210080, [(4, 0x8)], true, .ro, 0x0, 0x0⟩,
  ⟨"MLST_EXTRA", 0x210100, [(64, 0x4)], false, .rw, 0xffffffff, 0x0⟩,
  ⟨"MLST_EXTREME", 0x210200, [(32, 0x10), (4, 0x4)], false, .ro, 0x0, 0x0⟩,
  ⟨"MLST_HIST", 0x210800, [(8, 0x100), (32, 0x8)], true, .ro, 0x0, 0x0⟩,
  ⟨"SND_STATUS", 0x220000, [], false, .ro, 0x0, 0x0⟩,
  ⟨"SND_REC_CNT", 0x220010, [], true, .ro, 0x0, 0x0⟩,
  ⟨"SND_MATCH_CNT", 0x220018, [], true, .ro, 0x0, 0x0⟩,
  ⟨"SND_FABRIC_LOST_CNT", 0x220020, [], true, .ro, 0x0, 0x0⟩,
  ⟨"SND_SINK_CFG", 0x220100, [(8, 0x40)], false, .rw, 0xfffeffff, 0x0⟩,
  ⟨"SND_SINK_RATE", 0x220104, [(8, 0x40)], false, .rw, 0xffffff, 0x0⟩,
  ⟨"SND_SINK_RING", 0x220108, [(8, 0x40)], false, .rw, 0xfffff, 0x0⟩,
  ⟨"SND_SINK_BUF", 0x220110, [(8, 0x40)], true, .rw, 0xffffffffffffffff, 0x0⟩,
  ⟨"SND_SINK_REC_CNT", 0x220120, [(8, 0x40)], true, .ro, 0x0, 0x0⟩,
  ⟨"SND_SINK_LOST_CNT", 0x220128, [(8, 0x40)], true, .ro, 0x0, 0x0⟩,
  ⟨"SND_SINK_SEQ", 0x220130, [(8, 0x40)], false, .ro, 0x0, 0x0⟩,
  ⟨"SND_FILTER", 0x221000, [(8, 0x80), (8, 0x10)], false, .rw, 0xffffffff, 0x0⟩,
  ⟨"SND_FILTER", 0x221004, [(8, 0x80), (8, 0x10)], false, .rw, 0x183ff, 0x0⟩,
  ⟨"SND_FILTER", 0x221008, [(8, 0x80), (8, 0x10), (2, 0x4)], false, .rw, 0x3ffff, 0x0⟩]

/-- Register descriptors, part 19. -/
def regRows19 : List RegDesc := [
  ⟨"SND_CNT_LIST", 0x222000, [(8, 0x100), (64, 0x4)], false, .rw, 0x80ffffff, 0x0⟩,
  ⟨"SND_PORT", 0x228000, [(1024, 0x20), (4, 0x8)], true, .ro, 0x0, 0x0⟩,
  ⟨"TETHER_POWER", 0x200300, [], false, .tw, 0xffffffff, 0x0⟩,
  ⟨"TETHER_ENERGY", 0x200308, [], true, .tw, 0xffffffffffffffff, 0x0⟩,
  ⟨"TETHER_POWER_GROUP", 0x200340, [(11, 0x4)], false, .tw, 0xffffffff, 0x0⟩]

/-- Every register of the device register space. -/
def regRows : List RegDesc :=
  regRows1 ++ regRows2 ++ regRows3 ++ regRows4 ++ regRows5 ++ regRows6 ++ regRows7 ++ regRows8 ++ regRows9 ++ regRows10 ++ regRows11 ++ regRows12 ++ regRows13 ++ regRows14 ++ regRows15 ++ regRows16 ++ regRows17 ++ regRows18 ++ regRows19

/-- The index offset `o` within the nested arrays `dims`, each element `w` bytes: the offset of the element's first byte
and the byte within it, or none where no element covers it. -/
def regIndex (w : Nat) : List (Nat × Nat) → Nat → Option (Nat × Nat)
  | [], o => if o < w then some (0, o) else none
  | (c, s) :: r, o =>
    if o / s < c then (regIndex w r (o % s)).map (fun p => (o / s * s + p.1, p.2)) else none

/-- The register that covers device offset `a`: its descriptor, its own offset, and the byte of it that `a` names. -/
def regFind (a : Nat) : List RegDesc → Option (RegDesc × Nat × Nat)
  | [] => none
  | d :: r =>
    if a < d.base then regFind a r
    else match regIndex (if d.wide then 8 else 4) d.dims (a - d.base) with
      | some (e, b) => some (d, d.base + e, b)
      | none => regFind a r

/-- Non-zero reset values, part 1: first offset, count, stride, value. -/
def resetRows1 : List (Nat × Nat × Nat × Nat) := [
  (R.IDENT_PART, 1, 4, 0x6178016),
  (R.IDENT_ENG, 1, 4, 0x88000000),
  (R.IDENT_CWAY, 1, 4, 0xff),
  (R.PARSE_TPID, 1, 4, 0x9100),
  (R.PARSE_L4_PORT 0, 1, 4, 0x800012b5),
  (R.PARSE_L4_PORT 0 + 4, 1, 4, 0x900017c1),
  (R.PARSE_L4_PORT 0 + 8, 1, 4, 0xa00012b7),
  (R.PARSE_L4_PORT 0 + 12, 1, 4, 0xb00012b8),
  (R.PARSE_LANE_MAP 0 + 4, 1, 4, 0x1),
  (R.PARSE_LANE_MAP 0 + 8, 1, 4, 0x2),
  (R.PARSE_LANE_MAP 0 + 12, 1, 4, 0x3),
  (R.PARSE_LANE_MAP 0 + 20, 1, 4, 0x1),
  (R.PARSE_LANE_MAP 0 + 24, 1, 4, 0x2),
  (R.PARSE_LANE_MAP 0 + 28, 1, 4, 0x3),
  (R.PARSE_LANE_MAP 0 + 36, 1, 4, 0x1),
  (R.PARSE_LANE_MAP 0 + 40, 1, 4, 0x2),
  (R.PARSE_LANE_MAP 0 + 44, 1, 4, 0x3),
  (R.PARSE_LANE_MAP 0 + 52, 1, 4, 0x1),
  (R.PARSE_LANE_MAP 0 + 56, 1, 4, 0x2),
  (R.PARSE_LANE_MAP 0 + 60, 1, 4, 0x3),
  (R.PARSE_FOLLOW_CFG, 1, 4, 0x401e14),
  (R.PARSE_MAL_ACT 0, 1, 4, 0x40),
  (R.PARSE_MAL_ACT 0 + 4, 1, 4, 0x40),
  (R.PARSE_MAL_ACT 0 + 16, 1, 4, 0x40),
  (R.PARSE_MAL_ACT 0 + 20, 1, 4, 0x40),
  (R.PARSE_MAL_ACT 0 + 24, 1, 4, 0x40),
  (R.PARSE_MAL_ACT 0 + 32, 1, 4, 0x40),
  (R.PARSE_MAL_ACT 0 + 36, 1, 4, 0x40),
  (R.PARSE_MAL_ACT 0 + 40, 1, 4, 0x40),
  (R.PARSE_MAL_ACT 0 + 44, 1, 4, 0x40)]

/-- Non-zero reset values, part 2: first offset, count, stride, value. -/
def resetRows2 : List (Nat × Nat × Nat × Nat) := [
  (R.PARSE_MAL_ACT 0 + 56, 1, 4, 0x40),
  (R.PARSE_MAL_ACT 0 + 60, 1, 4, 0x40),
  (R.RTBL_AGE_TICK, 1, 4, 0x3e8),
  (R.RTBL_AGE_LIMIT 0, 2, 4, 0x8000012c),
  (R.RTBL_OVF_THRESH 0, 1, 4, 0xea60),
  (R.RTBL_OVF_THRESH 0 + 4, 1, 4, 0x1d4c),
  (R.CWAY_SHLD_CFG, 1, 4, 0x800a0a0f),
  (R.TM_CFG, 1, 4, 0x400),
  (R.TM_IND_STATUS, 1, 4, 0x80000000),
  (R.TM_TG_CFG 0, 8, 256, 0x606),
  (R.LINE_PORT_OPT, 1, 4, 0x2),
  (R.LINE_FEC_THRESH, 1, 4, 0xf4240),
  (R.LINE_PORT_CFG 0, 8, 512, 0x40002580),
  (R.LINE_PFC_THRESH 0, 8, 512, 0xffffffff),
  (R.TIME_INCR, 1, 4, 0x280000000),
  (R.TIME_PPS_CFG, 1, 4, 0x5f5e100),
  (R.ENG_SLOT_TABLE 0, 136, 4096, 0x7654321076543210),
  (R.HIU_PF_MAP, 1, 4, 0x8),
  (R.HIU_LINK_CFG 0, 4, 1024, 0x6000000),
  (R.FNM_CFG, 1, 4, 0x64),
  (R.FNM_IND_STATUS, 1, 4, 0x80000000),
  (R.RING_IND_STATUS, 1, 4, 0x80000000),
  (R.RTE_CFG, 1, 4, 0x100403e8),
  (R.RTE_RETRY_CFG, 1, 4, 0x80014),
  (R.RTE_CC_CFG, 1, 4, 0x80000032),
  (R.RTE_IND_STATUS, 1, 4, 0x80000000),
  (R.SCE_CFG, 1, 4, 0x1e3c0200),
  (R.SCE_IND_STATUS, 1, 4, 0x80000000),
  (R.CIPH_SHARE, 1, 4, 0x908),
  (R.CIPH_SOFT_THRESH, 1, 4, 0xff000000)]

/-- Non-zero reset values, part 3: first offset, count, stride, value. -/
def resetRows3 : List (Nat × Nat × Nat × Nat) := [
  (R.CIPH_IND_STATUS, 1, 4, 0x80000000),
  (R.CIPH_MACSEC_CFG 0, 8, 256, 0x50000000),
  (R.PBUF_SPILL_CFG, 1, 4, 0xa8010000),
  (R.PBUF_STAGE_CFG, 1, 4, 0x8000),
  (R.PBUF_INGRESS_RESERVE, 1, 4, 0x10000),
  (R.PBUF_SCRUB_CFG, 1, 4, 0xa),
  (R.HBMC_PATROL_CFG, 1, 4, 0x80000018),
  (R.HBMC_ARB_CFG, 1, 4, 0x40301),
  (R.HBMC_LANE_THRESH, 1, 4, 0x2710),
  (R.TETHER_THERM_CFG, 1, 4, 0x73696405),
  (R.TETHER_RAIL_CFG, 1, 4, 0x603),
  (R.TETHER_WDT_CFG, 1, 4, 0x1903e83c),
  (R.TETHER_TRIAL, 1, 4, 0x78),
  (R.MLST_EXTREME 0 0, 28, 16, 0x7fff8000)]

def resetRows : List (Nat × Nat × Nat × Nat) := resetRows1 ++ resetRows2 ++ resetRows3

/-- The value a row gives offset `a`, if it covers it. -/
def resetRowHit (a : Nat) (r : Nat × Nat × Nat × Nat) : Bool :=
  decide (r.1 ≤ a) && decide (a < r.1 + r.2.1 * r.2.2.1) && (a - r.1) % r.2.2.1 == 0

/-- The reset value of the register at device offset `a` (the Reset columns of the register tables). -/
def resetVal (a : Nat) : DWord :=
  match resetRows.find? (resetRowHit a) with
  | some r => BitVec.ofNat 64 r.2.2.2
  | none => 0

end Sys2Proof.Machine
end

