-- ==== Sys2Proof/Machine/TypesPipe.lean ====
section
/-!
DEFINITION. Machine/TypesPipe.lean: the records of the main road: packets, event and counter crossings, clocks, parser,
carriageways, route tables, the Shoulder, the traffic manager, line ports and Milepost time.
-/
namespace Sys2Proof.Machine

/-- What the parser passes to the follow unit beside the Signpost (R51): the addresses and protocol of the network header
that carries the fragment information, the identification, the offset in bytes, the more-fragments flag, and the payload
bytes of the fragment. -/
structure FragInfo where
  v6 : Bool
  src : BitVec 128
  dst : BitVec 128
  proto : Byte
  ident : Word
  offset : Nat
  more : Bool
  payload : Nat
  deriving DecidableEq, Repr

/-- A packet held in the device: its buffer handle, its frame without the frame check sequence (in a packet buffer that
holds it until it leaves), its Signpost, the function that sent it, the port that accounts for it (R25), the time it
entered, the line port × 8 + priority on whose flow control its cells count (R166), and what later steps need of its
history. -/
structure Pkt where
  handle : Nat
  bytes : Bytes
  sp : Signpost
  func : Func
  ingress : Nat
  entered : DWord
  linePort : Option Nat
  frag : Option FragInfo
  reparse : Bool
  /-- the ring and operation number whose completion waits for this frame's terminal (R306, Table 13-8) -/
  origin : Option (Nat × Nat)
  /-- timestamp request of the transmit operation: 0 none, 1 two-step, 2 one-step (R173) -/
  tsReq : BitVec 2
  /-- the security association an EGRESS CIPHER operation named (R383) -/
  egressSa : Option Nat
  /-- the packet-buffer cells it occupies, and where they are: 0 on the die, 1 spilled to HBM, 2 staging (R393) -/
  place : BitVec 2
  deriving DecidableEq, Repr

/-- Where an event crossing's handshake stands (R415): idle, request toggled and not yet delivered, or delivered with the
acknowledge not yet seen by the source. -/
inductive XPhase where
  | idle | requested | acked
  deriving DecidableEq, Repr

/-- One event crossing: its phase, its merge flag and the latest occurrence it carries. -/
structure EvXing where
  phase : XPhase
  merge : Bool
  detail : DWord
  time : DWord
  deriving DecidableEq, Repr

def EvXing.idle : EvXing := ⟨.idle, false, 0, 0⟩

/-- Who waits behind one interrupt vector: an event source or a ring's notification. -/
inductive HeldBy where
  | source (n : Nat)
  | ring (r : Nat)
  | nvmeCq (f q : Nat)
  deriving DecidableEq, Repr

/-- An interrupt message held behind a mask or a cleared Bus Master Enable (R36, R245). -/
structure HeldMsg where
  func : Nat
  vector : Nat
  src : HeldBy
  deriving DecidableEq, Repr

/-- The event block and the crossings into it: the event crossings by source number, the pending deltas of counter
crossings by the register they count into (R414), the words held in word crossings by source and destination block
(R413) with the words that have arrived, oldest first, EVT_PEND by source, the two event queues, oldest first, the
messages held, and the sources whose entry in the Tether's queue came by their route and not by the fixed wiring alone. -/
structure EvtState where
  xing : SMap EvXing
  delta : SMap DWord
  words : SMap (List DWord)
  arrived : SMap (List DWord)
  pend : SMap Bool
  fwQueue : List Nat
  tetherQueue : List Nat
  held : List HeldMsg
  routed : SMap Bool
  deriving DecidableEq, Repr

/-- The device reset states of Table 18-3. -/
inductive DevState where
  | coldHeld | tetherStart | selfTest | pllLock | boot | running | warmHeld
  deriving DecidableEq, Repr

/-- The code CLKRST_CLK_STATUS.DEV_STATE shows (Table 18-8). -/
def DevState.code : DevState → BitVec 3
  | .coldHeld => 0 | .tetherStart => 1 | .selfTest => 2 | .pllLock => 3 | .boot => 4 | .running => 5 | .warmHeld => 6

/-- Clocks and resets (Tables 18-7 to 18-9): the device state, the PLL lock and its time, the running clocks, the
references, how many deviating measurements in a row each clock has had (R406), the two reset causes, the OBJECT of a loss of
lock that has not ended, and CLKRST_BLOCK_DROP_CNT of each block held in reset as it stood when the reset began. -/
structure ClkState where
  dev : DevState
  lock : Bool
  lockUs : BitVec 16
  running : BitVec 6
  lineRef : Bool
  hostRef : BitVec 2
  tetherOsc : Bool
  streak : SMap Nat
  warmCause : BitVec 4
  coldCause : BitVec 4
  unlockObj : Option Nat
  blockDrops : SMap DWord
  /-- whether every supply rail is valid, and the SYS_RST_N input -/
  suppliesValid : Bool
  sysRstN : Bool
  deriving DecidableEq, Repr

/-- The states of a follow entry (Table 2-5). -/
inductive FollowSt where
  | free | holding | following
  deriving DecidableEq, Repr

/-- One entry of a fragment follow table (Table 2-6) with the fragments it holds, oldest first. -/
structure FollowEntry where
  st : FollowSt
  v6 : Bool
  src : BitVec 128
  dst : BitVec 128
  proto : Byte
  ident : Word
  dropVerdict : Bool
  held : List Pkt
  srcL4 : BitVec 16
  dstL4 : BitVec 16
  bytesSeen : Nat
  total : Nat
  time : DWord
  created : DWord
  deriving DecidableEq, Repr

def FollowEntry.empty : FollowEntry := ⟨.free, false, 0, 0, 0, 0, false, [], 0, 0, 0, 0, 0, 0⟩

/-- The parser: the packets waiting at each of the five parse units, the follow entries by slot × 65,536 + set × 8 + way,
for each lane map index the instance whose earlier packets it waits for with the packets held (R50), the next buffer
handle, and which of units 0 and 1 takes the next line frame (Table 2-1). -/
structure ParseState where
  input : SMap (List Pkt)
  follow : SMap FollowEntry
  hold : SMap (Option (Nat × List Pkt))
  nextHandle : Nat
  lineTurn : Bool
  deriving DecidableEq, Repr

/-- The states of a generation slot (Table 3-7). -/
inductive GenSt where
  | free | loading | live | draining
  deriving DecidableEq, Repr

def GenSt.code : GenSt → BitVec 2
  | .free => 0 | .loading => 1 | .live => 2 | .draining => 3

/-- One generation slot: state, waymark and in-flight count (R76, R77). -/
structure GenSlot where
  st : GenSt
  waymark : BitVec 4
  inflight : DWord
  deriving DecidableEq, Repr

/-- One policy classifier entry (Tables 3-5 and 3-6). -/
structure TcamEntry where
  key : BitVec 512
  mask : BitVec 512
  control : DWord
  deriving DecidableEq, Repr

def TcamEntry.empty : TcamEntry := ⟨0, 0, 0⟩

/-- The roles of CWAY_INST_STATUS (Table 3-15). -/
inductive CwayRole where
  | active | standing | serving | suspect
  deriving DecidableEq, Repr

def CwayRole.code : CwayRole → BitVec 2
  | .active => 0 | .standing => 1 | .serving => 2 | .suspect => 3

/-- A pass in a carriageway, as its input retention buffer holds it (R83): the packet with its Signpost as it entered, the
time of entry, whether a shadow window has copied it (R119), and whether a replicated table was written while it ran
(R123). -/
structure Held where
  pkt : Pkt
  time : DWord
  copied : Bool
  void : Bool
  deriving DecidableEq, Repr

/-- One carriageway instance: role and slot, the packets dispatched to it, the recirculations and returns that come before
them (R82), and the passes its input retention buffer holds, oldest first (R83). -/
structure CwayInst where
  role : CwayRole
  slot : Nat
  input : List Pkt
  recirc : List Pkt
  retain : List Held
  deriving DecidableEq, Repr

/-- The carriageways: the two generation slots, stage programs by g × 24 + s, key templates by (g × 64 + t) × 8 + k, the
policy classifier, its hit counts by instance × 16,384 + index, the entries whose stored parity fails in an instance, the
action memory, and the five instances. -/
structure CwayState where
  gen0 : GenSlot
  gen1 : GenSlot
  stage : SMap DWord
  tpl : SMap Word
  tcam : SMap TcamEntry
  tcamHits : SMap DWord
  tcamBad : List (Nat × Nat)
  action : SMap (BitVec 128)
  insts : SMap CwayInst
  deriving DecidableEq, Repr

/-- One exact-match entry without its bucket word (Table 4-3). -/
structure EmEntry where
  key : BitVec 320
  control : Word
  stamp : BitVec 16
  result : BitVec 128
  deriving DecidableEq, Repr

def EmEntry.empty : EmEntry := ⟨0, 0, 0, 0⟩

/-- A bucket: four slots, DETOUR and VERSION (Table 4-3, BUCKET_WORD). -/
structure Bucket where
  s0 : EmEntry
  s1 : EmEntry
  s2 : EmEntry
  s3 : EmEntry
  detour : Bool
  version : BitVec 15
  deriving DecidableEq, Repr

def Bucket.empty : Bucket := ⟨.empty, .empty, .empty, .empty, false, 0⟩

/-- An overflow entry with the order in which it entered the store (R95). -/
structure OvfEntry where
  e : EmEntry
  seq : Nat
  deriving DecidableEq, Repr

def OvfEntry.empty : OvfEntry := ⟨.empty, 0⟩

/-- A learning request or a station copy (R100, R108): table 0 flow or 1 station. A copy knows the change it is of, by the instance
that made it and the number of the change, until that change is counted as a divergence (R107). -/
structure LearnReq where
  table : Nat
  key : BitVec 320
  action : BitVec 17
  result : BitVec 128
  lock : Bool
  src : Option (Nat × Nat)
  deriving DecidableEq, Repr

/-- One prefix entry (Table 4-7). -/
structure PfxEntry where
  addr : BitVec 128
  len : Nat
  control : Word
  result : DWord
  deriving DecidableEq, Repr

/-- The route tables. Buckets are keyed by (instance × 2 + table) × 4,194,304 + bucket and overflow entries by
(instance × 2 + table) × 65,536 + index; queues and sweeper positions by instance, sweepers by instance × 2 + table.
`region` names the instance whose HBM region and overflow stores an instance reaches (R127). Learning-event rings are by
instance. Prefix sets are kept in the order READ_INDEX lists them. `changeSeq` numbers the changes that are copied. -/
structure RtblState where
  bucket : SMap Bucket
  ovf : SMap OvfEntry
  ovfSeq : Nat
  region : SMap Nat
  learnQ : SMap (List LearnReq)
  copyQ : SMap (List LearnReq)
  sweep : SMap Nat
  tenant : SMap (BitVec 128)
  port : SMap (BitVec 256)
  nexthop : SMap (BitVec 256)
  pfx4 : List PfxEntry
  pfx6 : List PfxEntry
  pairs : SMap (DWord × DWord)
  levRing : SMap (Option Nat)
  changeSeq : Nat
  deriving DecidableEq, Repr

/-- The Shoulder states of Table 5-1. -/
inductive ShldSt where
  | standing | shadowing | substituting | serving | retired
  deriving DecidableEq, Repr

def ShldSt.code : ShldSt → BitVec 3
  | .standing => 0 | .shadowing => 1 | .substituting => 2 | .serving => 3 | .retired => 4

/-- One echo of a lookup of KIND 1, 2, 6 or 7 (R120). -/
structure Echo where
  keyCrc : Word
  hit : Bool
  action : BitVec 17
  result : BitVec 256
  deriving DecidableEq, Repr

/-- A copied pass: the packet as it entered, the shadowed instance, its echoes, its toll record (gate index and colour)
and its INLINE record (SA index and CARRY[3]), the active instance's digest, whether the pass ran during a table write
(R123), and, once the Shoulder has run it, the Shoulder's digest, the time of the mismatch and its number. -/
structure ShadowCopy where
  pkt : Pkt
  inst : Nat
  echoes : List Echo
  tolls : List (Nat × BitVec 2)
  inlines : List (Nat × Word)
  digest : Word
  shoulder : Word
  void : Bool
  seen : DWord
  no : Nat
  deriving DecidableEq, Repr

/-- The Shoulder: its state, the slot of the next window, the slot of the open window, the target and count that
CWAY_SHLD_STATUS shows, the copy store, the mismatches waiting for their replay, the times of each instance's charges of the
latest second, and the number of mismatches so far. -/
structure ShldState where
  st : ShldSt
  nextSlot : Nat
  window : Option Nat
  target : Nat
  replayed : Nat
  copies : List ShadowCopy
  replays : List ShadowCopy
  charges : SMap (List DWord)
  mmNo : Nat
  deriving DecidableEq, Repr

/-- A packet in a leaf queue with the time of its admission (Table 6-6, HEAD_TIME). -/
structure QPkt where
  pkt : Pkt
  time : DWord
  deriving DecidableEq, Repr

/-- The counts of a leaf queue (Table 6-6, KIND 2). -/
structure LeafCnt where
  enqP : DWord
  enqB : DWord
  deqP : DWord
  deqB : DWord
  dropP : DWord
  dropB : DWord
  marked : DWord
  lastDrop : DWord
  deriving DecidableEq, Repr

def LeafCnt.zero : LeafCnt := ⟨0, 0, 0, 0, 0, 0, 0, 0⟩

/-- The four rate values of a node in their register units (R139). -/
structure Rates where
  cir : BitVec 24
  pir : BitVec 24
  cbs : BitVec 16
  pbs : BitVec 16
  deriving DecidableEq, Repr

/-- A scheduling node (Table 6-7): CONTROL, the rates as last written and as in force (R140), the two signed levels, the
weights word, and its two DWRR deficits, committed and excess (R136). -/
structure TmNode where
  control : Word
  written : Rates
  inForce : Rates
  cLevel : Int
  pLevel : Int
  weights : Word
  defC : Nat
  defE : Nat
  deriving DecidableEq, Repr

/-- A toll gate (Table 6-8): CONTROL, its rates and bursts, the two levels in units of 1/64,000 byte so that every refill
is exact (R147), the full time of its latest metering, and its counts. -/
structure Toll where
  enable : Bool
  aware : Bool
  cir : BitVec 24
  pir : BitVec 24
  cbs : BitVec 24
  pbs : BitVec 24
  tc : Nat
  tp : Nat
  last : DWord
  greenP : DWord
  greenB : DWord
  yellowP : DWord
  yellowB : DWord
  redP : DWord
  redB : DWord
  deriving DecidableEq, Repr

def Toll.zero : Toll := ⟨false, false, 0, 0, 0, 0, 0, 0, 0, 0, 0, 0, 0, 0, 0⟩

/-- The time gates of one line port (R152, R156): the active bank, the time S and values of a pending switch, the active
base, cycle and length, the entry now running and its gates, and MAXOPEN of each class. -/
structure TimeGate where
  bank : Bool
  pending : Option DWord
  pendBase : DWord
  pendCycle : Word
  pendLen : Nat
  base : DWord
  cycle : Word
  len : Nat
  entry : Nat
  gates : Byte
  /-- ENABLE and GUARD as they stand since the latest entry boundary -/
  cfg : Word
  maxOpen : List Word
  deriving DecidableEq, Repr

def TimeGate.reset : TimeGate := ⟨false, none, 0, 0, 0, 0, 0, 0, 0, 0xFF, 0, []⟩

/-- A drain requested by TM_DRAIN (Table 12-12): its node, the command that waits for it, and the packets sent meanwhile. -/
structure Drain where
  kind : Nat
  node : Nat
  ch : Nat
  seq : Nat
  sent : Nat
  deriving DecidableEq, Repr

/-- The traffic manager: leaf configuration, contents and counts by leaf queue, nodes by 0 + subscriber, 65,536 + service,
81,920 + port node, toll gates, gate control lists by p × 2,048 + bank × 1,024 + e, the time gates by line port, the child
whose turn it is below each node, plus 1, by node × 32 + round × 8 + class, the DWRR deficits of leaf queues (R137), and the
drains in progress. -/
structure TmState where
  leafCfg : SMap (BitVec 128)
  leafQ : SMap (List QPkt)
  leafCnt : SMap LeafCnt
  node : SMap TmNode
  toll : SMap Toll
  gcl : SMap DWord
  gate : SMap TimeGate
  turn : SMap Nat
  leafDef : SMap Nat
  drains : List Drain
  /-- packets the TM has taken in but not yet tested for admission, oldest first, a mirror copy marked true -/
  input : List (Pkt × Bool)
  deriving DecidableEq, Repr

/-- The link states of a line port (Table 7-2). -/
inductive LinkSt where
  | disabled | training | aligning | up
  deriving DecidableEq, Repr

def LinkSt.code : LinkSt → BitVec 2
  | .disabled => 0 | .training => 1 | .aligning => 2 | .up => 3

/-- A line port: link state, FEC_DEGRADED, TRAIN_TRIES, whether alignment is lost while the port is still UP (R168), the
pause quanta left for each class (R165) and the priorities with XOFF asserted (R166). -/
structure LinePort where
  st : LinkSt
  fecDegraded : Bool
  tries : Byte
  alignLost : Bool
  paused : List Nat
  xoff : Byte
  deriving DecidableEq, Repr

def LinePort.reset : LinePort := ⟨.disabled, false, 0, false, [0, 0, 0, 0, 0, 0, 0, 0], 0⟩

/-- The line ports, the management link, the cells held per port and priority (R166), and Milepost time: the count with its 32-bit fraction, the slew still to run in 2⁻³² ns. -/
structure LineState where
  port : SMap LinePort
  mgmtUp : Bool
  heldCells : SMap Nat
  now : BitVec 96
  slew : Int
  deriving DecidableEq, Repr

end Sys2Proof.Machine
end

