-- ==== Sys2Proof/Machine/TypesEng.lean ====
section
/-!
DEFINITION. Machine/TypesEng.lean: the records of the Path Engines and the Junction (chapters 8 and 9 of the spec).
-/
namespace Sys2Proof.Machine

/-- The thread states of Table 8-3. -/
inductive ThrSt where
  | unloaded | stopped | ready | blockedRead | blockedWrite | blockedMem | ended | retired
  deriving DecidableEq, Repr

def ThrSt.code : ThrSt → BitVec 3
  | .unloaded => 0 | .stopped => 1 | .ready => 2 | .blockedRead => 3 | .blockedWrite => 4 | .blockedMem => 5
  | .ended => 6 | .retired => 7

/-- A live thread is READY or blocked (R181). -/
def ThrSt.live : ThrSt → Bool
  | .ready | .blockedRead | .blockedWrite | .blockedMem => true
  | _ => false

def ThrSt.blocked : ThrSt → Bool
  | .blockedRead | .blockedWrite | .blockedMem => true
  | _ => false

/-- A committed message: its words still unread, how many it had, and the packet whose handle the Junction keeps beside
it (R216). -/
structure Msg where
  words : List DWord
  total : Nat
  pkt : Option Pkt
  deriving DecidableEq, Repr

/-- A message in the orphan queue: its tag word while unread, and the message (Table 8-6). -/
structure OrphMsg where
  tag : Option DWord
  msg : Msg
  deriving DecidableEq, Repr

/-- A channel: its committed messages, oldest first, and a change of binding that waits for a message boundary (R192). -/
structure Chan where
  msgs : List Msg
  rebind : Option Word
  deriving DecidableEq, Repr

def Chan.empty : Chan := ⟨[], none⟩

/-- An asynchronous request (Table 9-11) until its reply: function code, local address of the reply, the reply's data and
status as the request met them when it issued, the HBM address, and KIND, instance, key and NOTOUCH of a lookup. -/
structure EngReq where
  fn : Nat
  laddr : Nat
  data : Bytes
  status : Status
  addr : Nat
  kind : Nat
  inst : Nat
  key : Bytes
  notouch : Bool
  deriving DecidableEq, Repr

/-- One request tag of a thread: the request outstanding on it, its done bit and its status (R211). -/
structure EngTag where
  req : Option EngReq
  done : Bool
  status : Status
  deriving DecidableEq, Repr

def EngTag.idle : EngTag := ⟨none, false, 0⟩

/-- What ends a thread's wait (R182): a word in a channel; room for `n` words in channel `c` of engine `e`; the Junction taking
its previous message; a free request tag; the reply to a tag of a mask; the reply to every tag outstanding. -/
inductive Await where
  | nothing | word
  | room (e c n : Nat)
  | junction | tag
  | mask (m : DWord)
  | all
  deriving DecidableEq, Repr

/-- A write of shared register `reg` by a thread whose result cycles have not passed: the thread itself reads it already, the
others once `left` is 0 (R202). -/
structure LateWrite where
  thr : Nat
  reg : Nat
  left : Nat
  value : DWord
  deriving DecidableEq, Repr

/-- A hardware thread: state, program counter, staging area (one optional word per index) with its open target (R183,
R217), the 16 packet slots (R208), the 8 tags, TS, the channel it is blocked on, since when and what it awaits, and whether it
has begun since it was last started from its entry. -/
structure Thread where
  st : ThrSt
  pc : BitVec 14
  staged : SMap (Option DWord)
  target : Option (BitVec 13)
  slots : SMap (Option Pkt)
  tags : SMap EngTag
  ts : DWord
  blockedCh : Nat
  blockedSince : DWord
  awaits : Await
  started : Bool
  deriving DecidableEq, Repr

def Thread.reset : Thread := ⟨.unloaded, 0, [], none, [], [], 0, 0, 0, .nothing, false⟩

/-- A message the Junction carries: the engine and thread that committed it, the physical engine and channel it goes to,
and the message. -/
structure JMsg where
  fromEng : Nat
  fromThr : Nat
  toEng : Nat
  toCh : Nat
  msg : Msg
  deriving DecidableEq, Repr

/-- The Path Engines and the Junction. Threads are keyed by engine × 8 + thread, private registers by
(engine × 8 + thread) × 32 + k, shared registers and channels by engine × 32 + k, instructions by engine × 16,384 + pc,
local data bytes by engine × 262,144 + address. `role` is ENG_STATUS.ROLE, `armed` whether an engine's stall detector is
armed (R194), `logical` the physical engine of each logical engine of the bundle, `badImem` and
`badDmem` the instructions and 8-byte words whose parity or ECC fails, and `faults` the times of each engine's faults of
code 6 or 7 (R195). `ptr` is an engine's issue pointer, `slots` the slot table in effect since the pointer last wrapped (R179,
R180), and `late` its shared-register writes still to become visible, oldest first. -/
structure EngState where
  role : SMap (BitVec 2)
  run : SMap Bool
  thread : SMap Thread
  preg : SMap DWord
  sreg : SMap DWord
  chan : SMap Chan
  imem : SMap Word
  dmem : SMap Byte
  badImem : List Nat
  badDmem : List Nat
  orphan : SMap (List OrphMsg)
  armed : SMap Bool
  faults : SMap (List Nat)
  ptr : SMap Nat
  slots : SMap DWord
  late : SMap (List LateWrite)
  logical : List Nat
  classQ : SMap (List (Pkt × Nat))
  classTurn : SMap Nat
  jct : List JMsg
  fwInbox : List (List DWord)
  deriving DecidableEq, Repr

end Sys2Proof.Machine
end

