-- ==== Sys2Proof/Machine/TypesHost.lean ====
section
/-!
DEFINITION. Machine/TypesHost.lean: the records of the host side: links, functions, instances, Kite lines, firmware and
rings (chapters 10 to 13 of the spec).
-/
namespace Sys2Proof.Machine

/-- The host link states of Table 10-10. -/
inductive HLinkSt where
  | absent | detect | training | l0 | l0p | l1 | recovery | reset
  deriving DecidableEq, Repr

def HLinkSt.code : HLinkSt → BitVec 3
  | .absent => 0 | .detect => 1 | .training => 2 | .l0 => 3 | .l0p => 4 | .l1 => 5 | .recovery => 6 | .reset => 7

/-- One host link (Table 10-10), with the width it trained at, its tag width in bits as the partner allows (R228), and the L1
substate it is in, 1 for L1.1 and 2 for L1.2 (R249). -/
structure HLink where
  st : HLinkSt
  speed : BitVec 3
  width : BitVec 5
  full : BitVec 5
  flit : Bool
  dlUp : Bool
  retrains : Byte
  perst : Bool
  tagBits : Nat
  l1sub : BitVec 2
  deriving DecidableEq, Repr

def HLink.reset : HLink := ⟨.reset, 0, 0, 0, false, false, 0, false, 14, 0⟩

/-- One MSI-X table entry (R236). -/
structure MsixEntry where
  addr : DWord
  data : Word
  masked : Bool
  deriving DecidableEq, Repr

def MsixEntry.reset : MsixEntry := ⟨0, 0, true⟩

/-- What configuration space and the interrupt hardware keep for one function (Table 10-2, R234 to R241, R481). `flr` is
HIU_FN_STATE.FLR with `flrAt` its time, `portReset` tells a port reset from an FLR, and `cfgRw` holds the configuration
registers that are only kept, by their place in CfgReg.key. -/
structure HFn where
  bme : Bool
  mse : Bool
  intxDisable : Bool
  msiEnable : Bool
  msiCount : Nat
  msiMask : Word
  msiPend : Word
  msixEnable : Bool
  msixFnMask : Bool
  msixTable : SMap MsixEntry
  msixPend : SMap Bool
  flr : Bool
  portReset : Bool
  flrAt : DWord
  dstate : BitVec 3
  pmeEn : Bool
  pmeStatus : Bool
  cto : BitVec 4
  relaxed : Bool
  maxRead : Nat
  maxPayload : Nat
  ats : Bool
  pasid : Bool
  vfEnable : Bool
  numVfs : Nat
  aerUncorr : Word
  aerCorr : Word
  aerHeader : BitVec 128
  intxAsserted : Bool
  intxCount : Nat
  dbHeld : DWord
  cfgRw : SMap Word
  deriving DecidableEq, Repr

def HFn.reset : HFn :=
  ⟨false, false, false, false, 1, 0, 0, false, false, [], [], false, false, 0, 0, false, false, 0, true, 512, 128,
    false, false, false, 0, 0, 0, 0, false, 0, 0, []⟩

/-- The work that made a host read request, as the failing of the request has to name it (R230): the index read of a ring,
the data of an operation of a ring, the block of a command, or nothing any more. -/
inductive DmaOwner where
  | indexRead (ring : Nat)
  | descriptor (ring op : Nat)
  | block (chan : Nat) (seq : BitVec 4)
  | context (qp : Nat)
  | gone
  deriving DecidableEq, Repr

/-- A host read in progress: the function and PASID it is made with, the work it serves, and the address and bytes of what
has not yet been asked for. -/
structure HRead where
  func : Nat
  pasid : Option (BitVec 20)
  owner : DmaOwner
  addr : DWord
  left : Nat
  deriving DecidableEq, Repr

/-- A tag of a host link: the bytes its request asks for, the read it belongs to as it goes on after it, and, once it has
timed out, the time until which it is held out of use (R232). -/
structure HTag where
  link : Nat
  tag : Nat
  bytes : Nat
  req : HRead
  quarUntil : Option DWord
  deriving DecidableEq, Repr

/-- A cached translation (R245): the host port whose cache holds it, whose it is, the page and its translation, and whether it
gives write permission. -/
structure AtcEntry where
  port : Nat
  func : Nat
  pasid : Option (BitVec 20)
  page : BitVec 52
  phys : BitVec 52
  write : Bool
  deriving DecidableEq, Repr

/-- A DOE mailbox (R248): the Busy and Error bits, the object collected, and the answer waiting. -/
structure Doe where
  error : Bool
  response : List Word
  deriving DecidableEq, Repr

/-- The HIU: straps as sampled, links, functions by FUNC, outstanding and quarantined tags, the reads that wait for a tag, the windows' BUSY and REFUSED
bits, the peer regions (base and bytes) by PF, translation cache, IDE streams by link × 4 + stream (0 none, 1 secure,
2 insecure), their keys with initialisation vectors and the keys in use, by stream × 16 + the key's place (R247), DOE mailboxes, the PF map as each link latched it at its latest port reset,
and the links whose requests a PME_Turn_Off has stopped. -/
structure HiuState where
  hostSplit : BitVec 2
  perstFull : Bool
  mgrSel : BitVec 3
  link : SMap HLink
  fn : SMap HFn
  tags : List HTag
  waitRead : List HRead
  winBusy : Bool
  winRefused : Bool
  peer : SMap (Nat × Nat)
  atc : List AtcEntry
  ide : SMap Nat
  ideKey : SMap (BitVec 320)
  ideGo : SMap Bool
  doe : SMap Doe
  pfMap : Word
  turnOff : List Nat
  deriving DecidableEq, Repr

/-- The instance states of Table 11-3. -/
inductive InstSt where
  | absent | created | active | quiescing | quiesced | removing | detached
  deriving DecidableEq, Repr

def InstSt.code : InstSt → BitVec 3
  | .absent => 0 | .created => 1 | .active => 2 | .quiescing => 3 | .quiesced => 4 | .removing => 5 | .detached => 6

/-- The allocation record of Table 11-5, and the first of its vectors in the pool, which the record does not show. -/
structure Alloc where
  ringBase : Nat
  ringCount : Nat
  vectors : Nat
  vecBase : Nat
  portId : Nat
  hostNode : Nat
  serviceCount : Nat
  serviceBase : Nat
  subBase : Nat
  subCount : Nat
  tollBase : Nat
  tollCount : Nat
  tenantBase : Nat
  tenantCount : Nat
  qpQuota : Nat
  nvmeIoq : Nat
  engThreads : Nat
  engClasses : DWord
  tableGrant : Word
  deriving DecidableEq, Repr

def Alloc.none : Alloc := ⟨0, 0, 0, 0, 0, 0, 0, 0, 0, 0, 0, 0, 0, 0, 0, 0, 0, 0, 0⟩

/-- One instance: state, persona, allocation, the operations outstanding when a quiesce began, those it aborted, the leaf
queue enables kept for resume (R261), whether the quiesce belongs to an instance reset, when a removal began, and the command that waits for it
(channel and sequence). -/
structure Inst where
  st : InstSt
  persona : Nat
  alloc : Alloc
  atQuiesce : Nat
  aborted : Nat
  savedEnable : List Nat
  resetting : Bool
  since : DWord
  waiter : Option (Nat × Nat)
  deriving DecidableEq, Repr

def Inst.absent : Inst := ⟨.absent, 0, .none, 0, 0, [], false, 0, none⟩

/-- The firmware states of Table 12-14. -/
inductive FwSt where
  | absent | booting | recovery | starting | running | maintenance
  deriving DecidableEq, Repr

def FwSt.code : FwSt → BitVec 3
  | .absent => 0 | .booting => 1 | .recovery => 2 | .starting => 3 | .running => 4 | .maintenance => 5

/-- One Kite line page (Tables 12-2 to 12-4). -/
structure Kite where
  cmd : Option DWord
  cmdTimeout : Bool
  staged : Word
  rsp : Option DWord
  rspTimeout : Bool
  overrun : Bool
  seqConflict : Bool
  withdrawn : Bool
  cmdSeq : BitVec 4
  cmdCode : Byte
  seqOpen : BitVec 16
  timeoutSet : BitVec 10
  cmdCnt : DWord
  rspCnt : DWord
  timeoutCnt : DWord
  overrunCnt : DWord
  withdrawCnt : DWord
  staleCnt : DWord
  postTime : DWord
  takeTime : DWord
  deriving DecidableEq, Repr

def Kite.reset : Kite :=
  ⟨none, false, 0, none, false, false, false, false, 0, 0, 0, 10, 0, 0, 0, 0, 0, 0, 0, 0⟩

/-- A command the firmware has taken (R272, R283): its word's fields, its number among all commands taken, whether it has begun,
the header its version 2 block has and the bytes its block's present read has brought (R279), its argument bytes once read, where
its output goes, whether its block asks for a barrier, whether it has acted and waits for its end (a long command), the status and
result its answer will carry once its turn comes, and whether its response is to be discarded (R239, R251). -/
structure OpenCmd where
  seq : BitVec 4
  code : Byte
  version : BitVec 4
  arg : BitVec 48
  order : Nat
  begun : Bool
  head : Option Bytes
  got : Bytes
  block : Option Bytes
  outAddr : DWord
  outLen : Nat
  barrier : Bool
  waiting : Bool
  verdict : Option (Status × Nat)
  discard : Bool
  deriving DecidableEq, Repr

/-- A request the sideband holds (R292): its command word under the sequence the sideband gave it, its block bytes, and the
binding it came by: SMBus, or messages of a host link. -/
structure SbReq where
  word : DWord
  block : Bytes
  via : Option (Fin 4)
  deriving DecidableEq, Repr

/-- The firmware and the Kite lines: pages and open commands by channel ID, the commands taken so far, responses the firmware
holds until RSP_FULL is 0, the firmware state, EXPECT_MS, FW_GEN, the sideband requests not yet taken, and by sequence the
output of the sideband's answered commands and the host link by whose messages the command came, plus 1 (0: SMBus) (R292), and
the FW_RESTARTED responses a restarted firmware will send (R291). -/
structure KiteState where
  page : SMap Kite
  opened : SMap (List OpenCmd)
  takes : Nat
  rspQ : SMap (List DWord)
  fw : FwSt
  expectMs : BitVec 16
  fwGen : Byte
  fwBuild : BitVec 24
  sideband : List SbReq
  sbOut : SMap Bytes
  sbVia : SMap Nat
  lost : SMap (List DWord)
  deriving DecidableEq, Repr

/-- The ring states of Table 13-4. -/
inductive RingSt where
  | absent | active | held | bmLost | frozen | destroying
  deriving DecidableEq, Repr

def RingSt.code : RingSt → Byte
  | .absent => 0 | .active => 1 | .held => 2 | .bmLost => 3 | .frozen => 4 | .destroying => 5

/-- Where the index read of a ring stands (R304, R305): none, asked for and not sent, sent, or sent with a further read
owed. -/
inductive IdxPhase where
  | none | asked | sent | sentMore
  deriving DecidableEq, Repr

/-- A fetched operation that is outstanding (R307): its number, descriptor, the frames of it not yet at their terminal and
what they reported (R309, R310), the bytes done, and whether its data has been read. -/
structure RingOp where
  no : Nat
  desc : BitVec 512
  framesLeft : Nat
  frames : Nat
  dropped : Nat
  dropBlock : Byte
  dropReason : Byte
  txTime : DWord
  tsValid : Bool
  bytesDone : Nat
  /-- a status decided before the operation may complete (an abort mark, a failed read) -/
  verdict : Option Status
  started : Bool
  /-- the bytes its host read has brought so far, and whether the read still runs (R308) -/
  data : Bytes
  reading : Bool
  /-- address and bytes of the data read of a fenced operation that still waits for those before it (R307) -/
  due : Option (Nat × Nat)
  deriving DecidableEq, Repr

/-- What is fetched of a descriptor, nothing of it begun. -/
def RingOp.fresh (no : Nat) (desc : BitVec 512) : RingOp := ⟨no, desc, 0, 0, 0, 0, 0, 0, false, 0, none, false, [], false, none⟩

/-- A completion entry waiting in a backlog (R318), with its NOTIFY bit. -/
structure Backlogged where
  entry : BitVec 256
  notify : Bool
  deriving DecidableEq, Repr

/-- One ring: its context (Table 13-3), owner, state, indices, HINT, mark, index read, outstanding operations, held
receive buffers as descriptors, those lent to messages of a queue pair (R336), tags marked aborted before their fetch, backlog, entries not yet notified and since when,
and the counts of its state record (Table 13-17). `through` counts the entries that have passed through the backlog since
it was last empty. -/
structure Ring where
  ctx : BitVec 512
  func : Nat
  st : RingSt
  p : BitVec 16
  c : BitVec 16
  hint : BitVec 16
  marked : Bool
  idx : IdxPhase
  nextOp : Nat
  ops : List RingOp
  buffers : List (BitVec 512)
  lent : List (BitVec 512)
  abortTags : List (BitVec 16)
  backlog : List Backlogged
  through : Nat
  unnotified : Nat
  firstUnnotified : DWord
  entries : DWord
  doorbells : DWord
  lastDb : DWord
  malformed : DWord
  dropOrBacklog : DWord
  indexBad : DWord
  /-- the command that waits for a RING_DESTROY to end -/
  waiter : Option (Nat × Nat)
  /-- a HINT waits for the read that it is to be compared with, and the HINT of the read now out (R304) -/
  hinted : Bool
  sentHint : Option (BitVec 16)
  /-- entries given the slots up to P while the ring cannot be written (Table 13-4) -/
  unsent : List Backlogged
  /-- shared-store places that fetches for this completion ring have reserved and its completions have not released (R317) -/
  reserved : Nat
  deriving DecidableEq, Repr

def Ring.absent : Ring :=
  ⟨0, 0, .absent, 0, 0, 0, false, .none, 0, [], [], [], [], [], 0, 0, 0, 0, 0, 0, 0, 0, 0, none, false, none, [], 0⟩

/-- The Ring Manager: rings by ID, delivery entries by leaf queue (R311), the cached contexts, most recently used first,
the doorbells waiting for a context (R321), host-bound packets not yet delivered (port node and packet), those that
wait for a buffer, and the ring whose turn to fetch it is with the descriptors it may yet fetch in it (R322). -/
structure RingState where
  ring : SMap Ring
  deliver : SMap Word
  cached : List Nat
  waiting : List (Nat × BitVec 16)
  rxIn : List (Nat × Pkt)
  rxWait : List (Nat × Nat × Pkt)
  drrAt : Nat
  drrLeft : Nat
  deriving DecidableEq, Repr

end Sys2Proof.Machine
end

