-- ==== Sys2Proof/Machine/TypesDev.lean ====
section
/-!
DEFINITION. Machine/TypesDev.lean: the records of the RDMA engine, storage emulator, cipher engines, packet buffer and HBM,
Tether, boot, sideband and observation blocks (chapters 14 to 22 of the spec), and what the device puts out.
-/
namespace Sys2Proof.Machine

/-- The queue pair states of Table 14-2. -/
inductive QpSt where
  | absent | reset | init | rtr | rts | error
  deriving DecidableEq, Repr

/-- The STATE byte of Table 14-4; an ABSENT index has no context and reads 0. -/
def QpSt.code : QpSt → Byte
  | .absent => 0 | .reset => 0 | .init => 1 | .rtr => 2 | .rts => 3 | .error => 4

/-- A requester operation a queue pair has begun (R335): its ring operation number, code (Table 14-6), first PSN, packets,
packets sent, total bytes, remote address and key, immediate, local data or destination, operands, SOLICITED, its send
sequence, response bytes counted, whether its work is done, timeouts suffered and the status it ends with. -/
structure ROp where
  no : Nat
  kind : Nat
  first : Word
  count : Nat
  sent : Nat
  total : Nat
  va : DWord
  rkey : Word
  imm : Word
  data : Bytes
  addrA : DWord
  op1 : DWord
  op2 : DWord
  solicited : Bool
  seq : Word
  got : Nat
  done : Bool
  retries : Nat
  status : Status
  deriving DecidableEq, Repr

/-- A buffer-consuming message at the responder (R336): sequence, first PSN, length, bytes counted, immediate and flags,
whether it is whole, and the status its buffer completes with. -/
structure RMsg where
  seq : Word
  first : Word
  total : Nat
  counted : Nat
  imm : Word
  immValid : Bool
  writeImm : Bool
  solicited : Bool
  whole : Bool
  status : Status
  buf : BitVec 512
  deriving DecidableEq, Repr

/-- A RoCEv2 message under way at the responder, placed in PSN order (Table 14-10). -/
structure RoceIn where
  writing : Bool
  va : DWord
  rkey : Word
  total : Nat
  offset : Nat
  deriving DecidableEq, Repr

/-- A queue pair index: its generation and index entry (R325), its context (Table 14-4), and what the RTE keeps of its work:
the operations begun, the PSNs marked by a selective acknowledgement, the path that last carried each PSN, the successive
resends per path, whether the retransmission timer runs, the path next in turn, the messages under way, the saved atomics
(first the latest), packets received and not acknowledged, the RoCEv2 message, whether a sequence error NAK stands, the
time of the latest CNP sent and the bytes sent in the latest 55 µs. -/
structure Qp where
  gen : Byte
  st : QpSt
  func : Func
  qpcAddr : DWord
  flags : Byte
  paths : Byte
  mtu : Byte
  retry : Byte
  dscp : Byte
  pd : Word
  partition : Word
  sqRing : Nat
  rqRing : Nat
  remoteQp : Word
  localAddr : BitVec 128
  remoteAddr : BitVec 128
  nextPsn : Word
  unackPsn : Word
  expectPsn : Word
  recvSeq : Word
  sendSeq : Word
  rate : BitVec 24
  retryCount : Byte
  rnrCount : Byte
  pathSuspend : DWord
  timerStart : DWord
  outReads : Nat
  rxBitmap : BitVec 1024
  ops : List ROp
  sacked : List Word
  lastPath : List (Word × Nat)
  streak : List (Nat × Nat)
  timerOn : Bool
  nextPath : Nat
  msgs : List RMsg
  atomics : List (Word × DWord)
  unacked : Nat
  rxMsg : Option RoceIn
  seqNak : Bool
  cnpAt : Option DWord
  rnrPsn : Option Word
  deriving DecidableEq, Repr

def Qp.absent : Qp :=
  ⟨0, .absent, 0, 0, 0, 0, 0, 0, 0, 0, 0, 0, 0xFFFFF, 0, 0, 0, 0, 0, 0, 0, 0, 0, 0, 0, 0, 0, 0, 0, [], [], [], [], false, 0,
    [], [], 0, none, false, none, none⟩

/-- The receive ring of a queue pair; RQ_RING 0xF_FFFF names none (Table 14-3). -/
def Qp.rq (q : Qp) : Option Nat := if q.rqRing = 0xFFFFF then none else some q.rqRing

/-- A memory region entry (Table 14-5). -/
structure Mr where
  base : DWord
  len : DWord
  pd : Word
  func : Func
  valid : Bool
  access : Byte
  gen : Byte
  pasid : BitVec 20
  deriving DecidableEq, Repr

def Mr.empty : Mr := ⟨0, 0, 0, 0, false, 0, 0, 0⟩

/-- An open tracker (R344). -/
structure Tracker where
  qp : Nat
  read : Bool
  first : Word
  total : Nat
  counted : Nat
  tFirst : DWord
  tLast : DWord
  deriving DecidableEq, Repr

/-- A packet in the Lay-by with its entry time (R352). -/
structure LaybyPkt where
  qp : Nat
  pkt : Pkt
  entered : DWord
  deriving DecidableEq, Repr

/-- The RTE: queue pairs by index, regions by entry, trackers by number, the Lay-by in arrival order, the contexts cached
(latest use first), the fetches in progress, the packets that wait for cells to leave (R392), the packets each fetch has lost
to the Lay-by's limit, and the packets handed to it. -/
structure RteState where
  qp : SMap Qp
  mr : SMap Mr
  tracker : SMap (Option Tracker)
  layby : List LaybyPkt
  cached : List Nat
  fetching : List Nat
  waitTx : List Pkt
  overran : List (Nat × Nat)
  input : List Pkt
  deriving DecidableEq, Repr

/-- The controller states of Table 15-3. -/
inductive CtrlSt where
  | disabled | ready | shutting | shutdown | fatal
  deriving DecidableEq, Repr

def CtrlSt.code : CtrlSt → Byte
  | .disabled => 0 | .ready => 1 | .shutting => 2 | .shutdown => 3 | .fatal => 4

/-- An NVMe queue of a controller: its ring in host memory, indices, and for a submission queue its completion queue, for a
completion queue its vector, interrupt enable, phase and the entries that wait for room. -/
structure NvQueue where
  live : Bool
  base : DWord
  size : Nat
  head : Nat
  tail : Nat
  cq : Nat
  vector : Nat
  ien : Bool
  phase : Bool
  waiting : List (BitVec 128)
  deriving DecidableEq, Repr

def NvQueue.absent : NvQueue := ⟨false, 0, 0, 0, 0, 0, 0, false, true, []⟩

/-- A storage controller (R356 to R363): state, registers, power state with the entry in progress and the states that wait
behind it, its limit, features by identifier, the asynchronous events not yet reported, the changed namespaces, the error
log (latest first), and its counts. -/
structure Ctrl where
  st : CtrlSt
  cc : Word
  cfs : Bool
  aqa : Word
  asq : DWord
  acq : DWord
  intm : Word
  enWaits : Bool
  ps : BitVec 2
  lastOper : BitVec 2
  psEntry : Option (BitVec 2)
  ps1Mbps : Word
  features : SMap Word
  events : List Word
  changed : List Nat
  errLog : List (BitVec 512)
  errCount : DWord
  commands : DWord
  errors : DWord
  readBytes : DWord
  writeBytes : DWord
  lastTime : DWord
  readCmds : DWord
  writeCmds : DWord
  sqAt : Nat
  sqLeft : Option Nat
  slotWait : Bool
  deriving DecidableEq, Repr

def Ctrl.reset : Ctrl :=
  ⟨.disabled, 0, false, 0, 0, 0, 0, false, 0, 0, none, 8000, [], [], [], [], 0, 0, 0, 0, 0, 0, 0, 0, 0, some 0, false⟩

/-- A namespace entry and its use by a controller (Table 15-7). -/
structure NsEntry where
  used : Bool
  readOnly : Bool
  primary : Nat
  secondary : Nat
  backNsid : Word
  /-- CTRL_LOSS_S has passed without a connection (R370) -/
  lost : Bool
  deriving DecidableEq, Repr

def NsEntry.empty : NsEntry := ⟨false, false, 0, 0, 0, false⟩

/-- A back-end connection (Table 15-6) with its retransmission timeouts in a row, what the target reported of itself, and
the command that waits for the Connect. -/
structure Conn where
  opened : Bool
  up : Bool
  rdma : Bool
  /-- its own TCP port, which the spec leaves open -/
  lport : Nat
  flags : Byte
  queues : Nat
  depth : Nat
  localAddr : BitVec 128
  remoteAddr : BitVec 128
  port : Nat
  mss : Nat
  leaf : Nat
  qpBase : Nat
  sa : Nat
  subnqn : Bytes
  hostnqn : Bytes
  timeouts : Nat
  mdtsBytes : Nat
  blockBytes : Nat
  unitBytes : Nat
  /-- NABO, NABSN and NABSPF as the target reports them (R366) -/
  bounds : List Nat
  vwc : Bool
  sndNxt : Word
  rcvNxt : Word
  /-- the bytes sent and not acknowledged -/
  unacked : Bytes
  /-- whether a Connect is under way -/
  connecting : Bool
  waiter : Option (Nat × Nat)
  deriving DecidableEq, Repr

def Conn.closed : Conn :=
  ⟨false, false, false, 0, 0, 0, 0, 0, 0, 0, 0, 0, 0, 0, [], [], 0, 0, 0, 0, [], false, 0, 0, [], false, none⟩

/-- One back-end command of a host command: first block, blocks, connection, whether it has been resent, and its status
once it has completed. -/
structure NPiece where
  lba : DWord
  blocks : Nat
  conn : Nat
  resent : Bool
  result : Option Status
  deriving DecidableEq, Repr

/-- A fetched command in its slot: controller, submission queue, the 64-byte entry, its pieces once sent, the host's data it
writes or the host ranges it reads into, an Abort that waits for it, and whether it waits for its end. -/
structure NCmd where
  slot : Nat
  func : Nat
  sq : Nat
  sqe : BitVec 512
  pieces : List NPiece
  data : Bytes
  ranges : List (Nat × Nat)
  aborter : Option Nat
  waiting : Bool
  deriving DecidableEq, Repr

/-- The SCE: controllers by FUNC, queues by FUNC × 2,048 + queue, namespace entries, the attachments by FUNC × 1,025 + NSID
(the entry plus 1, 0: none), connections, commands in flight in order of fetch, and segments handed to it. -/
structure SceState where
  ctrl : SMap Ctrl
  sq : SMap NvQueue
  cq : SMap NvQueue
  ns : SMap NsEntry
  attach : SMap Nat
  conn : SMap Conn
  cmds : List NCmd
  input : List Pkt
  deriving DecidableEq, Repr

/-- A security association (Tables 16-2 and 16-3). `marks` lists the numbers marked as received (R384); a pass holds none
between commands, for it commits in the command that ends it. -/
structure SaRec where
  control : Word
  spi : Word
  seq : DWord
  window : Word
  tcpSeq : Word
  pkts : DWord
  bytes : DWord
  fails : DWord
  lastTime : DWord
  key : BitVec 256
  salt : BitVec 96
  ssci : Word
  sci : DWord
  offset : Nat
  template : Bytes
  marks : List DWord
  softRaised : Bool
  unsync : Bool
  deriving DecidableEq, Repr

def SaRec.empty : SaRec := ⟨0, 0, 0, 0, 0, 0, 0, 0, 0, 0, 0, 0, 0, 0, [], [], false, false⟩

/-- A deletion of an association that waits for the packets begun under it, and its command (R380). -/
structure SaWait where
  sa : Nat
  waiter : Option (Nat × Nat)
  deriving DecidableEq, Repr

/-- The cipher engines: associations by index, the transmit associations of each line port (CURRENT, NEXT, 0xF_FFFF: none),
the cores in service, the deletions that wait and the SA_ADD commands that wait for a switch (R387). -/
structure CiphState where
  sa : SMap SaRec
  txCurrent : SMap Nat
  txNext : SMap Nat
  cores : BitVec 20
  deleting : List SaWait
  switchWait : List (Nat × Nat × Nat)
  deriving DecidableEq, Repr

/-- HBM and the packet buffer's own state: bytes of the engine, firmware and peer regions, the on-die cells, spill cells and
staging cells in use, corrected errors per lane in the hour by stack × 2,048 + pseudo-channel × 64 + lane, the patrol
position, the operating hour those errors are of, and the staging cells and ingress reserve in force. -/
structure HbmState where
  byte : SMap Byte
  dieUsed : Nat
  spillUsed : Nat
  stageUsed : Nat
  laneErr : SMap Nat
  patrol : DWord
  laneHour : Nat
  stageRes : Nat
  ingressRes : Nat
  deriving DecidableEq, Repr

/-- Why the trip sequence of R424 runs: a sensor or a rail. -/
structure Trip where
  supply : Bool
  object : Nat
  reading : Word
  at_ : DWord
  deriving DecidableEq, Repr

/-- The fuses of the device (R429, R445, R448, Table 20-18): trust mode, security state, boot order, revocation, manifest
hash, security version, and the factory repair map. -/
structure Fuses where
  trust : Bool
  sec : BitVec 2
  orderOverride : Bool
  order : BitVec 3
  revoked : Byte
  manifestSet : Bool
  manifest : BitVec 384
  svn : Nat
  factory : SMap DWord
  deriving DecidableEq, Repr

/-- What the Tether core keeps beside its registers: the trip in progress, the PING outstanding and its post time, whether
the start watchdog runs, the trial's milliseconds left, the operating seconds of the warm resets it has caused (R429) and, with
their blocks, of the hangs (R438), the blocks it holds after a hang, the rails outside their warning band, the repair marks
that wait to be written, the field map as its flash holds it with its sequence, board-test mode, its two output pins, the
hottest die and HBM readings and the highest and lowest 1 ms power mean since the latest one-second sample, the powers sampled
in the latest 1 ms (mW, latest first), and the energy below 1 mJ in units of 10⁻⁵ mJ. -/
structure TetherState where
  trip : Option Trip
  ping : Option DWord
  startRuns : Bool
  trialMs : Nat
  warmTimes : List Nat
  hangTimes : List (Nat × Nat)
  hungHeld : List Nat
  railWarn : SMap Bool
  marks : List DWord
  mapFlash : SMap DWord
  mapSeq : Nat
  boardTest : Bool
  faultN : Bool
  tripN : Bool
  secDie : Option Int
  secHbm : Option Int
  secPower : Option (Nat × Nat)
  powers : List Nat
  energyRem : Nat
  deriving DecidableEq, Repr

/-- An SPDM session (R455): identifier, whether KEY_EXCHANGE has been followed by FINISH, the link of the DOE mailbox that
carries it (none over MCTP), and its key updates. -/
structure Spdm where
  id : Word
  established : Bool
  link : Option Nat
  updates : Nat
  deriving DecidableEq, Repr

/-- An image commit in progress (R452): target, the two ledger writes, and the command that waits. -/
structure Commit where
  target : Nat
  waiter : Option (Nat × Nat)
  began : DWord
  deriving DecidableEq, Repr

/-- A large SPDM message in chunks (R455): its handle, its size, the chunk that comes next, and the bytes collected or left. -/
structure Chunk where
  handle : Nat
  size : Nat
  next : Nat
  data : Bytes
  deriving DecidableEq, Repr

/-- Boot, images and the sideband: both boot flashes, fuses, strap BOOT_ORDER as sampled, the sources Trailhead has still to
try, the source it awaits a push on, whether that push has begun, which boot flashes answered SFDP, whether Trailhead has
handed over since the latest cold or warm reset, the slot running, the boot verdict, measurement slots and log, the commit in
progress, whether a PLDM update runs, the MCTP endpoint ID and whether a bus owner has set it, the SPDM sessions, the large
message and large response in chunks, and the answer to FW_ACTIVATE that the change of image follows: channel, sequence and
target. -/
structure BootState where
  flash0 : SMap Byte
  flash1 : SMap Byte
  fuse : Fuses
  strapOrder : BitVec 3
  sourcesLeft : List Nat
  pushFrom : Option Nat
  pushBegun : Bool
  flashOk : BitVec 2
  handed : Bool
  running : Option Nat
  verdict : DWord
  meas : SMap (BitVec 384)
  log : List (BitVec 512)
  commit : Option Commit
  pldm : Bool
  eid : Byte
  busOwnerSet : Bool
  spdm : List Spdm
  chunkIn : Option Chunk
  chunkOut : Option Chunk
  activate : Option (Nat × Nat × Nat)
  deriving DecidableEq, Repr

/-- A page of a host trace buffer while it is open (R467). -/
structure Page where
  index : BitVec 16
  bytes : Bytes
  firstSeq : Word
  records : Nat
  since : DWord
  deriving DecidableEq, Repr

/-- What a trace sink keeps beside its registers: the packets considered since enable, the records taken in this second, its
open page and the records lost since its previous notice. -/
structure Sink where
  considered : Nat
  inSecond : Nat
  page : Option Page
  lost : Nat
  deriving DecidableEq, Repr

def Sink.reset : Sink := ⟨0, 0, none, 0⟩

/-- The boundary-scan instruction in force (Table 21-8). -/
inductive Jtag where
  | extest | sample | idcode | clamp | highz | bypass
  deriving DecidableEq, Repr

/-- A checkpoint of the recorder (R471): operating seconds, power cycles, cold counts, histograms and extremes, by the
device offset of the MLST register they belong to, with its sequence number. -/
structure Checkpoint where
  seq : Nat
  regs : SMap DWord
  nextSeq : Nat
  deriving DecidableEq, Repr

/-- The observation blocks: object class and recorder cursor by function, grants by FUNC × 64 + slot (the block's offset plus
1; 0: none), sinks, the boundary register instruction, and the recorder: its queue, oldest first, the record log by slot,
the checkpoint, and the occurrences of each source in the hour and pending. -/
structure ObsState where
  cwSelect : SMap Nat
  rwCursor : SMap Word
  grant : SMap Nat
  sink : SMap Sink
  fabricInSecond : Nat
  jtag : Jtag
  boundary : Bytes
  pinsDriven : Bytes
  queue : List (BitVec 512)
  log : SMap (BitVec 512)
  ckpt : Option Checkpoint
  hourCnt : SMap Nat
  pendCnt : SMap Nat
  extraOwn : SMap Word
  recPend : List Nat
  deriving DecidableEq, Repr

/-- What the device puts out: frames on the line and management ports, memory requests and messages towards a host,
completions of a host's requests, sideband messages, those that carry GCS commands with their
binding (SMBus, or a host link), and pins. `lineCut` is what went out of a frame cut short with an invalid frame check sequence; a
PPS level comes with the Milepost time of its edge. A memory request tells whether its address is a translated one,
a write whether its Relaxed Ordering attribute is set. -/
inductive Out where
  | line (port : Nat) (frame : Bytes)
  | lineCut (port : Nat) (part : Bytes)
  | mgmt (frame : Bytes)
  | pfc (port : Nat) (prio : Byte) (quanta : List Nat)
  | hostWrite (func : Nat) (pasid : Option (BitVec 20)) (addr : DWord) (data : Bytes) (relaxed translated : Bool)
  | hostRead (func : Nat) (link tag : Nat) (pasid : Option (BitVec 20)) (addr : DWord) (len : Nat) (translated : Bool)
  | atsRequest (func : Nat) (pasid : Option (BitVec 20)) (addr : DWord) (write : Bool)
  | interrupt (func vector : Nat) (addr : DWord) (data : Word)
  | intx (func : Nat) (asserted : Bool)
  | pmPme (func : Nat)
  | pmeToAck (link : Nat)
  | l1Request (link : Nat)
  | completion (func : Nat) (status : Nat) (data : Bytes)
  | invalidated (func : Nat) (itag : Nat)
  | doe (func : Nat) (object : List Word)
  | mctp (message : Bytes)
  | sideband (via : Option (Fin 4)) (message : Bytes)
  | backend (conn : Nat) (command : Bytes)
  | pps (high : Bool) (time : DWord)
  | tdo (register : Bytes)
  | tripN (low : Bool)
  | faultN (low : Bool)
  | trace (words : Bytes)
  deriving DecidableEq, Repr

end Sys2Proof.Machine
end

