-- ==== Sys2Proof/Machine/State.lean ====
section
/-!
DEFINITION. Machine/State.lean: the state of the GL8016, the reasons a step can stop, and the state after reset.
-/
namespace Sys2Proof.Machine
open Sys2Proof

/-- Function and instance management (chapter 11): instances by FUNC. -/
structure FnmState where
  inst : SMap Inst
  deriving DecidableEq, Repr

/-- The state of the device. `regs` holds the register map by device offset; the registers that show a level or a state held
elsewhere are computed when read. `out` is what the device has put out, latest first. `free` is the model's own: the count
of free values drawn. `pending` holds the commands that wait, first in, first out. -/
structure State where
  regs : SMap DWord
  evt : EvtState
  clk : ClkState
  parse : ParseState
  cway : CwayState
  rtbl : RtblState
  shld : ShldState
  tm : TmState
  line : LineState
  eng : EngState
  hiu : HiuState
  fnm : FnmState
  kite : KiteState
  rings : RingState
  rte : RteState
  sce : SceState
  ciph : CiphState
  hbm : HbmState
  tether : TetherState
  boot : BootState
  obs : ObsState
  out : List Out
  free : Nat
  pending : List Instr
  deriving DecidableEq, Repr

/-- Why a step can fault. No command of the table leaves the device without a next state, so there is no fault. -/
inductive Fault where
  deriving DecidableEq, Repr

/-- Why a step can be refused. -/
inductive Refusal where
  /-- A command whose meaning is not written, by its mnemonic; raised by Machine/Dispatch.lean only. Safe: the machine
  stops. -/
  | notModelled (mnemonic : String)
  deriving DecidableEq, Repr

/-- The event block after reset: no occurrence pending (R32, R415). -/
def EvtState.reset : EvtState := ⟨[], [], [], [], [], [], [], [], []⟩

/-- Clocks and resets after reset, as the Reset columns of Tables 18-7 to 18-9 give them. -/
def ClkState.reset : ClkState :=
  ⟨.boot, true, 0, 0x3F, false, 0, true, [], 0, 0, none, [], true, true⟩

def ParseState.reset : ParseState := ⟨[], [], [], 0, false⟩

/-- Slot 0 is LIVE with waymark 0 and slot 1 FREE (Table 3-14). -/
def CwayState.reset : CwayState :=
  ⟨⟨.live, 0, 0⟩, ⟨.free, 0, 0⟩, [], [], [], [], [], [], []⟩

def RtblState.reset : RtblState := ⟨[], [], 0, [], [], [], [], [], [], [], [], [], [], [], 0⟩

def ShldState.reset : ShldState := ⟨.standing, 0, none, 0, 0, [], [], [], 0⟩

def TmState.reset : TmState := ⟨[], [], [], [], [], [], [], [], [], [], []⟩

def LineState.reset : LineState := ⟨[], false, [], 0, 0⟩

def EngState.reset : EngState :=
  ⟨[], [], [], [], [], [], [], [], [], [], [], [], [], [], [], [], [], [], [], [], []⟩

def HiuState.reset : HiuState := ⟨0, false, 0, [], [], [], [], false, false, [], [], [], [], [], [], 8, []⟩

def FnmState.reset : FnmState := ⟨[]⟩

def KiteState.reset : KiteState := ⟨[], [], 0, [], .absent, 0, 0, 0, [], [], [], []⟩

def RingState.reset : RingState := ⟨[], [], [], [], [], [], 0, 0⟩

def RteState.reset : RteState := ⟨[], [], [], [], [], [], [], [], []⟩

def SceState.reset : SceState := ⟨[], [], [], [], [], [], [], []⟩

/-- All 20 cores in service and no transmit association (R377, Table 16-9). -/
def CiphState.reset : CiphState := ⟨[], [], [], 0xFFFFF, [], []⟩

def HbmState.reset : HbmState := ⟨[], 0, 0, 0, [], 0, 0, 32768, 65536⟩

/-- Fuses of an unprogrammed part (DESIGN CHOICE: the spec gives no fuse a value). -/
def Fuses.blank : Fuses := ⟨false, 0, false, 0, 0, false, 0, 0, []⟩

/-- The Tether after reset: the start watchdog runs, for control core 0 is released in BOOT (R428); both pins are high. -/
def TetherState.reset : TetherState :=
  ⟨none, none, true, 0, [], [], [], [], [], [], 0, false, true, true, none, none, none, [], 0⟩

def BootState.reset : BootState :=
  ⟨[], [], .blank, 0, [], none, false, 0, false, none, 0, [], [], none, false, 0, false, [], none, none, none⟩

/-- The boundary-scan instruction after reset is IDCODE (PRESUMED from IEEE 1149.1). -/
def ObsState.reset : ObsState := ⟨[], [], [], [], 0, .idcode, [], [], [], [], none, [], [], [], []⟩

/-- The device right after reset. -/
def State.reset : State :=
  { regs := [], evt := .reset, clk := .reset, parse := .reset, cway := .reset, rtbl := .reset, shld := .reset
    tm := .reset, line := .reset, eng := .reset, hiu := .reset, fnm := .reset, kite := .reset, rings := .reset
    rte := .reset, sce := .reset, ciph := .reset, hbm := .reset, tether := .reset, boot := .reset, obs := .reset
    out := [], free := 0, pending := [] }

end Sys2Proof.Machine
end

