-- ==== Sys2Proof/Machine/Ops.lean ====
section
/-!
DEFINITION. Machine/Ops.lean: the named operations the meanings share: registers and counters, free values, what the device
puts out, Milestone time, and what a function is and can do.
-/
namespace Sys2Proof.Machine
open Sys2Proof

/-- Where every command of the table ends: in a next state. -/
abbrev Res := Host.Outcome State Fault Refusal

/-- A register as it is held, 64 bits of it where it is 64 bits wide. -/
def State.rd (s : State) (a : Nat) : DWord := mapGet resetVal s.regs a

/-- The state with the register at `a` holding `v`. -/
def State.wr (s : State) (a : Nat) (v : DWord) : State := { s with regs := mapSet resetVal s.regs a v }

/-- The state with the counter at `a` risen by `n`; it wraps (R21). -/
def State.bumpN (s : State) (a n : Nat) : State := s.wr a (s.rd a + BitVec.ofNat 64 n)

/-- The state with the counter at `a` risen by 1. -/
def State.bump (s : State) (a : Nat) : State := s.bumpN a 1

/-- A field of a register. -/
def State.rdf (s : State) (a lo len : Nat) : Nat := fld (s.rd a) lo len

/-- The state with a field of a register replaced. -/
def State.wrf (s : State) (a lo len x : Nat) : State := s.wr a (setFld (s.rd a) lo len x)

/-- The state in which the device has put `o` out. -/
def State.emit (s : State) (o : Out) : State := { s with out := o :: s.out }

/-- The next free value: what stands where the spec gives none. -/
def State.fresh (s : State) : BitVec 512 := Config.freeValue s.free

/-- The state after a free value has been drawn. -/
def State.drew (s : State) : State := { s with free := s.free + 1 }

/-- Bytes the spec gives no value for: `n` of them from the free values, and the state after they are drawn. -/
def State.freeBytes (s : State) (n : Nat) : Bytes × State :=
  let k := ceilDiv n 64
  (((List.range k).map (fun i => bvBytes (Config.freeValue (s.free + i)))).flatten.take n, { s with free := s.free + k })

/-- A status the spec does not state: of a class the device returns (Table 0-5), the rest free. -/
def openStatus (f : BitVec 512) : Status :=
  BitVec.ofNat 16 (at' (([0, 1, 2, 3, 4, 5, 6, 15] : List Nat).getD (fld f 12 3) 0) 12 + fld f 0 12)

/-- Milepost time in ns (R170). -/
def State.now (s : State) : DWord := BitVec.ofNat 64 (s.line.now.toNat >>> 32)

/-- The operating hour: operating seconds divided by 3,600 (R471). -/
def State.hour (s : State) : Nat := (s.rd R.MLST_OP_SECONDS).toNat / 3600

/-- A counter that holds the greatest value seen. -/
def State.raiseTo (s : State) (a n : Nat) : State :=
  s.wr a (if (s.rd a).toNat < n then BitVec.ofNat 64 n else s.rd a)

/-- What the host and configuration space hold for function `f`. -/
def State.fn (s : State) (f : Nat) : HFn := mapGet (fun _ => HFn.reset) s.hiu.fn f

def State.setFn (s : State) (f : Nat) (v : HFn) : State :=
  { s with hiu := { s.hiu with fn := mapSet (fun _ => HFn.reset) s.hiu.fn f v } }

/-- Function `f` with its record changed. -/
def State.updFn (s : State) (f : Nat) (g : HFn → HFn) : State := s.setFn f (g (s.fn f))

def State.link (s : State) (k : Nat) : HLink := mapGet (fun _ => HLink.reset) s.hiu.link k

def State.setLink (s : State) (k : Nat) (v : HLink) : State :=
  { s with hiu := { s.hiu with link := mapSet (fun _ => HLink.reset) s.hiu.link k v } }

/-- The instance of function `f`. -/
def State.inst (s : State) (f : Nat) : Inst := mapGet (fun _ => Inst.absent) s.fnm.inst f

def State.setInst (s : State) (f : Nat) (v : Inst) : State :=
  { s with fnm := { s.fnm with inst := mapSet (fun _ => Inst.absent) s.fnm.inst f v } }

def State.updInst (s : State) (f : Nat) (g : Inst → Inst) : State := s.setInst f (g (s.inst f))

/-- The function whose allocation holds leaf queue `l`, under its subscriber nodes (Tables 6-1, 11-5). -/
def State.leafOwner (s : State) (l : Nat) : Option Nat :=
  (s.fnm.inst.find? (fun e => e.2.st != .absent && decide (e.2.alloc.subBase ≤ l / 4) &&
    decide (l / 4 < e.2.alloc.subBase + e.2.alloc.subCount))).map (fun e => e.1)

/-- Whether leaf queue `l` belongs to an instance that is not ACTIVE, and so admits nothing (R260). -/
def State.leafStopped (s : State) (l : Nat) : Bool := match s.leafOwner l with
  | some f => (s.inst f).st != .active
  | none => false

/-- TotalVFs of PF `p` (R254). -/
def State.totalVfs (s : State) (p : Nat) : Nat := s.rdf (R.FNM_PF_CFG p) 0 11

/-- The first VF of PF `p`: VFs are numbered PF by PF (DEDUCED from R254 and R256: a VF exists where a PF's TotalVFs covers
it). -/
def State.vfBase (s : State) : Nat → Nat
  | 0 => 0
  | p + 1 => s.vfBase p + s.totalVfs p

/-- The PF that VF `v` belongs to, if a TotalVFs covers it. -/
def State.vfPf (s : State) (v : Nat) : Option Nat :=
  (List.range 8).find? (fun p => decide (s.vfBase p ≤ v) && decide (v < s.vfBase p + s.totalVfs p))

/-- The PF of a function: itself, or the PF of a VF. -/
def State.fnPf (s : State) (f : Nat) : Option Nat := if f < 8 then some f else if f < 4104 then s.vfPf (f - 8) else none

/-- Whether HIU_PF_MAP, as the links latched it, presents PF `p` (R223). -/
def State.pfPresent (s : State) (p : Nat) : Bool := fld s.hiu.pfMap (4 * p + 3) 1 == 1

/-- The link of PF `p`. -/
def State.pfLink (s : State) (p : Nat) : Nat := fld s.hiu.pfMap (4 * p + 1) 2

/-- The host link of a function. -/
def State.fnLink (s : State) (f : Nat) : Nat := match s.fnPf f with
  | some p => s.pfLink p
  | none => 0

/-- Whether the device presents the function: a present PF, or a VF that the TotalVFs of a present PF covers (R256). -/
def State.presents (s : State) (f : Nat) : Bool := match s.fnPf f with
  | some p => s.pfPresent p
  | none => false

/-- Whether the function exists for the host: a present PF, or a VF among the NumVFs of its PF while VF Enable is 1. -/
def State.exists_ (s : State) (f : Nat) : Bool := match s.fnPf f with
  | some p => s.pfPresent p && (decide (f < 8) ||
      ((s.fn p).vfEnable && decide (f - 8 - s.vfBase p < (s.fn p).numVfs)))
  | none => false

/-- The VFs that the TotalVFs of PF `p` covers. -/
def State.vfsOf (s : State) (p : Nat) : List Nat := (List.range (s.totalVfs p)).map (fun i => 8 + s.vfBase p + i)

/-- The functions of link `k` that the device presents: its PFs, each with its VFs. -/
def State.fnsOf (s : State) (k : Nat) : List Nat :=
  ((List.range 8).filter (fun p => s.pfPresent p && s.pfLink p == k)).flatMap (fun p => p :: s.vfsOf p)

/-- The place of a configuration register among those that are only kept. -/
def cfgKey : CfgReg → Nat
  | .bar i => i.val
  | .sriovBar i => 8 + i.val
  | .interrupt => 14
  | .commandStatus => 15
  | .devControl => 16
  | .devControl2 => 17
  | .pmCsr => 18
  | .msiControl => 19
  | .atsControl => 20
  | .pasidControl => 21
  | .sriovControl => 22
  | .revisionClass => 23
  | .msiAddrLow => 25
  | .msiAddrHigh => 26
  | .msiData => 27
  | .linkControl => 28
  | .aerControl => 29
  | .l1ssControl => 30
  | .ltr => 31
  | .ideControl i => 32 + i.val
  | .other o => 4096 + o.toNat
  | _ => 24

/-- The manager function (R223). -/
def State.manager (s : State) : Nat := s.hiu.mgrSel.toNat

/-- Why the HIU sends no request for a function now (Table 10-5), if it does not: reset, link, Bus Master Enable, D3hot, or a
PME_Turn_Off of its link. -/
def State.hostStop (s : State) (f : Nat) : Option Status :=
  if (s.fn f).flr then some 0x2062
  else if !(s.link (s.fnLink f)).dlUp then some 0x4065
  else if !(s.fn f).bme || (s.fn f).dstate == 3 || decide (s.fnLink f ∈ s.hiu.turnOff) then some 0x2060
  else none

/-- The status of Table 10-5 that a failed completion gives. -/
def cplFail : CplStatus → Status
  | .ok => 0 | .ur => 0x4061 | .ca => 0x4062 | .poisoned => 0x4063 | .refused => 0x2061

/-- The PASID a ring's requests carry: its context's, while PASID is enabled in the function (R246). -/
def State.pasidOf (s : State) (f : Nat) (p : BitVec 20) : Option (BitVec 20) := if (s.fn f).pasid then some p else none

/-- Bytes of HBM. -/
def State.hbmRead (s : State) (a n : Nat) : Bytes := mapGetList (fun _ => 0) s.hbm.byte a n

def State.hbmPut (s : State) (a : Nat) (b : Bytes) : State :=
  { s with hbm := { s.hbm with byte := mapSetList (fun _ => 0) s.hbm.byte a b } }

/-- A measurement slot extended with a digest: its value, and one more entry of the log, which holds 512 (the definition of
measurement, R446): slot, kind, detail, digest. Where the spec gives an extend no kind or no detail, that part of the entry is
free, as are its bytes 2 to 7. -/
def State.extend (s : State) (slot : Nat) (kind : Option Byte) (detail : Option DWord) (d : BitVec 384) : State :=
  let old := mapGet (fun _ => (0 : BitVec 384)) s.boot.meas slot
  let v := Config.sha384 (bvBytes old ++ bvBytes d)
  let free := s.fresh
  let entry := bytesBv 512 (leBytes 1 slot ++ leBytes 1 (match kind with | some k => k.toNat | none => fld free 0 8) ++
    leBytes 6 (fld free 8 48) ++ leBytes 8 (match detail with | some x => x.toNat | none => fld free 64 64) ++ bvBytes d)
  let s := s.drew
  let full := decide (512 ≤ s.boot.log.length)
  let s := if full then s.bump R.BOOT_LOG_LOST_CNT else s
  { s with boot := { s.boot with
    meas := mapSet (fun _ => 0) s.boot.meas slot v
    log := if full then s.boot.log else s.boot.log ++ [entry] } }

/-- What a byte of a boot flash or the recorder flash that nothing has programmed reads as (PRESUMED of NOR flash). -/
def erased : Nat → Byte := fun _ => 0xFF

/-- Bytes of the primary boot flash. -/
def State.flashRead (s : State) (a n : Nat) : Bytes := mapGetList erased s.boot.flash0 a n

/-- The device configuration record, where its MAGIC and CRC hold (Table 20-2). -/
def State.cfgRecord (s : State) : Option Bytes :=
  let b := s.flashRead 0x20000 256
  if leAt b 0 4 = 0x44434647 ∧ (crc32c (b.take 252)).toNat = leAt b 252 4 then some b else none

/-- A field of the device configuration record; 0 where the record is absent (Table 20-2). -/
def State.cfgField (s : State) (off len : Nat) : Nat := match s.cfgRecord with
  | some b => leAt b off len
  | none => 0

/-- A thread of a physical engine. -/
def State.thr (s : State) (e t : Nat) : Thread := mapGet (fun _ => Thread.reset) s.eng.thread (e * 8 + t)

def State.setThr (s : State) (e t : Nat) (v : Thread) : State :=
  { s with eng := { s.eng with thread := mapSet (fun _ => Thread.reset) s.eng.thread (e * 8 + t) v } }

/-- An engine channel. -/
def State.chan (s : State) (e c : Nat) : Chan := mapGet (fun _ => Chan.empty) s.eng.chan (e * 32 + c)

def State.setChan (s : State) (e c : Nat) (v : Chan) : State :=
  { s with eng := { s.eng with chan := mapSet (fun _ => Chan.empty) s.eng.chan (e * 32 + c) v } }

/-- A ring. -/
def State.ring (s : State) (r : Nat) : Ring := mapGet (fun _ => Ring.absent) s.rings.ring r

def State.setRing (s : State) (r : Nat) (v : Ring) : State :=
  { s with rings := { s.rings with ring := mapSet (fun _ => Ring.absent) s.rings.ring r v } }

def State.updRing (s : State) (r : Nat) (g : Ring → Ring) : State := s.setRing r (g (s.ring r))

/-- A carriageway instance: 0 to 3 active on their own slots, 4 the Shoulder standing by. -/
def CwayInst.reset (i : Nat) : CwayInst := if i < 4 then ⟨.active, i, [], [], []⟩ else ⟨.standing, 0, [], [], []⟩

def State.cinst (s : State) (i : Nat) : CwayInst := mapGet CwayInst.reset s.cway.insts i

def State.setCinst (s : State) (i : Nat) (v : CwayInst) : State :=
  { s with cway := { s.cway with insts := mapSet CwayInst.reset s.cway.insts i v } }

def State.updCinst (s : State) (i : Nat) (g : CwayInst → CwayInst) : State := s.setCinst i (g (s.cinst i))

/-- A line port. -/
def State.port (s : State) (p : Nat) : LinePort := mapGet (fun _ => LinePort.reset) s.line.port p

def State.setPort (s : State) (p : Nat) (v : LinePort) : State :=
  { s with line := { s.line with port := mapSet (fun _ => LinePort.reset) s.line.port p v } }

/-- Whether the Tether holds block `b` of Table 1-4 in reset (Table 18-11). -/
def State.blockHeld (s : State) (b : Nat) : Bool := bit (s.rd R.CLKRST_BLOCK_RESET) b

/-- Whether the blocks of the die are held in reset (Table 18-3, R424). -/
def State.inReset (s : State) : Bool := !(s.clk.dev == .boot || s.clk.dev == .running) || s.tether.trip.isSome

/-- Runs a state update over a list. -/
def State.each {α : Type} (s : State) (l : List α) (g : State → α → State) : State := l.foldl g s

/-- A state update made only where a condition holds. -/
def State.if_ (s : State) (c : Bool) (g : State → State) : State := if c then g s else s

end Sys2Proof.Machine
end

