-- ==== Sys2Proof/Machine/Events.lean ====
section
/-!
DEFINITION. Machine/Events.lean: event occurrences, their delivery by route, interrupt messages and what holds them, the
Tether's watch and the Milestone recorder's records (R32 to R36, R234 to R238, R415, R426, R437, R473, R474).
-/
namespace Sys2Proof.Machine
open Sys2Proof

/-- EVT_DETAIL (Table 1-12). -/
def evDetail (func obj code : Nat) : DWord :=
  BitVec.ofNat 64 (at' (func % 8192) 51 + at' (obj % 1048576) 28 + code % 65536)

def State.xing (s : State) (n : Nat) : EvXing := mapGet (fun _ => EvXing.idle) s.evt.xing n

def State.setXing (s : State) (n : Nat) (x : EvXing) : State :=
  { s with evt := { s.evt with xing := mapSet (fun _ => EvXing.idle) s.evt.xing n x } }

/-- The pending delta of a counter crossing (R414). -/
def State.delta (s : State) (a : Nat) : DWord := mapGet (fun _ => 0) s.evt.delta a

def State.setDelta (s : State) (a : Nat) (v : DWord) : State :=
  { s with evt := { s.evt with delta := mapSet (fun _ => 0) s.evt.delta a v } }

/-- The crossing after one more pulse: idle, the request toggles; else the pulse merges (R415). -/
def EvXing.pulse (x : EvXing) (d t : DWord) : EvXing :=
  if x.phase = .idle then ⟨.requested, false, d, t⟩ else ⟨x.phase, true, d, t⟩

/-- An occurrence at its source: one increment of the count's crossing, and a pulse into the event crossing. A pulse that
finds the merge flag set is counted as merged (R414, R415 with its example). -/
def State.raise (s : State) (n func obj code : Nat) : State :=
  let x := s.xing n
  let s := s.setDelta (R.EVT_COUNT n) (s.delta (R.EVT_COUNT n) + 1)
  let s := s.setXing n (x.pulse (evDetail func obj code) s.now)
  if x.merge then s.bump R.CLKRST_EVT_MERGE_CNT else s

/-- FUNC in EVT_DETAIL where no function is concerned. -/
def noFunc : Nat := 0x1FFF

/-- A counter crossing delivers its pending delta (R414). -/
def State.deliverDelta (s : State) (a : Nat) : State :=
  (s.bumpN a (s.delta a).toNat).setDelta a 0

def State.pend (s : State) (n : Nat) : Bool := mapGet (fun _ => false) s.evt.pend n

def State.setPend (s : State) (n : Nat) (b : Bool) : State :=
  { s with evt := { s.evt with pend := mapSet (fun _ => false) s.evt.pend n b } }

/-- Records the recorder can queue for (R474): the bytes of a record, 64 of them (Table 21-12). -/
def recordOf (s : State) (kind flags count : Nat) (detail : DWord) (data : Nat) : BitVec 512 :=
  let secs := (s.rd R.MLST_OP_SECONDS).toNat
  let time := if s.clk.running.getLsbD 5 then s.now.toNat else 0
  let body := leBytes 4 (s.rd R.MLST_NEXT_SEQ).toNat ++ leBytes 2 kind ++ leBytes 1 flags ++ leBytes 1 0 ++
    leBytes 4 (secs / 3600 % 16777216) ++ leBytes 2 (secs % 3600) ++ leBytes 2 0 ++
    leBytes 4 (s.rd R.MLST_POWER_CYCLES).toNat ++ leBytes 4 count ++ leBytes 8 time ++ leBytes 8 detail.toNat ++
    leBytes 20 data
  bytesBv 512 (body ++ leBytes 4 (crc32c body).toNat)

def State.recCnt (s : State) (k : Nat) : Nat := mapGet (fun _ => 0) s.obs.pendCnt k

/-- A record written into the recorder's queue, or, where the queue is full, merged into the pending count of its source
`src` (R474). -/
def State.record (s : State) (src kind flags count : Nat) (detail : DWord) (data : Nat) : State :=
  if s.obs.queue.length < 256 then
    { s with obs := { s.obs with queue := s.obs.queue ++ [recordOf s kind flags count detail data] } }.bump R.MLST_NEXT_SEQ
  else
    { s with obs := { s.obs with pendCnt := mapSet (fun _ => 0) s.obs.pendCnt src (s.recCnt src + count) } }.bumpN
      R.MLST_MERGED_CNT count

/-- Whether the recorder writes a record for occurrences of source `n` (R473). -/
def State.recorded (s : State) (n : Nat) : Bool :=
  decide (n ∈ [0x285, 0x286, 0x288, 0x513, 0x706, 0x740, 0x780, 0x785, 0x786, 0x787]) ||
  (decide (0x743 ≤ n) && decide (n ≤ 0x749)) || (decide (0x790 ≤ n) && decide (n ≤ 0x79E)) ||
  (decide (0x7C0 ≤ n) && decide (n ≤ 0x7C7)) || bit (s.rd (R.MLST_EXTRA (n / 32))) (n % 32)

def State.hourCnt (s : State) (n : Nat) : Nat := mapGet (fun _ => 0) s.obs.hourCnt n

/-- The recorder takes `count` occurrences of source `n` from its crossing: a SUBSTITUTION record for SUBSTITUTED, an EVENT
record for the others, limited to 16 per source in an hour (Table 21-13, R474). -/
def State.recOccur (s : State) (n count : Nat) (detail : DWord) : State :=
  if !s.recorded n || count == 0 then s else
  if n == 0x285 then
    let i := fld (s.rd R.IDENT_CWAY) 4 3
    s.record n 5 0 count detail
      (i + at' (s.cinst i).slot 8 + at' s.shld.replayed 16 + at' (s.rd R.CWAY_SHLD_SUB_NS).toNat 32)
  else if s.hourCnt n < 16 then
    { s with obs := { s.obs with hourCnt := mapSet (fun _ => 0) s.obs.hourCnt n (s.hourCnt n + 1) } }.record n 1 0 count
      detail n
  else
    { s with obs := { s.obs with pendCnt := mapSet (fun _ => 0) s.obs.pendCnt n (s.recCnt n + count) } }.bumpN
      R.MLST_MERGED_CNT count

/-- A repair mark waits to be written into the field map (R436): KIND, SOURCE, HOUR and OBJECT of Table 19-5. -/
def State.mark (s : State) (kind source object : Nat) : State :=
  { s with tether := { s.tether with marks := s.tether.marks ++
      [BitVec.ofNat 64 (at' kind 60 + at' source 58 + at' (s.hour % 16777216) 34 + object % 17179869184)] } }

/-- The object of an HBM row (Table 19-5, kind 4): blocks of 256 bytes rotate over the stacks and, within one, over its
pseudo-channels (R398). -/
def hbmObject (a : Nat) : Nat :=
  at' (a / 256 % 3) 28 + at' (a / 768 % 32) 23 + (Config.hbmBankRow a).toNat

/-- The operating seconds of the faults of code 6 or 7 of engine `e` in the latest 24 hours of operation. -/
def State.faultTimes (s : State) (e : Nat) : List Nat :=
  (mapGet (fun _ => ([] : List Nat)) s.eng.faults e).filter
    (fun t => decide ((s.rd R.MLST_OP_SECONDS).toNat < t + 86400))

/-- What the Tether does with `count` watched occurrences of source `n` (R426, Table 19-4). -/
def State.watch (s : State) (n count : Nat) (detail : DWord) : State :=
  if count == 0 then s else
  if n == 0x285 then
    let i := fld (s.rd R.IDENT_CWAY) 4 3
    s.mark 5 2 (i + at' (s.cinst i).slot 3)
  else if n == 0x286 then s.mark 6 2 0
  else if n == 0x740 then s.mark 2 2 (at' (fld detail 0 16) 16 + fld detail 28 20 / 8)
  else if 0x743 ≤ n ∧ n ≤ 0x745 then s.mark 4 2 (hbmObject (s.rd R.HBMC_LAST_UNCORR_ADDR).toNat)
  else if 0x747 ≤ n ∧ n ≤ 0x749 then
    s.mark 3 2 (at' (n - 0x747) 28 + at' (fld detail 34 5) 23 + fld detail 28 6)
  else if 0x488 ≤ n ∧ n ≤ 0x50F then
    let e := n - 0x488
    let code := fld (s.rd (R.ENG_FAULT_INFO e)) 48 8
    if code == 6 || code == 7 then
      let ts := s.faultTimes e ++ List.replicate count (s.rd R.MLST_OP_SECONDS).toNat
      { s with eng := { s.eng with faults := mapSet (fun _ => []) s.eng.faults e ts } }.if_ (decide (4 ≤ ts.length))
        (fun s => s.mark 1 2 e)
    else s
  else s

/-- An entry of a function's MSI-X table. -/
def HFn.entry (h : HFn) (v : Nat) : MsixEntry := mapGet (fun _ => MsixEntry.reset) h.msixTable v

/-- Whether a message to vector `v` has to wait: Bus Master Enable 0, D3hot, or a mask (R235 to R237, R481). -/
def HFn.holds (h : HFn) (v : Nat) : Bool :=
  !h.bme || h.dstate == 3 ||
    (if h.msixEnable then h.msixFnMask || (h.entry v).masked else bit h.msiMask v)

/-- The vector a message for VECTOR uses (R35): its own with MSI-X, modulo the enabled vectors with MSI. -/
def HFn.vectorOf (h : HFn) (v : Nat) : Nat := if h.msixEnable then v else v % h.msiCount

/-- The function with the pending bit of vector `v` set or cleared. -/
def HFn.setVecPend (h : HFn) (v : Nat) (b : Bool) : HFn :=
  if h.msixEnable then { h with msixPend := mapSet (fun _ => false) h.msixPend v b }
  else { h with msiPend := setBit h.msiPend v b }

/-- The occurrence or notification behind a message is no longer pending. -/
def State.msgSent (s : State) (src : HeldBy) : State := match src with
  | .source n => s.setPend n false
  | .ring _ => s
  | .nvmeCq _ _ => s

/-- A PM_PME message when the first message of a function in D3hot is held (R482). -/
def State.pme (s : State) (f : Nat) : State :=
  if (s.fn f).dstate == 3 && (s.fn f).pmeEn && !(s.fn f).pmeStatus then
    (s.updFn f (fun h => { h with pmeStatus := true })).emit (.pmPme f)
  else s

/-- The address and data of a message: the MSI-X entry's, or the MSI capability's address and data with the vector in the low
bits of the data (as the PCIe Base Specification has MSI, PRESUMED). -/
def HFn.msgAddr (h : HFn) (v : Nat) : DWord :=
  if h.msixEnable then (h.entry v).addr
  else BitVec.ofNat 64 ((mapGet (fun _ => (0 : Word)) h.cfgRw (cfgKey .msiAddrLow)).toNat +
    at' (mapGet (fun _ => (0 : Word)) h.cfgRw (cfgKey .msiAddrHigh)).toNat 32)

def HFn.msgData (h : HFn) (v : Nat) : Word :=
  if h.msixEnable then (h.entry v).data
  else
    let d := (mapGet (fun _ => (0 : Word)) h.cfgRw (cfgKey .msiData)).toNat
    BitVec.ofNat 32 (d - d % h.msiCount + v)

/-- An interrupt message to a vector of function `f`: sent, or held with its pending bit set. -/
def State.message (s : State) (f vector : Nat) (src : HeldBy) : State :=
  let h := s.fn f
  let v := h.vectorOf vector
  if h.holds v then
    let m : HeldMsg := ⟨f, v, src⟩
    let held := if m ∈ s.evt.held then s.evt.held else s.evt.held ++ [m]
    ({ s with evt := { s.evt with held := held } }.updFn f (fun h => h.setVecPend v true)).pme f
  else
    (s.emit (.interrupt f v (h.msgAddr v) (h.msgData v))).msgSent src

/-- The held messages of vector `v` of function `f` are sent as one, where nothing holds them any more. -/
def State.release (s : State) (f v : Nat) : State :=
  let h := s.fn f
  let mine := s.evt.held.filter (fun m => m.func == f && m.vector == v)
  if h.holds v || mine.isEmpty then s else
  let s := { s with evt := { s.evt with held := s.evt.held.filter (fun m => !(m.func == f && m.vector == v)) } }
  let s := (s.updFn f (fun h => h.setVecPend v false)).emit
    (.interrupt f v (h.msgAddr v) (h.msgData v))
  s.each mine (fun s m => s.msgSent m.src)

/-- Every held message of function `f` that nothing holds any more is sent. -/
def State.releaseAll (s : State) (f : Nat) : State :=
  s.each ((s.evt.held.filter (fun m => m.func == f)).map (fun m => m.vector)).eraseDups (fun s v => s.release f v)

/-- The held messages of a function are discarded, and their sources return to IDLE (R239 step 4, R251 step 3). -/
def State.discardHeld (s : State) (f : Nat) : State :=
  let mine := s.evt.held.filter (fun m => m.func == f)
  let s := { s with evt := { s.evt with held := s.evt.held.filter (fun m => m.func != f) } }
  s.each mine (fun s m => s.msgSent m.src)

/-- Whether source `n` reaches the Tether by fixed wiring (R33). -/
def wired (n : Nat) : Bool := decide (0x780 ≤ n) && decide (n ≤ 0x7BF)

/-- The held messages of one source are withdrawn, and the occurrence its route has queued; a vector's pending bit stays only
where another message is held for it (R36, R236). What the fixed wiring has queued for the Tether stays (R33). -/
def State.withdraw (s : State) (n : Nat) : State :=
  let mine := s.evt.held.filter (fun m => m.src == HeldBy.source n)
  let s := { s with evt := { s.evt with
    held := s.evt.held.filter (fun m => m.src != HeldBy.source n)
    fwQueue := s.evt.fwQueue.filter (· != n)
    tetherQueue := s.evt.tetherQueue.filter (fun x => x != n || wired n)
    routed := mapDel s.evt.routed n } }
  (s.each mine (fun s m =>
    if s.evt.held.any (fun k => k.func == m.func && k.vector == m.vector) then s
    else s.updFn m.func (fun h => h.setVecPend m.vector false))).setPend n false

/-- Whether an interrupt can be made to function `f` at all (R34). -/
def State.reachable (s : State) (f : Nat) : Bool :=
  s.exists_ f && !(s.fn f).flr && (s.link (s.fnLink f)).dlUp

/-- The size of a function's MSI-X table (R236). -/
def State.vectors (s : State) (f : Nat) : Nat := (s.inst f).alloc.vectors

/-- The INTx state of a PF as its driver and its host see it (R234). -/
def HFn.intxOut (h : HFn) : Bool := h.intxAsserted && !h.intxDisable && !h.msiEnable && !h.msixEnable

/-- INTx follows a change of a PF's record: an Assert or Deassert message where the level changes. -/
def State.updIntx (s : State) (p : Nat) (g : HFn → HFn) : State :=
  let h := s.fn p
  let h' := g h
  let s := s.setFn p h'
  if h.intxOut == h'.intxOut then s else s.emit (.intx p h'.intxOut)

/-- A delivery that cannot be made (R34). -/
def State.undeliverable (s : State) : State := s.bump R.EVT_UNDELIVERED_CNT

/-- An occurrence of source `n` to VECTOR of function `f` (R34 to R36). A function with neither MSI-X nor MSI enabled can
take no message: the delivery cannot be made (DEDUCED). -/
def State.toVector (s : State) (n f vector : Nat) : State :=
  let h := s.fn f
  if !s.reachable f || !(h.msixEnable || h.msiEnable) || decide (s.vectors f ≤ vector) then s.undeliverable
  else (s.setPend n true).message f vector (.source n)

/-- An occurrence of source `n` to INTx of a PF (R234). DEDUCED: it is delivered when ASSERTED is set, for COUNT counts the
occurrences delivered since the last clear, so none waits and EVT_PEND shows none of them. -/
def State.toIntx (s : State) (f : Nat) : State :=
  if 8 ≤ f || !s.reachable f then s.undeliverable
  else s.updIntx f (fun h => { h with intxAsserted := true, intxCount := satTo 65535 (h.intxCount + 1) })

/-- An occurrence waits in the firmware's event queue (R36). -/
def State.toFw (s : State) (n : Nat) : State :=
  let s := s.setPend n true
  { s with evt := { s.evt with fwQueue := s.evt.fwQueue ++ [n] } }

/-- Source `n` waits in the Tether's event queue, once. -/
def State.tetherWaits (s : State) (n : Nat) : State :=
  if n ∈ s.evt.tetherQueue then s
  else { s with evt := { s.evt with tetherQueue := s.evt.tetherQueue ++ [n] } }

/-- An occurrence waits in the Tether's event queue by its route (R36). -/
def State.toTether (s : State) (n : Nat) : State :=
  let s := (s.setPend n true).tetherWaits n
  { s with evt := { s.evt with routed := mapSet (fun _ => false) s.evt.routed n true } }

/-- Sources 0x780 to 0x7BF reach the Tether by fixed wiring, whatever their route (R33). -/
def State.fixedWire (s : State) (n : Nat) : State := if wired n then s.tetherWaits n else s

/-- Delivery of one occurrence of source `n` by its route (Table 1-11); it merges with a pending one (R36, Table 1-13). -/
def State.route (s : State) (n : Nat) (detail : DWord) : State :=
  let r := s.rd (R.EVT_ROUTE n)
  if !bit r 31 || s.pend n then s else
  match fld r 28 3 with
  | 1 => s.toVector n (fld r 11 13) (fld r 0 11)
  | 2 => s.toIntx (fld r 11 13)
  | 3 => s.toFw n
  | 4 => s.toTether n
  | 5 => s.toVector n (fld detail 51 13) (fld r 0 11)
  | _ => s

/-- An occurrence, possibly of several merged pulses, arrives at EVT: the count rises by every pulse so far, the detail and
time are those of the latest, it goes its route, to the Tether's watch and to the recorder (R32, R33, R426, R473). -/
def State.occurrence (s : State) (n : Nat) (detail time : DWord) : State :=
  let count := (s.delta (R.EVT_COUNT n)).toNat
  let s := (((s.deliverDelta (R.EVT_COUNT n)).wr (R.EVT_DETAIL n) detail).wr (R.EVT_TIME n) time)
  (((s.route n detail).fixedWire n).watch n count detail).recOccur n count detail

end Sys2Proof.Machine
end

