-- ==== Sys2Proof/Machine/HostWrite.lean ====
section
/-!
DEFINITION. Machine/HostWrite.lean: address translation and host memory writes (R228, R229, R245).
-/
namespace Sys2Proof.Machine
open Sys2Proof

/-- The cached translation of a page (R245). -/
def State.atcFind (s : State) (f : Nat) (pasid : Option (BitVec 20)) (page : BitVec 52) : Option AtcEntry :=
  s.hiu.atc.find? (fun e => e.func == f && e.pasid == pasid && e.page == page)

/-- A translation enters the cache of its host port, which holds 16,384; which entry gives way the spec leaves open. -/
def State.atcPut (s : State) (e : AtcEntry) : State :=
  let l := s.hiu.atc.filter (fun x => !(x.func == e.func && x.pasid == e.pasid && x.page == e.page))
  let mine := l.filter (fun x => x.port == e.port)
  let put := fun (s : State) (l : List AtcEntry) => { s with hiu := { s.hiu with atc := l ++ [e] } }
  if mine.length < 16384 then put s l
  else match mine[s.fresh.toNat % mine.length]? with
    | some x => put s.drew (l.filter (· ≠ x))
    | none => s

/-- A cached translation of a page leaves the cache. -/
def State.atcDrop (s : State) (f : Nat) (pasid : Option (BitVec 20)) (page : BitVec 52) : State :=
  { s with hiu := { s.hiu with atc := s.hiu.atc.filter (fun x => !(x.func == f && x.pasid == pasid && x.page == page)) } }

/-- The address that a request of function `f` is made with (R245): while ATS is enabled in it, the translation of its page,
from the cache where it is there with the permission needed, or asked of the host's translation agent; none where that refuses
it, which raises ATS_FAULT. What the agent answers to a write's request comes with no command: a free value stands for it (log
entry 94). A read's completion tells whether its translation was refused. -/
def State.translate (s : State) (f : Nat) (pasid : Option (BitVec 20)) (addr : DWord) (write : Bool) : State × Option DWord :=
  if !(s.fn f).ats then (s, some addr) else
  let page := BitVec.ofNat 52 (addr.toNat / 4096)
  let at_ := fun (phys : BitVec 52) => some (BitVec.ofNat 64 (phys.toNat * 4096 + addr.toNat % 4096))
  match (s.atcFind f pasid page).filter (fun e => e.write || !write) with
  | some e => (s, at_ e.phys)
  | none =>
    let v := s.fresh
    let e : AtcEntry := ⟨s.fnLink f / 2, f, pasid, page, BitVec.ofNat 52 (fld v 2 52), bit v 1⟩
    let s := s.drew.emit (.atsRequest f pasid addr write)
    if write && !(bit v 0 && bit v 1) then
      (s.raise 0x017 f ((pasid.map (fun p => p.toNat)).getD 0) 0x2061, none)
    else (s.atcPut e, at_ e.phys)

/-- The bytes the next write request of function `f` carries at `addr`: no more than its maximum payload, and none across a
4 KiB boundary (R228). -/
def State.writeBytes (s : State) (f : Nat) (addr : DWord) (left : Nat) : Nat :=
  min left (min (s.fn f).maxPayload (4096 - addr.toNat % 4096))

/-- Whether an IDE stream of link `k` is Insecure. -/
def State.insecure (s : State) (k : Nat) : Bool :=
  (List.range 4).any (fun i => mapGet (fun _ => 0) s.hiu.ide (k * 4 + i) == 2)

/-- What a TLP of link `k` does, discarded where its IDE stream is Insecure (R247). Which TLPs a stream carries the spec leaves
to the PCIe Base Specification: while a stream of the link is Insecure a free value tells (log entry 97). -/
def State.tlp (s : State) (k : Nat) (g : State → State) : State :=
  if !s.insecure k then g s else if bit s.fresh 0 then s.drew else g s.drew

/-- One write request goes out (R228, R229, R245): Relaxed Ordering is set on payload writes alone, while the function's Enable
Relaxed Ordering bit is 1. -/
def State.writeOne (s : State) (f : Nat) (pasid : Option (BitVec 20)) (addr : DWord) (data : Bytes) (payload : Bool) : State :=
  let k := s.fnLink f
  ((s.bump (R.HIU_WR_REQ_CNT k)).bumpN (R.HIU_WR_BYTE_CNT k) data.length).tlp k (fun s => s.emit
    (.hostWrite f pasid addr data (payload && (s.fn f).relaxed) (s.fn f).ats))

/-- The write requests of `data` in turn, up to one whose translation is refused; the bytes sent and whether one was. `fuel`
bounds the requests. -/
def State.writeGo (f : Nat) (pasid : Option (BitVec 20)) (payload : Bool) :
    Nat → State → DWord → Bytes → Nat → State × Nat × Bool
  | 0, s, _, _, sent => (s, sent, false)
  | fuel + 1, s, addr, data, sent =>
    if data.isEmpty then (s, sent, false) else
    match s.translate f pasid addr true with
    | (s, none) => (s, sent, true)
    | (s, some a) =>
      let n := max 1 (s.writeBytes f addr data.length)
      State.writeGo f pasid payload fuel (s.writeOne f pasid a (data.take n) payload) (addr + BitVec.ofNat 64 n)
        (data.drop n) (sent + n)

/-- A host memory write by the device for function `f`, as its requests (R228, R229). `payload`: the bytes are data, not a
completion entry or an index. -/
def State.hostWrite (s : State) (f : Nat) (pasid : Option (BitVec 20)) (addr : DWord) (data : Bytes) (payload : Bool) : State :=
  if (s.hostStop f).isSome then s else (State.writeGo f pasid payload data.length s addr data 0).1

/-- The bytes of such a write that are sent before it fails, all of them where it does not. -/
def State.writeSent (s : State) (f : Nat) (pasid : Option (BitVec 20)) (addr : DWord) (data : Bytes) : Nat :=
  if (s.hostStop f).isSome then 0 else (State.writeGo f pasid true data.length s addr data 0).2.1

/-- The status with which such a write fails (Table 10-5), if it does: its function may send no request now, or a translation
is refused. -/
def State.writeStop (s : State) (f : Nat) (pasid : Option (BitVec 20)) (addr : DWord) (data : Bytes) : Option Status :=
  match s.hostStop f with
  | some st => if data.isEmpty then none else some st
  | none => if (State.writeGo f pasid true data.length s addr data 0).2.2 then some 0x2061 else none

/-- A payload write with what comes of it: the bytes sent, and the status where it fails (R230). -/
def State.hostPut (s : State) (f : Nat) (pasid : Option (BitVec 20)) (addr : DWord) (data : Bytes) : State × Nat × Option Status :=
  (s.hostWrite f pasid addr data true, s.writeSent f pasid addr data, s.writeStop f pasid addr data)

end Sys2Proof.Machine
end

