-- ==== Sys2Proof/Machine/Reads.lean ====
section
/-!
DEFINITION. Machine/Reads.lean: host reads and their tags (R228, R230 to R233): sending a request, the reads that wait for a
tag, what a completion counts, and the reads whose outcome comes with the command that makes them.
-/
namespace Sys2Proof.Machine
open Sys2Proof

/-- The tags link `k` can have outstanding (R228): 4,096 for a host port, 2,048 for each link of a split one, fewer where the
partner takes narrower tags. -/
def State.tagLimit (s : State) (k : Nat) : Nat :=
  min (cond (bit s.hiu.hostSplit (k / 2)) 2048 4096) (2 ^ (s.link k).tagBits)

/-- The lowest number from `t` not in use; `fuel` bounds the search by the numbers in use. -/
def firstFree (used : List Nat) : Nat → Nat → Nat
  | 0, t => t
  | fuel + 1, t => if t ∈ used then firstFree used fuel (t + 1) else t

/-- A number below `limit` that is not among those used, where there is one. Which of them is taken the spec leaves open:
`pick` is a free value. -/
def pickFree (used : List Nat) (limit pick : Nat) : Option Nat :=
  let t := firstFree used used.length (pick % limit)
  let t := if t < limit then t else firstFree used used.length 0
  if t < limit then some t else none

/-- A tag of link `k` in no use, outstanding or quarantined. -/
def State.freeTag (s : State) (k : Nat) : Option Nat :=
  pickFree ((s.hiu.tags.filter (fun t => t.link == k)).map (fun t => t.tag)) (s.tagLimit k) (fld s.fresh 0 14)

/-- One request of a read: no longer than Max_Read_Request_Size, and across no 4 KiB boundary (R228). -/
def State.reqBytes (s : State) (r : HRead) : Nat :=
  min r.left (min (s.fn r.func).maxRead (4096 - r.addr.toNat % 4096))

/-- A request goes out under a tag. -/
def State.sendRequest (s : State) (k tag : Nat) (r : HRead) : State :=
  let n := s.reqBytes r
  let (s, a) := s.drew.translate r.func r.pasid r.addr false
  let t : HTag := ⟨k, tag, n, { r with addr := r.addr + BitVec.ofNat 64 n, left := r.left - n }, none⟩
  (({ s with hiu := { s.hiu with tags := s.hiu.tags ++ [t] } }).bump (R.HIU_RD_REQ_CNT k)).tlp k (fun s => s.emit
    (.hostRead r.func k tag r.pasid (a.getD r.addr) n (s.fn r.func).ats))

/-- A read goes on: its next request is sent, or waits for a tag. -/
def State.sendRead (s : State) (r : HRead) : State :=
  let k := s.fnLink r.func
  match s.freeTag k with
  | some t => s.sendRequest k t r
  | none => { s with hiu := { s.hiu with waitRead := s.hiu.waitRead ++ [r] } }

/-- The first of a list that satisfies `p`, and the list without it. -/
def takeFirst {α : Type} (p : α → Bool) : List α → Option (α × List α)
  | [] => none
  | a :: l => if p a then some (a, l) else (takeFirst p l).map (fun x => (x.1, a :: x.2))

/-- A tag of link `k` has become free: the read that has waited longest for one goes on. -/
def State.nextRead (s : State) (k : Nat) : State :=
  match takeFirst (fun (r : HRead) => s.fnLink r.func == k) s.hiu.waitRead, s.freeTag k with
  | some (r, rest), some t => ({ s with hiu := { s.hiu with waitRead := rest } }).sendRequest k t r
  | _, _ => s

/-- A tag returns to use. -/
def State.dropTag (s : State) (k tag : Nat) : State :=
  ({ s with hiu := { s.hiu with tags := s.hiu.tags.filter (fun t => !(t.link == k && t.tag == tag)) } }).nextRead k

/-- The outstanding request of a piece of work. -/
def State.tagOf (s : State) (o : DmaOwner) : Option HTag :=
  s.hiu.tags.find? (fun t => t.req.owner == o && t.quarUntil.isNone)

/-- The reads of a piece of work serve nothing any more. -/
def State.dropOwner (s : State) (o : DmaOwner) : State :=
  let drop := fun (q : HRead) => cond (q.owner == o) { q with owner := DmaOwner.gone } q
  { s with hiu := { s.hiu with
    tags := s.hiu.tags.map (fun (t : HTag) => { t with req := drop t.req }), waitRead := s.hiu.waitRead.map drop } }

/-- Whether a read of a piece of work is on its way, or waits for a tag. -/
def State.reads (s : State) (o : DmaOwner) : Bool := (s.tagOf o).isSome || s.hiu.waitRead.any (fun r => r.owner == o)

/-- The read requests of function `f` outstanding (Table 10-14). -/
def State.readsOut (s : State) (f : Nat) : Nat :=
  (s.hiu.tags.filter (fun t => t.req.func == f && t.quarUntil.isNone)).length

/-- An uncorrectable error logged in the AER registers of a function (Table 10-8). -/
def State.aerUncorr (s : State) (f b : Nat) : State :=
  (s.updFn f (fun h => { h with aerUncorr := setBit h.aerUncorr b true })).raise 0x016 f (s.fnLink f) b

/-- The counts and reports of a completion of function `f`: `n` bytes read, or the failure (R230, R245, Table 10-9). A
refused translation of the page at `addr` is not kept. A poisoned completion sets AER status bit 12, Poisoned TLP Received (PRESUMED from the PCIe Base Specification). -/
def State.cplCount (s : State) (f : Nat) (pasid : Option (BitVec 20)) (addr : DWord) (cpl : CplStatus) (n : Nat) : State :=
  let k := s.fnLink f
  match cpl with
  | .ok => s.bumpN (R.HIU_RD_BYTE_CNT k) n
  | .ur | .ca => s.bump (R.HIU_UR_CNT k)
  | .poisoned => (s.bump (R.HIU_UR_CNT k)).aerUncorr f 12
  | .refused =>
    (s.atcDrop f pasid (BitVec.ofNat 52 (addr.toNat / 4096))).raise 0x017 f ((pasid.map (fun p => p.toNat)).getD 0) 0x2061

/-- The completion timeout of Table 10-6 for a value, in ns. -/
def ctoNs (v : BitVec 4) : Nat :=
  match v.toNat with
  | 1 => 80000
  | 2 => 8000000
  | 5 => 40000000
  | 6 => 160000000
  | 9 => 600000000
  | 10 => 2500000000
  | 13 => 10000000000
  | 14 => 40000000000
  | _ => 16000000

/-- The completion timeout of function `f`; a VF uses that of its PF (R231). -/
def State.timeout (s : State) (f : Nat) : Nat := ctoNs (s.fn ((s.fnPf f).getD f)).cto

/-- How long the tags of `f` are held out of use (R232). -/
def State.quarNs (s : State) (f : Nat) : Nat := max (s.timeout f) 10000000

/-- The reports of a completion timeout of function `f` under a tag (R232). AER status bit 14 is Completion Timeout (PRESUMED
from the PCIe Base Specification). -/
def State.timedOut (s : State) (k f tag : Nat) : State :=
  ((s.bump (R.HIU_TIMEOUT_CNT k)).aerUncorr f 14).raise 0x010 f tag 0x4060

/-- Whether function `f` can send a read request now: nothing stops it, and a tag is free. -/
def State.canRead (s : State) (f : Nat) : Bool := (s.hostStop f).isNone && (s.freeTag (s.fnLink f)).isSome

/-- The requests of a read that one command makes and ends: each takes a tag, and gives it back before the next; the latest tag
is kept. `fuel` bounds the requests. -/
def State.readGo (f : Nat) (pasid : Option (BitVec 20)) : Nat → State → DWord → Nat → Nat → State × Nat
  | 0, s, _, _, tag => (s, tag)
  | fuel + 1, s, addr, left, tag =>
    if left = 0 then (s, tag) else
    let k := s.fnLink f
    let n := max 1 (s.reqBytes ⟨f, pasid, .gone, addr, left⟩)
    let tag := (s.freeTag k).getD tag
    let (s, a) := s.drew.translate f pasid addr false
    State.readGo f pasid fuel ((s.bump (R.HIU_RD_REQ_CNT k)).emit
      (.hostRead f k tag pasid (a.getD addr) n (s.fn f).ats)) (addr + BitVec.ofNat 64 n) (left - n) tag

/-- The status of Table 10-5 with which a read ends, none where its data has come. -/
def readStatus : ReadEnd → Option Status
  | .cpl .ok => none
  | .cpl c => some (cplFail c)
  | .timeout => some 0x4060
  | .ide _ => some 0x4064
  | .linkDown => some 0x4065

/-- A read of `len` bytes by function `f` whose requests and outcome both fall in one command (log entry 95): its requests go
out, and its end is counted and reported; a timeout holds the latest tag out of use (R232). What an IDE stream or a link that
fails does besides, State.readAfter says. -/
def State.readNow (s : State) (f : Nat) (pasid : Option (BitVec 20)) (addr : DWord) (len : Nat) (e : ReadEnd) : State :=
  let k := s.fnLink f
  let (s, tag) := State.readGo f pasid len s addr len 0
  match e with
  | .cpl c => s.cplCount f pasid addr c len
  | .timeout =>
    let t : HTag := ⟨k, tag, 0, ⟨f, pasid, .gone, addr, 0⟩, some (s.now + BitVec.ofNat 64 (s.quarNs f))⟩
    (({ s with hiu := { s.hiu with tags := s.hiu.tags ++ [t] } }).timedOut k f tag)
  | .ide _ | .linkDown => s

end Sys2Proof.Machine
end

