-- ==== Sys2Proof/Machine/Gcs.lean ====
section
/-!
DEFINITION. Machine/Gcs.lean: what every command of the Gleost Command Set shares (chapter 12): the catalogue with its
senders, the checks and their order, the order of commands within a channel, output and the response.
-/
namespace Sys2Proof.Machine
open Sys2Proof

/-- Who may send a command (R287). -/
inductive Who where
  | any | func | pf | mgr | sb | core
  deriving DecidableEq, Repr

/-- One catalogue entry (Tables 12-11 to 12-13): its code, its senders, whether it is version 2 only, and whether it has a
block. -/
structure CmdRow where
  code : Nat
  from_ : List Who
  v2 : Bool
  blk : Bool
  deriving DecidableEq, Repr

/-- The catalogue. -/
def catalogue : List CmdRow := [
  ⟨0x00, [.any], false, false⟩, ⟨0x01, [.any], false, false⟩, ⟨0x02, [.mgr, .sb, .core], false, false⟩,
  ⟨0x03, [.mgr, .sb, .core], false, true⟩, ⟨0x04, [.mgr], false, false⟩, ⟨0x08, [.mgr, .sb], false, true⟩,
  ⟨0x10, [.mgr], false, true⟩, ⟨0x11, [.mgr], false, false⟩, ⟨0x12, [.mgr], false, false⟩, ⟨0x13, [.mgr], false, false⟩,
  ⟨0x14, [.mgr], false, false⟩, ⟨0x15, [.mgr], false, false⟩, ⟨0x16, [.mgr], false, false⟩, ⟨0x17, [.mgr], false, false⟩,
  ⟨0x18, [.func], false, false⟩, ⟨0x20, [.func], false, true⟩, ⟨0x21, [.func], false, false⟩,
  ⟨0x22, [.func], false, false⟩, ⟨0x23, [.func], false, false⟩, ⟨0x24, [.mgr], false, false⟩,
  ⟨0x30, [.mgr], false, true⟩, ⟨0x31, [.mgr], false, false⟩, ⟨0x32, [.mgr], false, false⟩, ⟨0x33, [.mgr], false, false⟩,
  ⟨0x34, [.mgr], true, true⟩, ⟨0x35, [.mgr], false, true⟩, ⟨0x36, [.mgr], false, false⟩, ⟨0x37, [.mgr], false, false⟩,
  ⟨0x40, [.func, .sb], false, true⟩, ⟨0x41, [.func], false, true⟩, ⟨0x42, [.func], false, false⟩,
  ⟨0x43, [.mgr], false, false⟩, ⟨0x44, [.mgr], true, true⟩, ⟨0x45, [.mgr], false, true⟩, ⟨0x46, [.mgr], false, false⟩,
  ⟨0x50, [.mgr], false, false⟩, ⟨0x51, [.mgr], false, false⟩, ⟨0x52, [.mgr], false, false⟩, ⟨0x53, [.mgr], false, false⟩,
  ⟨0x54, [.mgr, .core], false, true⟩, ⟨0x58, [.mgr], false, true⟩, ⟨0x59, [.mgr], false, false⟩,
  ⟨0x5A, [.mgr], false, false⟩, ⟨0x5B, [.mgr, .sb], false, true⟩, ⟨0x5C, [.mgr], false, true⟩,
  ⟨0x60, [.pf], false, false⟩, ⟨0x61, [.mgr], false, true⟩, ⟨0x62, [.mgr], false, false⟩,
  ⟨0x68, [.func], false, true⟩, ⟨0x69, [.func], false, true⟩, ⟨0x6A, [.func], false, false⟩,
  ⟨0x6B, [.func], false, true⟩, ⟨0x6C, [.mgr], false, true⟩, ⟨0x6D, [.mgr], true, true⟩,
  ⟨0x6E, [.func], false, true⟩, ⟨0x6F, [.func], false, false⟩,
  ⟨0x70, [.mgr, .sb], true, true⟩, ⟨0x71, [.mgr, .sb], false, false⟩, ⟨0x72, [.mgr, .sb], false, false⟩,
  ⟨0x73, [.mgr, .sb], false, false⟩, ⟨0x74, [.any], false, true⟩, ⟨0x75, [.any], false, true⟩,
  ⟨0x80, [.mgr], false, true⟩, ⟨0x81, [.mgr], false, true⟩, ⟨0x82, [.mgr], false, true⟩]

def cmdRow (code : Nat) : Option CmdRow := catalogue.find? (fun r => r.code == code)

/-- The sideband's channel (Table 12-1). -/
def sbCh : Nat := 0x1120

/-- The Tether's channel (Table 12-1). -/
def tetherCh : Nat := 0x1110

/-- Whether a channel is a function's; its ID is then the function's FUNC. -/
def isFuncCh (ch : Nat) : Bool := decide (ch < 0x1008)

/-- The PF whose Kite line is the recovery Kite line: function number 0 on link 0 (R450). -/
def State.recoveryPf (s : State) : Option Nat := (List.range 8).find? (fun p => s.pfPresent p && s.pfLink p == 0)

/-- Whether a sender class admits the channel. -/
def State.admits (s : State) (ch : Nat) : Who → Bool
  | .any => true
  | .func => isFuncCh ch
  | .pf => decide (ch < 8)
  | .mgr => ch == s.manager
  | .sb => ch == sbCh
  | .core => decide (0x1100 ≤ ch) && decide (ch ≤ 0x1103)

/-- The codes Trailhead answers before handover (R450). -/
def pushCodes : List Nat := [0x00, 0x01, 0x70, 0x73, 0x74, 0x75]

/-- Whether the sender of a code is admitted: by the From column, or in RECOVERY by R450. -/
def State.maySend (s : State) (ch : Nat) (r : CmdRow) : Bool :=
  if s.kite.fw = .recovery ∨ s.kite.fw = .booting then decide (r.code ∈ pushCodes) && (ch == sbCh || s.recoveryPf == some ch)
  else r.from_.any (s.admits ch)

/-- Checks 1 to 4 of R503 on a command word; the status of the first that fails. -/
def State.wordCheck (s : State) (ch version code : Nat) : Option Status :=
  if version ≠ 1 ∧ version ≠ 2 then some 0x1081 else
  match cmdRow code with
  | none => some 0x1080
  | some r =>
    if !s.maySend ch r then some 0x2080
    else if r.v2 ∧ version = 1 then some 0x1084
    else none

def Kite.resetOf (ch : Nat) : Kite := if ch = sbCh then { Kite.reset with timeoutSet := 0 } else Kite.reset

/-- The Kite line page of a channel. -/
def State.page (s : State) (ch : Nat) : Kite := mapGet Kite.resetOf s.kite.page ch

def State.setPage (s : State) (ch : Nat) (k : Kite) : State :=
  { s with kite := { s.kite with page := mapSet Kite.resetOf s.kite.page ch k } }

def State.updPage (s : State) (ch : Nat) (g : Kite → Kite) : State := s.setPage ch (g (s.page ch))

/-- The commands of a channel that are taken and not answered, in the order taken. -/
def State.opened (s : State) (ch : Nat) : List OpenCmd := mapGet (fun _ => ([] : List OpenCmd)) s.kite.opened ch

def State.setOpened (s : State) (ch : Nat) (l : List OpenCmd) : State :=
  { s with kite := { s.kite with opened := mapSet (fun _ => []) s.kite.opened ch l } }

def State.rspQ (s : State) (ch : Nat) : List DWord := mapGet (fun _ => ([] : List DWord)) s.kite.rspQ ch

def State.setRspQ (s : State) (ch : Nat) (l : List DWord) : State :=
  { s with kite := { s.kite with rspQ := mapSet (fun _ => []) s.kite.rspQ ch l } }

/-- The response word (Table 12-7). -/
def rspWord (c : OpenCmd) (status : Status) (result : Nat) : DWord :=
  BitVec.ofNat 64 (at' c.code.toNat 56 + at' c.version.toNat 52 + at' c.seq.toNat 48 + at' status.toNat 32 +
    result % 4294967296)

/-- The argument bytes of a command's block, none for a command without one (Table 12-8). -/
def OpenCmd.args (c : OpenCmd) : Bytes := c.block.getD []

/-- The immediate argument (Table 12-6). -/
def OpenCmd.imm (c : OpenCmd) : Nat := c.arg.toNat

/-- Whether a version 1 block would carry arguments beyond byte 255 (R281). -/
def OpenCmd.tooLong (c : OpenCmd) (n : Nat) : Bool := c.version == 1 && decide (256 < n)

/-- The output bytes a command may write (Table 12-8, Table 12-15). -/
def outSpace (ch : Nat) (c : OpenCmd) : Nat :=
  if ch = sbCh then 1024 else if c.version = 2 then c.outLen else 3840

/-- A command's output written (R282): to host memory, or kept for the sideband's answer. -/
def State.output (s : State) (ch : Nat) (c : OpenCmd) (out : Bytes) : State :=
  if out.isEmpty then s
  else if ch = sbCh then { s with kite := { s.kite with sbOut := mapSet (fun _ => []) s.kite.sbOut c.seq.toNat out } }
  else if isFuncCh ch then s.hostWrite ch none c.outAddr out true
  else s.emit (.hostWrite ch none c.outAddr out false false)

/-- The command of sequence `seq` with those taken before it. -/
def findOpen (seq : BitVec 4) : List OpenCmd → List OpenCmd → Option (List OpenCmd × OpenCmd)
  | _, [] => none
  | before, c :: r => if c.seq = seq then some (before, c) else findOpen seq (before ++ [c]) r

/-- The first command that satisfies `p` of itself and of those taken before it. -/
def findTurn (p : List OpenCmd → OpenCmd → Bool) : List OpenCmd → List OpenCmd → Option OpenCmd
  | _, [] => none
  | before, c :: r => if p before c then some c else findTurn p (before ++ [c]) r

/-- Whether a command may begin (R283): version 1 and unknown versions behind no unanswered command, version 2 once every
earlier one has begun. -/
def OpenCmd.mayBegin (earlier : List OpenCmd) (c : OpenCmd) : Bool :=
  if c.version = 2 then earlier.all (fun e => e.begun) else earlier.isEmpty

/-- Whether a command that has begun may act (R283): with BARRIER, once no earlier command is unanswered. -/
def OpenCmd.mayAct (earlier : List OpenCmd) (c : OpenCmd) : Bool := c.begun && (!c.barrier || earlier.isEmpty)

/-- Whether a command may be answered (R283): in the order taken, but for the long ones it need not wait for. -/
def OpenCmd.mayAnswer (earlier : List OpenCmd) (c : OpenCmd) : Bool := c.mayAct earlier && earlier.all (fun e => e.waiting)

/-- An open command replaced. -/
def State.updOpen (s : State) (ch : Nat) (seq : BitVec 4) (g : OpenCmd → OpenCmd) : State :=
  s.setOpened ch ((s.opened ch).map (fun o => if o.seq = seq then g o else o))

/-- The response of one command is queued, or discarded where its function has been reset (R239, R251). No two open commands
of a channel have one sequence (R271, KL_TAKE). -/
def State.respond (s : State) (ch : Nat) (c : OpenCmd) (status : Status) (result : Nat) : State :=
  let s := s.setOpened ch ((s.opened ch).filter (fun o => o.seq != c.seq))
  if c.discard then s else s.setRspQ ch (s.rspQ ch ++ [rspWord c status result])

/-- Whether a code has a block. -/
def hasBlock (code : Nat) : Bool := match cmdRow code with
  | some r => r.blk
  | none => false

/-- The address of a command's block (Table 12-6). -/
def OpenCmd.blockAddr (c : OpenCmd) : Nat := at' c.arg.toNat 6

/-- Where the present read of a command's block lies in it, and its bytes (R279): a version 1 block at once, the header of a
version 2 block, or the rest of it. -/
def OpenCmd.blockPart (c : OpenCmd) : Nat × Nat :=
  if c.version = 1 then (0, 4096) else match c.head with
    | none => (0, 32)
    | some h => (32, leAt h 0 4 - 32)

/-- That read. -/
def blockReadOf (ch : Nat) (c : OpenCmd) : HRead :=
  ⟨ch, none, .block ch c.seq, BitVec.ofNat 64 (c.blockAddr + c.blockPart.1), c.blockPart.2⟩

/-- The present read of a block is sent, for a function that may send one; another channel's memory is the device's own. -/
def State.blockAsk (s : State) (ch : Nat) (c : OpenCmd) : State :=
  if !isFuncCh ch then s else match s.hostStop ch with
    | some st => s.updOpen ch c.seq (fun o => { o with verdict := some (st, 0) })
    | none => s.sendRead (blockReadOf ch c)

/-- Command `c` begins: its block is read (R283). -/
def State.begin_ (s : State) (ch : Nat) (c : OpenCmd) : State :=
  let s := s.updOpen ch c.seq (fun o => { o with begun := true })
  if c.verdict.isNone && c.block.isNone && hasBlock c.code.toNat then s.blockAsk ch c else s

/-- What has come due on a channel: commands begin, and answers that are decided are posted, each in its turn. -/
def State.settle (s : State) (ch : Nat) : Nat → State
  | 0 => s
  | n + 1 =>
    match findTurn (fun before c => !c.begun && c.mayBegin before) [] (s.opened ch) with
    | some c => (s.begin_ ch c).settle ch n
    | none =>
      match findTurn (fun before c => c.verdict.isSome && c.mayAnswer before) [] (s.opened ch) with
      | some c => (s.respond ch c (c.verdict.getD (0, 0)).1 (c.verdict.getD (0, 0)).2).settle ch n
      | none => s

/-- Steps that settle a channel: 16 commands, each begun and answered. -/
def settleFuel : Nat := 40

/-- The answer of command `c` is decided; it is posted once its turn comes. -/
def State.conclude (s : State) (ch : Nat) (c : OpenCmd) (status : Status) (result : Nat) : State :=
  (s.updOpen ch c.seq (fun o => { o with verdict := some (status, result), waiting := false })).settle ch settleFuel

/-- A command is answered: its output, its response, and then the answers that waited for it. An output write that fails leaves
the command's effect and answers it with its status and the bytes sent before (R282). -/
def State.answer (s : State) (ch : Nat) (c : OpenCmd) (status : Status) (result : Nat) (out : Bytes) : State :=
  match if isFuncCh ch then s.writeStop ch none c.outAddr out else none with
  | some st => (s.output ch c out).conclude ch c st (s.writeSent ch none c.outAddr out)
  | none => (s.output ch c out).conclude ch c status result

/-- How a command's own work ends: answered with status, result and output, or waiting for its end (L in the catalogue). -/
inductive Reply where
  | done (status : Status) (result : Nat) (out : Bytes)
  | wait
  deriving DecidableEq, Repr

/-- Answered with status 0x0000 and a result. -/
def Reply.ok (result : Nat) : Reply := .done 0 result []

/-- Answered with an output, RESULT giving its bytes (R282). -/
def Reply.out (b : Bytes) : Reply := .done 0 b.length b

/-- Answered with a status of another class. -/
def Reply.no (status : Status) : Reply := .done status 0 []

/-- GCS_BAD_ARG (R278). -/
def Reply.badArg : Reply := .no 0x1082

/-- GCS_DENIED (R287). -/
def Reply.denied : Reply := .no 0x2080

/-- FN_NOT_OWNED (R265). -/
def Reply.notOwned : Reply := .no 0x2071

/-- A command that waits for its end. -/
def State.markWaiting (s : State) (ch : Nat) (seq : BitVec 4) : State :=
  (s.updOpen ch seq (fun o => { o with waiting := true })).settle ch settleFuel

/-- The block objects an open command may write, as kind, first and count, for the commands that parties of two channels may
send: rings, traffic manager objects, Milepost time, peer windows, queue pairs, controllers, security associations and the image
slots (R284, R287). A block still to be read may name any. -/
def OpenCmd.object (c : OpenCmd) : Option (Nat × Nat × Nat) :=
  let of := fun (kind : Nat) (f : Bytes → Nat × Nat) => match c.block with
    | some b => some (kind, f b)
    | none => some (kind, 0, 4294967296)
  match c.code.toNat with
  | 0x21 | 0x22 | 0x23 | 0x24 => some (1, fld c.arg 0 20, 1)
  | 0x41 => match c.block with
    | some b => some (16 + leAt b 0 1, leAt b 4 4, leAt b 8 4)
    | none => some (2, 0, 4294967296)
  | 0x42 => some (16 + fld c.arg 24 4, fld c.arg 0 24, 1)
  | 0x54 => some (3, 0, 1)
  | 0x60 => some (4, fld c.arg 20 6, 1)
  | 0x61 => of 4 (fun b => (8 * leAt b 0 1, 8))
  | 0x69 => of 5 (fun b => (leAt b 0 4 % 262144, 1))
  | 0x6A => some (5, c.arg.toNat % 262144, 1)
  | 0x6B => of 6 (fun b => (leAt b 0 2, 1))
  | 0x6E => of 7 (fun b => (leAt b 0 4, 1))
  | 0x6F => some (7, c.arg.toNat, 1)
  | 0x70 | 0x71 | 0x72 | 0x73 => some (8, 0, 1)
  | _ => none

/-- Whether two commands may write the same block object; a TM_WRITE whose block is still to be read may name any kind. -/
def OpenCmd.clash (a b : OpenCmd) : Bool := match a.object, b.object with
  | some (k, i, n), some (k', i', n') =>
    (k == k' && decide (i < i' + n') && decide (i' < i + n)) || (k == 2 && decide (16 ≤ k')) || (k' == 2 && decide (16 ≤ k))
  | _, _ => false

/-- Whether no other channel holds a command, taken before `c` and still to act, that writes an object `c` writes (R284). -/
def State.objectFree (s : State) (ch : Nat) (c : OpenCmd) : Bool :=
  s.kite.opened.all (fun e => e.1 == ch || e.2.all (fun o =>
    decide (c.order ≤ o.order) || o.verdict.isSome || o.waiting || !o.clash c))

/-- Whether a command of code `code` can run now: not answered by a check, not already waiting, in its turn, its block
read. -/
def OpenCmd.readyFor (c : OpenCmd) (before : List OpenCmd) (code : Nat) : Bool :=
  c.code.toNat == code && !c.waiting && c.verdict.isNone && c.mayAct before &&
    (match cmdRow code with
     | some r => !r.blk || c.block.isSome
     | none => false)

/-- The command of code `code` that channel `ch` holds open under `seq` runs, if its turn has come and its block has been
read: its effect, its output if there is room for it, its response (R282, R283, R503). `pick` lets a command whose code
covers several rows of the table run in its own row only. An earlier command of another channel that writes the same object
acts first (R284). -/
def State.gcsPick (s : State) (ch : BitVec 13) (seq : BitVec 4) (code : Nat) (pick : OpenCmd → Bool)
    (body : State → OpenCmd → State × Reply) : State :=
  let ch := ch.toNat
  match findOpen seq [] (s.opened ch) with
  | none => s
  | some (before, c) =>
    if !c.readyFor before code || !s.objectFree ch c || !pick c then s
    else
      let (s', r) := body s c
      match r with
      | .wait => s'.markWaiting ch seq
      | .done st res out =>
        if outSpace ch c < out.length then s.answer ch c 0x3080 out.length []
        else s'.answer ch c st res out

/-- As `gcsPick`, for a command with a row of its own. -/
def State.gcs (s : State) (ch : BitVec 13) (seq : BitVec 4) (code : Nat) (body : State → OpenCmd → State × Reply) : State :=
  s.gcsPick ch seq code (fun _ => true) body

/-- A command that waited for its end is answered. -/
def State.finish (s : State) (who : Option (Nat × Nat)) (status : Status) (result : Nat) : State :=
  match who with
  | none => s
  | some (ch, seq) =>
    match (s.opened ch).find? (fun c => c.seq.toNat == seq && c.waiting) with
    | none => s
    | some c => s.answer ch c status result []

end Sys2Proof.Machine
end

