-- ==== Sys2Proof/Machine/BootCore.lean ====
section
/-!
DEFINITION. Machine/BootCore.lean: images, the slot ledger, the checks and measurements, the boot sources and the handover
(R440 to R453).
-/
namespace Sys2Proof.Machine
open Sys2Proof

/-- Where a slot begins: A, B and G in flash, the staging buffer in HBM (Tables 20-1, 20-12). -/
def slotBase : Nat → Nat
  | 0 => 0x100000 | 1 => 0x4100000 | 2 => 0 | _ => 0x2CC000000

/-- Bytes of the image in a slot: 0 A, 1 B, 2 G, 3 staging. -/
def State.imgBytes (s : State) (slot off n : Nat) : Bytes :=
  if slot < 2 then s.flashRead (slotBase slot + off) n
  else if slot = 2 then mapGetList erased s.boot.flash1 off n
  else s.hbmRead (slotBase slot + off) n

/-- A field of an image (Table 20-3). -/
def State.imgField (s : State) (slot off len : Nat) : Nat := leNat (s.imgBytes slot off len)

def State.imgSegs (s : State) (slot : Nat) : Nat := s.imgField slot 6 2

def State.imgKey (s : State) (slot : Nat) : Nat := s.imgField slot 14 1

def State.imgSvn (s : State) (slot : Nat) : Nat := s.imgField slot 16 4

/-- LENGTH_S: the trial length of an image (Table 20-3, R430). -/
def State.imgTrial (s : State) (slot : Nat) : Nat :=
  let t := s.imgField slot 12 2
  if t = 0 then 120 else t

/-- LENGTH of a segment (Table 20-4). -/
def State.segLen (s : State) (slot n : Nat) : Nat := s.imgField slot (516 + 8 * n) 3 % 131072

/-- The bytes of a segment. -/
def State.segBytes (s : State) (slot n : Nat) : Bytes := s.imgBytes slot (65536 * (n + 1)) (s.segLen slot n)

/-- The record of segment `n` of `segs`, well formed (Table 20-4). -/
def State.segOk (s : State) (slot segs n : Nat) : Bool :=
  let len := s.segLen slot n
  decide (s.imgField slot (516 + 8 * n) 3 < 131072) &&
    (if n + 1 < segs then len == 65536 else decide (1 ≤ len) && decide (len ≤ 65536)) &&
    decide (4 ≤ s.imgField slot (519 + 8 * n) 1) && decide (s.imgField slot (519 + 8 * n) 1 ≤ 7)

/-- Check 1 of Table 20-5: MAGIC, FORMAT, lengths, ranges and reserved fields. -/
def State.headerOk (s : State) (slot : Nat) : Bool :=
  let f := s.imgField slot
  let segs := s.imgSegs slot
  let zero := fun off n => allZero (s.imgBytes slot off n)
  f 0 4 == 0x57484C54 && f 4 2 == 1 && decide (1 ≤ segs) && decide (segs ≤ 1023) &&
    (List.range segs).all (s.segOk slot segs) &&
    f 8 4 == 65536 * (segs - 1) + s.segLen slot (segs - 1) &&
    (f 12 2 == 0 || (decide (30 ≤ f 12 2) && decide (f 12 2 ≤ 600))) &&
    decide (f 14 1 ≤ 7) && decide (f 15 1 ≤ 1) && decide (f 16 4 ≤ 64) && !(f 20 1).testBit (f 14 1) &&
    f 32 4 % 4 == 0 && decide (f 32 4 < f 8 4) &&
    zero 21 3 && zero 36 28 && zero 112 304 && zero (512 + 8 * segs) (16384 - (512 + 8 * segs)) && zero 17152 48384

/-- Check 2 of Table 20-5. -/
def State.crcsOk (s : State) (slot : Nat) : Bool :=
  (List.range (s.imgSegs slot)).all (fun n => (crc32c (s.segBytes slot n)).toNat == s.imgField slot (512 + 8 * n) 4)

/-- The header bytes a signature covers (R443). -/
def State.signedBytes (s : State) (slot : Nat) : Bytes :=
  s.imgBytes slot 0 416 ++ s.imgBytes slot 512 (8 * s.imgSegs slot)

/-- Whether the part acts as ENFORCED (R445). -/
def State.enforced (s : State) : Bool := s.boot.fuse.trust && s.boot.fuse.sec != 0

/-- Checks 3 to 7 of Table 20-5, whether each has failed, with its status. -/
def State.findings (s : State) (slot : Nat) : List (Bool × Status) :=
  let fuse := s.boot.fuse
  let manifest := s.imgBytes slot 16384 768
  let key := slice manifest (96 * s.imgKey slot) 96
  [ (bytesBv 384 (s.imgBytes slot 64 48) != Config.sha384 (s.imgBytes slot 65536 (s.imgField slot 8 4)), 0x20E4),
    (!fuse.manifestSet || Config.sha384 manifest != fuse.manifest, 0x20E3),
    (!Config.ecdsaVerify (bytesBv 768 key) (Config.sha384 (s.signedBytes slot)) (bytesBv 768 (s.imgBytes slot 416 96)),
      0x20E0),
    (bit fuse.revoked (s.imgKey slot), 0x20E1),
    (decide (s.imgSvn slot < fuse.svn), 0x20E2) ]

/-- FINDINGS of Table 20-7. -/
def findingBits : List (Bool × Status) → Nat
  | [] => 0
  | (b, _) :: r => b2n b + 2 * findingBits r

/-- IMAGE_CHECK (R444, Table 20-5): the status that refuses an image under the trust mode, or what is reported. -/
def State.imageCheck (s : State) (slot : Nat) : Option Status × Nat :=
  if !s.headerOk slot then (some 0x10E0, 0)
  else if !s.crcsOk slot then (some 0x10E1, 0)
  else
    let f := s.findings slot
    match f.find? (fun e => e.1 && s.enforced) with
    | some e => (some e.2, 0)
    | none => (none, findingBits f)

/-- A ledger copy as flash holds it (Table 20-9). -/
def State.ledgerCopy (s : State) (i : Nat) : Bytes := s.flashRead (65536 * i) 256

/-- Whether a ledger copy's MAGIC and CRC pass (R451). -/
def ledgerGood (b : Bytes) : Bool := leAt b 0 4 == 0x4C444752 && (crc32c (b.take 252)).toNat == leAt b 252 4

def ledgerSeq (b : Bytes) : Nat := leAt b 4 4

/-- The copy that is current: of those that pass, the one with the higher SEQ (R451). -/
def State.ledgerNow (s : State) : Option Nat :=
  match ledgerGood (s.ledgerCopy 0), ledgerGood (s.ledgerCopy 1) with
  | true, true => some (if ledgerSeq (s.ledgerCopy 0) < ledgerSeq (s.ledgerCopy 1) then 1 else 0)
  | true, false => some 0
  | false, true => some 1
  | false, false => none

/-- The current ledger; where neither copy passes every slot reads EMPTY (R451). -/
def State.ledger (s : State) : Bytes := match s.ledgerNow with
  | some i => s.ledgerCopy i
  | none => List.replicate 256 0

/-- STATE of a slot in a ledger record (Table 20-10). -/
def slotState (b : Bytes) (slot : Nat) : Nat :=
  let x := (byteAt b (16 + 64 * slot)).toNat
  if x ≤ 4 then x else 0

/-- FLAGS of a slot in a ledger record. -/
def slotFlags (b : Bytes) (slot : Nat) : Byte := byteAt b (17 + 64 * slot)

/-- A ledger record with STATE and FLAGS of a slot replaced. -/
def slotPut (b : Bytes) (slot st flags : Nat) : Bytes := patch b (16 + 64 * slot) [BitVec.ofNat 8 st, BitVec.ofNat 8 flags]

/-- BOOT_LEDGER shows the current ledger (Table 20-16). -/
def State.ledgerShown (s : State) : State :=
  let b := s.ledger
  s.wr R.BOOT_LEDGER (BitVec.ofNat 64 (at' (ledgerSeq b % 65536) 16 + at' (slotState b 2) 8 + at' (slotState b 1) 4 + slotState b 0))

/-- A read of the ledger: each copy that fails is counted and raised (R451). -/
def State.ledgerFind (s : State) : State :=
  (s.each [0, 1] (fun s i => s.if_ (!ledgerGood (s.ledgerCopy i)) (fun s =>
    (s.bump R.BOOT_LEDGER_BAD_CNT).raise 0x7C6 noFunc i (ledgerSeq (s.ledgerCopy i) % 65536)))).ledgerShown

/-- A ledger write (R451): the sector of the older valid copy, or one without a valid copy, is erased and the record programmed
with SEQ one above the newer copy. The spec gives no SEQ and no choice of sector where no copy is valid: both are free
then. -/
def State.ledgerWrite (s : State) (b : Bytes) : State :=
  let free := s.fresh
  let i := match s.ledgerNow with
    | some i => 1 - i
    | none => fld free 0 1
  let seq := match s.ledgerNow with
    | some i => (ledgerSeq (s.ledgerCopy i) + 1) % 4294967296
    | none => fld free 1 32
  let body := leBytes 4 0x4C444752 ++ leBytes 4 seq ++ leBytes 4 s.hour ++ leBytes 4 0 ++ slice (padTo 256 b) 16 192 ++
    List.replicate 44 0
  let s := s.drew
  let flash := mapSetList erased (mapClear s.boot.flash0 (65536 * i) (65536 * (i + 1))) (65536 * i)
    (body ++ leBytes 4 (crc32c body).toNat)
  { s with boot := { s.boot with flash0 := flash } }.ledgerShown

/-- BOOT_SRC_RESULT of a source: its latest attempt's status, tried (Table 20-16). -/
def State.srcResult (s : State) (src : Nat) (st : Status) : State :=
  s.wr (R.BOOT_SRC_RESULT src) (BitVec.ofNat 64 (at' st.toNat 16 + 1))

/-- An image examined (R444): counted in ATTEMPTS; where it is refused, counted, raised and shown with its source. -/
def State.examine (s : State) (src slot : Nat) : State × Bool × Nat :=
  let s := s.wrf R.BOOT_STATUS 8 8 (satTo 255 (s.rdf R.BOOT_STATUS 8 8 + 1))
  match s.imageCheck slot with
  | (some st, _) =>
    (((s.bump R.BOOT_REFUSED_CNT).raise 0x7C0 noFunc (4 * src + slot) st.toNat).srcResult src st, false, 0)
  | (none, f) => (s.srcResult src 0, true, f)

/-- FUSE_BLOW (R446): under ENFORCED, the REVOKE bits of the image, then SVN fuses up to its SVN where SVN_COMMIT is 1. -/
def State.fuseBlow (s : State) (slot : Nat) : State :=
  if !s.enforced then s else
  let old := s.boot.fuse
  let svn := if s.imgField slot 15 1 % 2 = 1 ∧ old.svn < s.imgSvn slot then s.imgSvn slot else old.svn
  let new := { old with revoked := old.revoked ||| BitVec.ofNat 8 (s.imgField slot 20 1), svn := svn }
  if new = old then s
  else { s with boot := { s.boot with fuse := new } }.raise 0x7C5 noFunc svn new.revoked.toNat

/-- The boot verdict (Table 20-7). -/
def State.verdictOf (s : State) (src slot : Nat) (trial : Bool) (f : Nat) : DWord :=
  let fuse := s.boot.fuse
  BitVec.ofNat 64 (at' fuse.svn 48 + at' (s.imgSvn slot) 40 + at' fuse.revoked.toNat 32 + at' (s.imgKey slot) 24 + at' f 16 +
    at' (src + at' slot 2 + at' (b2n trial) 4) 8 + b2n fuse.trust + at' fuse.sec.toNat 1)

/-- BOOT_FUSE (Table 20-18). -/
def Fuses.word (f : Fuses) : Word := BitVec.ofNat 32 (
  at' (b2n f.trust) 31 + at' (b2n f.orderOverride) 30 + at' f.order.toNat 27 + at' f.revoked.toNat 16 +
    at' (b2n f.manifestSet) 7 + f.svn % 128)

/-- The handover (R441): the image measured (Table 20-6), its payload loaded, outstanding fuses of a CONFIRMED slot blown
(R446), the measurement slots locked, and the jump. An image pushed in RECOVERY takes STATE to STARTING (Table 12-14). The ms
from Trailhead's start are free. -/
def State.handOver (s : State) (src slot : Nat) (trial : Bool) (f : Nat) : State :=
  let s := if slot < 2 ∧ slotState s.ledger slot = 3 then s.fuseBlow slot else s
  let v := s.verdictOf src slot trial f
  let signed := Config.sha384 (s.signedBytes slot)
  let s := if s.boot.handed then s else s.extend 2 none none (Config.sha384 (s.imgBytes slot 16384 768))
  let s := if slot = 3 then s.extend 15 (some 1) none signed else s
  let s := s.extend 3 none (some v) signed
  let s := s.each (List.range (s.imgSegs slot)) (fun s n =>
    s.extend (s.imgField slot (519 + 8 * n) 1) none none (Config.sha384 (s.segBytes slot n)))
  let s := s.hbmPut 0x2C0000000 (s.imgBytes slot 65536 (s.imgField slot 8 4))
  let status := at' 3 28 + at' src 26 + at' slot 24 + at' (b2n trial) 23 + at' (b2n (f.testBit 3)) 22 +
    at' (b2n (f.testBit 4)) 21 + at' (b2n (f.testBit 0)) 20 + at' (b2n (f.testBit 1 || f.testBit 2)) 19 +
    at' (s.imgKey slot % 8) 16 + at' (s.rdf R.BOOT_STATUS 8 8) 8 + s.imgSvn slot % 128
  let s := ((s.wr R.BOOT_STATUS (BitVec.ofNat 64 status)).wr R.BOOT_MEAS_LOCK 1).wr R.BOOT_TIME_MS
    (BitVec.ofNat 64 (fld s.fresh 0 16))
  let s := s.drew
  { s with
    boot := { s.boot with
      running := some slot, verdict := v, handed := true, sourcesLeft := [], pushFrom := none, pushBegun := false
      activate := none }
    kite := { s.kite with
      fw := if s.kite.fw = .recovery then .starting else s.kite.fw
      fwBuild := BitVec.ofNat 24 (s.imgField slot 24 3) } }

/-- Whether the Tether's trial watchdog is armed (Table 19-11). -/
def State.trialArmed (s : State) : Bool := s.rdf R.TETHER_TRIAL 30 2 == 1

/-- BOOT_TRIAL shows a trial, and the Tether arms from it, unless it is armed already (R430, R453). -/
def State.trialStart (s : State) (slot len : Nat) (fresh : Bool) : State :=
  let s := s.wr R.BOOT_TRIAL (BitVec.ofNat 64 (at' 1 31 + at' slot 28 + len))
  if !fresh then s else
  let s := s.raise 0x7C2 noFunc slot len
  let s := { s with tether := { s.tether with trialMs := len * 1000 } }
  s.wr R.TETHER_TRIAL (BitVec.ofNat 64 (at' 1 30 + at' (s.rdf R.TETHER_TRIAL 28 2) 28 + at' (len * 250) 10 + len))

/-- Source 0 with the CONFIRMED slot (R453); whether an image runs. -/
def State.tryConfirmed (s : State) : State × Bool :=
  match [0, 1].find? (fun i => slotState s.ledger i == 3) with
  | none => (s, false)
  | some c =>
    let (s, good, f) := s.examine 0 c
    if good then (s.handOver 0 c false f, true) else (s, false)

/-- Source 0 (R449, R453): the CANDIDATE first, when its trial is unused or still armed; then the CONFIRMED slot. -/
def State.tryPrimary (s : State) : State × Bool :=
  match [0, 1].find? (fun i => slotState s.ledger i == 2) with
  | none => s.tryConfirmed
  | some c =>
    let used := bit (slotFlags s.ledger c) 0
    if used && !s.trialArmed then
      ((s.ledgerWrite (slotPut s.ledger c 4 ((slotFlags s.ledger c).toNat ||| 2))).raise 0x7C4 noFunc c 0).tryConfirmed
    else
      let (s, good, f) := s.examine 0 c
      if !good then (s.ledgerWrite (slotPut s.ledger c 4 ((slotFlags s.ledger c).toNat ||| 4))).tryConfirmed
      else
        let s := if used then s else s.ledgerWrite (slotPut s.ledger c 2 ((slotFlags s.ledger c).toNat ||| 1))
        ((s.trialStart c (s.imgTrial c) (!used)).handOver 0 c true f, true)

/-- Source 1 (R449): slot G, where the ledger shows it CONFIRMED or its header passes check 1. -/
def State.tryGolden (s : State) : State × Bool :=
  if slotState s.ledger 2 ≠ 3 ∧ !s.headerOk 2 then (s, false) else
  let (s, good, f) := s.examine 1 2
  if good then (s.handOver 1 2 false f, true) else (s, false)

/-- Trailhead waits for a push on the recovery Kite line: CFG_READY of link 0 (R450). -/
def State.presentRecovery (s : State) : State := s.if_ (s.link 0).dlUp (fun s => s.wrf (R.HIU_LINK_CFG 0) 0 1 1)

/-- RECOVERY (R449): M15 with kind 2, the event with the number of sources tried, and a wait without limit on both paths. -/
def State.enterRecovery (s : State) : State :=
  let tried := ((List.range 4).filter (fun i => bit (s.rd (R.BOOT_SRC_RESULT i)) 0)).length
  let s := s.extend 15 (some 2) none 0
  let s := (s.wrf R.BOOT_STATUS 28 4 2).raise 0x7C1 noFunc tried 0
  ({ s with
    boot := { s.boot with sourcesLeft := [], pushFrom := none, pushBegun := false }
    kite := { s.kite with fw := .recovery } }).presentRecovery

/-- The sources of the list in order (R449): the first image that passes boots, a push source is waited on, and the end of the
list is RECOVERY. A flash that does not answer SFDP gives its source BOOT_FLASH_ERROR (Table 20-14). -/
def State.trySources (s : State) : List Nat → State
  | [] => s.enterRecovery
  | src :: rest =>
    if 2 ≤ src then
      let s := s.srcResult src 0
      let s := { s with boot := { s.boot with sourcesLeft := rest, pushFrom := some src, pushBegun := false } }
      if src = 2 then s.presentRecovery else s
    else if !bit s.boot.flashOk src then (s.srcResult src 0xF0E0).trySources rest
    else
      let s := s.srcResult src 0
      let (s', booted) := if src = 0 then s.tryPrimary else s.tryGolden
      if booted then s' else s'.trySources rest

/-- The source lists of Table 20-8. -/
def sourceList : Nat → List Nat
  | 0 => [0, 1, 2, 3] | 1 => [0, 1] | 2 => [1, 0] | 3 => [0, 2, 3]
  | 4 => [2, 0, 1] | 5 => [3, 0, 1] | 6 => [0] | _ => [2, 3]

/-- What Trailhead measures before it searches, once after a cold or warm reset: the ROM, the 32-byte fuse record and the
device configuration record (Table 20-6). -/
def State.measureStart (s : State) : State :=
  if s.boot.handed then s else
  let fuse := s.boot.fuse
  let rec32 := bvBytes fuse.word ++ leBytes 4 fuse.sec.toNat ++ (bvBytes fuse.manifest).take 24
  let cfg := match (if bit s.boot.flashOk 0 then s.cfgRecord else none) with
    | some b => Config.sha384 b
    | none => 0
  ((s.extend 0 none none Config.romDigest).extend 1 none none (Config.sha384 rec32)).extend 10 none none cfg

/-- Trailhead from its start (R440, R441, R448). -/
def State.trailhead (s : State) (answers : BitVec 2) : State :=
  let s := { s with
    kite := { s.kite with fw := .booting }
    boot := { s.boot with flashOk := answers, running := none, pushFrom := none, activate := none } }
  let s := s.wrf R.BOOT_STATUS 28 4 1
  let fuse := s.boot.fuse
  let code := if fuse.orderOverride then fuse.order.toNat else s.boot.strapOrder.toNat
  let s := s.wr R.BOOT_ORDER_USED (BitVec.ofNat 64 (at' (b2n fuse.orderOverride) 3 + code))
  let s := s.measureStart
  let s := if bit answers 0 then s.ledgerFind else s
  s.trySources (sourceList code)

/-- The source whose push a channel carries: the recovery Kite line or the sideband (R448, R450). -/
def pushSource (ch : Nat) : Nat := if ch = sbCh then 3 else 2

/-- Whether Trailhead answers a push on this channel now (R449, R450). -/
def State.pushOn (s : State) (ch : Nat) : Bool :=
  (ch == sbCh || s.recoveryPf == some ch) &&
    (s.kite.fw == .recovery || (s.kite.fw == .booting && s.boot.pushFrom == some (pushSource ch)))

/-- A pushed image examined on a channel's FW_ACTIVATE: refused, the list goes on, for a push awaited within it (R449). -/
def State.pushRefused (s : State) : State :=
  if s.boot.pushFrom.isNone then s else
  let s := { s with boot := { s.boot with pushFrom := none, pushBegun := false } }
  s.trySources s.boot.sourcesLeft

end Sys2Proof.Machine
end

