-- ==== Sys2Proof/Machine/Kite.lean ====
section
/-!
DEFINITION. Machine/Kite.lean: the Kite line pages and the firmware's states (R268 to R293).
-/
namespace Sys2Proof.Machine
open Sys2Proof

/-- The timeout in force on a page (Table 12-4): 0 on the sideband page and during maintenance. -/
def State.effective (s : State) (ch : Nat) : Nat :=
  let t := (s.page ch).timeoutSet.toNat
  if ch = sbCh ∨ s.kite.fw = .maintenance then 0 else if t = 0 then 10 else if 1000 < t then 1000 else t

/-- KL_FW_STATUS (Table 12-5). -/
def State.fwStatus (s : State) : Word :=
  BitVec.ofNat 32 (at' s.kite.fw.code.toNat 29 + at' s.kite.expectMs.toNat 8 + s.kite.fwGen.toNat)

/-- FUNC of a Kite line event: the channel's function, none for the other parties (R293). -/
def chFunc (ch : Nat) : Nat := if isFuncCh ch then ch else noFunc

/-- Memory Space Enable of a function: that of its Command register, or VF MSE of its PF's SR-IOV control, bit 3 (PRESUMED from
the PCIe Base Specification). -/
def State.memOn (s : State) (f : Nat) : Bool :=
  if f < 8 then (s.fn f).mse else match s.fnPf f with
    | some p => bit (mapGet (fun _ => (0 : Word)) (s.fn p).cfgRw (cfgKey .sriovControl)) 3
    | none => false

/-- A write by function `f` to its BARs reaches the device: discarded and counted while the function is in FLR or port reset
(R239, R241), lost where the function, its link or its Memory Space Enable does not let it in. -/
def State.barWrite (s : State) (f : Nat) (g : State → State) : State :=
  if !s.exists_ f || !(s.link (s.fnLink f)).dlUp then s
  else if (s.fn f).flr then s.bump (R.HIU_INBOUND_DISCARD_CNT (s.fnLink f))
  else if !s.memOn f then s
  else s.tlp (s.fnLink f) g

/-- A read by function `f`'s host of its BARs: Unsupported Request while the function is in FLR or port reset, counted
(R241), and where its memory space is off (PRESUMED from the PCIe Base Specification). -/
def State.barRead (s : State) (f : Nat) (g : State → State) : State :=
  if !s.exists_ f || !(s.link (s.fnLink f)).dlUp then s
  else if (s.fn f).flr then (s.bump (R.HIU_INBOUND_DISCARD_CNT (s.fnLink f))).emit (.completion f 1 [])
  else if !s.memOn f then s.emit (.completion f 1 [])
  else s.tlp (s.fnLink f) g

/-- A write by the party of channel `ch` to its page. -/
def State.pageWrite (s : State) (ch : Nat) (g : State → State) : State :=
  if isFuncCh ch then s.barWrite ch g else g s

/-- KL_CMD_STAGE: bits [31:0] are staged and nothing is posted (R270). -/
def execKlCmdStage (ch : BitVec 13) (v : Word) (s : State) : Res :=
  .next (s.pageWrite ch.toNat (fun s => s.updPage ch.toNat (fun k => { k with staged := v })))

/-- The word a write to KL_CMD posts: the written 64 bits, or the staged low half with the written high half (R270). -/
def postedWord (k : Kite) (v : DWord) (half : Bool) : DWord :=
  if half then BitVec.ofNat 64 (at' (v.toNat % 4294967296) 32 + k.staged.toNat) else v

/-- A post, or its refusal (R270, R271). -/
def State.klPost (s : State) (ch : Nat) (v : DWord) (half : Bool) : State :=
  let k := s.page ch
  let w := postedWord k v half
  let seq := fld w 48 4
  if k.cmd.isSome then
    (s.setPage ch { k with overrun := true, overrunCnt := k.overrunCnt + 1 }).raise 0x061 (chFunc ch) ch 0
  else if bit k.seqOpen seq then
    (s.setPage ch { k with seqConflict := true, overrunCnt := k.overrunCnt + 1 }).raise 0x061 (chFunc ch) ch 1
  else
    s.setPage ch { k with
      cmd := some w, cmdSeq := BitVec.ofNat 4 seq, cmdCode := BitVec.ofNat 8 (fld w 56 8), postTime := s.now
      staged := 0 }

/-- KL_CMD_POST. A 64-bit post uses the staged half up as well (R270: "a post that is accepted"). -/
def execKlCmdPost (ch : BitVec 13) (v : DWord) (half : Bool) (s : State) : Res :=
  .next (s.pageWrite ch.toNat (fun s => s.klPost ch.toNat v half))

/-- Whether the firmware or Trailhead takes a word of this code from this channel now (R272, R289, R290, R450). -/
def State.takes (s : State) (ch code : Nat) : Bool :=
  match s.kite.fw with
  | .running => true
  | .maintenance => code == 0 || code == 1
  | _ => s.pushOn ch

/-- The fields of a version 2 block's header: LENGTH, BARRIER, OUT_ADDR, OUT_LEN, where it passes the checks of R280 but that of
the CRC, which needs the rest of the block. -/
def v2Header (b : Bytes) : Option (Nat × Bool × DWord × Nat) :=
  let len := leAt b 0 4
  let flags := byteAt b 4
  let outAddr := leAt b 8 8
  let outLen := leAt b 16 4
  if len < 32 ∨ 65536 < len ∨ outAddr % 8 ≠ 0 ∨ 16777216 < outLen ∨ fld flags 2 6 ≠ 0 ∨
      !allZero (slice b 5 3) ∨ !allZero (slice b 24 8) then none
  else some (len, bit flags 0, BitVec.ofNat 64 outAddr, outLen)

/-- The CRC check of a version 2 block: its header, and its bytes from 32 on (R280). -/
def v2Crc (head body : Bytes) : Bool := !bit (byteAt head 4) 1 || (crc32c body).toNat == leAt head 20 4

/-- A command with its version 1 block (R280). -/
def OpenCmd.v1Block (c : OpenCmd) (b : Bytes) : OpenCmd :=
  { c with block := some (slice (padTo 4096 b) 0 256), outAddr := BitVec.ofNat 64 (c.blockAddr + 256), got := [] }

/-- A command with the rest of its version 2 block behind its header, or GCS_BAD_BLOCK (R280). -/
def OpenCmd.v2Body (c : OpenCmd) (head body : Bytes) : OpenCmd :=
  if v2Crc head body then { c with block := some body, got := [] } else { c with verdict := some (0x1083, 0), got := [] }

/-- A command with the header of its version 2 block, or GCS_BAD_BLOCK (R280); a block of 32 bytes is whole. -/
def OpenCmd.v2Head (c : OpenCmd) (b : Bytes) : OpenCmd :=
  let h := padTo 32 b
  match v2Header h with
  | none => { c with verdict := some (0x1083, 0), got := [] }
  | some (len, barrier, addr, outLen) =>
    let c := { c with head := some h, barrier := barrier, outAddr := addr, outLen := outLen, got := [] }
    if len = 32 then c.v2Body h [] else c

/-- A command with a block that comes whole, as a sideband request's does: OUT_ADDR and OUT_LEN of a version 2 header are
ignored, and so read as 0 (Table 12-15). -/
def OpenCmd.wholeBlock (c : OpenCmd) (b : Bytes) : OpenCmd :=
  if c.version = 1 then c.v1Block b else
  let h := padTo 8 b ++ List.replicate 12 0 ++ slice (padTo 32 b) 20 12
  let c := c.v2Head h
  if c.head.isSome && c.block.isNone && c.verdict.isNone then c.v2Body h (slice (padTo (leAt h 0 4) b) 32 (leAt h 0 4 - 32)) else c

/-- The command a word opens, with the outcome of checks 1 to 4 of R503. -/
def State.openOf (s : State) (ch : Nat) (w : DWord) : OpenCmd :=
  { seq := BitVec.ofNat 4 (fld w 48 4), code := BitVec.ofNat 8 (fld w 56 8), version := BitVec.ofNat 4 (fld w 52 4)
    arg := BitVec.ofNat 48 (fld w 0 48), order := s.kite.takes, begun := false, head := none, got := [], block := none
    outAddr := 0, outLen := 0, barrier := false, waiting := false
    verdict := (s.wordCheck ch (fld w 52 4) (fld w 56 8)).map (fun st => (st, 0)), discard := false }

/-- A command joins the channel's open ones, and what is due follows: it begins, if it may, and its block is read; what its
failed check answers goes out in turn. -/
def State.openCmd (s : State) (ch : Nat) (c : OpenCmd) : State :=
  ({ s with kite := { s.kite with takes := s.kite.takes + 1 } }.setOpened ch (s.opened ch ++ [c])).settle ch settleFuel

/-- What a take does to the page (R272). -/
def Kite.taken (k : Kite) (seq : Nat) (t : DWord) : Kite :=
  { k with cmd := none, cmdTimeout := false, seqOpen := setBit k.seqOpen seq true, takeTime := t, cmdCnt := k.cmdCnt + 1 }

/-- The sideband puts the first request it holds on its page, where no word stands (R292). -/
def State.sbPost (s : State) : State :=
  match s.kite.sideband, (s.page sbCh).cmd with
  | r :: _, none => s.updPage sbCh (fun k => { k with
      cmd := some r.word, cmdSeq := BitVec.ofNat 4 (fld r.word 48 4), cmdCode := BitVec.ofNat 8 (fld r.word 56 8)
      postTime := s.now })
  | _, _ => s

/-- The requests the sideband holds but for that of sequence `seq`. -/
def State.sbDrop (s : State) (seq : Nat) : State :=
  { s with kite := { s.kite with sideband := s.kite.sideband.filter (fun r => fld r.word 48 4 != seq) } }

/-- A binding as it is kept: 0 SMBus, k + 1 the messages of host link k. -/
def viaNo (via : Option (Fin 4)) : Nat := match via with
  | none => 0
  | some k => k.val + 1

/-- The binding so kept. -/
def viaOf (n : Nat) : Option (Fin 4) := if h : 0 < n ∧ n < 5 then some ⟨n - 1, by omega⟩ else none

/-- The word of the sideband's page is taken, with the block its request brought. -/
def State.sbTake (s : State) (w : DWord) : State :=
  let c := s.openOf sbCh w
  let r := s.kite.sideband.find? (fun r => fld r.word 48 4 == fld w 48 4)
  let b := match r with
    | some r => r.block
    | none => []
  let via := match r with
    | some r => viaNo r.via
    | none => 0
  let c := if c.verdict.isNone && hasBlock (fld w 56 8) then c.wholeBlock b else c
  let s := s.sbDrop (fld w 48 4)
  ({ s with kite := { s.kite with sbVia := mapSet (fun _ => 0) s.kite.sbVia (fld w 48 4) via } }.openCmd sbCh c).sbPost

/-- KL_TAKE: the firmware takes the posted word (R272), once a command of the same sequence that a reset function left behind
is done with. -/
def execKlTake (ch : BitVec 13) (s : State) : Res :=
  let ch := ch.toNat
  match (s.page ch).cmd with
  | none => .next s
  | some w =>
    if !s.takes ch (fld w 56 8) || (s.opened ch).any (fun c => c.seq.toNat == fld w 48 4) then .next s else
    let t := s.updPage ch (fun k => k.taken (fld w 48 4) s.now)
    .next (if ch = sbCh then t.sbTake w else t.openCmd ch (t.openOf ch w))

/-- The present read of an open command's block has ended, with its bytes or with a status; checks 5 and 6 of R503 follow, and
for a header that passes, the read of the rest (R279, R280). -/
def State.blockDone (s : State) (ch : Nat) (seq : BitVec 4) (fail : Option Status) (data : Bytes) : State :=
  match (s.opened ch).find? (fun c => c.seq == seq) with
  | none => s
  | some c =>
    if !c.begun || c.block.isSome || c.verdict.isSome || !hasBlock c.code.toNat || c.waiting then s else
    let c' := match fail with
      | some st => { c with verdict := some (st, 0), got := [] }
      | none => if c.version = 1 then c.v1Block data else match c.head with
        | none => c.v2Head data
        | some h => c.v2Body h (padTo (leAt h 0 4 - 32) data)
    let s := s.updOpen ch seq (fun _ => c')
    (s.if_ (c'.block.isNone && c'.verdict.isNone) (fun s => s.blockAsk ch c')).settle ch settleFuel

/-- The bytes of one request of a block's read: kept until the read is whole. -/
def State.blockMore (s : State) (ch : Nat) (seq : BitVec 4) (left : Nat) (data : Bytes) : State :=
  match (s.opened ch).find? (fun c => c.seq == seq) with
  | none => s
  | some c =>
    if left = 0 then s.blockDone ch seq none (c.got ++ data)
    else s.updOpen ch seq (fun o => { o with got := o.got ++ data })

/-- The present read of a block of channel `ch` comes whole, or fails, as `cpl` says: its request outstanding, and what its data
takes beyond that (R228); discarded where the function makes no requests now (R237). -/
def State.blockCpl (s : State) (ch : Nat) (c : OpenCmd) (cpl : CplStatus) (data : Bytes) : State :=
  if !isFuncCh ch then s.blockDone ch c.seq (if cpl = .ok then none else some (cplFail cpl)) data else
  let k := s.fnLink ch
  match s.tagOf (.block ch c.seq) with
  | none => s
  | some t =>
    let n := t.bytes + t.req.left
    match s.hostStop ch with
    | some st => ((s.bump (R.HIU_BM_DISCARD_CNT k)).dropTag k t.tag).blockDone ch c.seq (some st) []
    | none =>
      let s := s.if_ (cpl == .ok) (fun s => (State.readGo ch none t.req.left s t.req.addr t.req.left t.tag).1)
      let s := (s.cplCount ch none (t.req.addr - BitVec.ofNat 64 t.bytes) cpl n).dropTag k t.tag
      s.blockDone ch c.seq (if cpl = .ok then none else some (cplFail cpl)) (c.got ++ padTo n data)

/-- COMMAND_BLOCK_READ: the present read of an open command's block ends: its bytes are kept, or the failure answers it
(R279, R280, R503 checks 5 and 6). -/
def execCommandBlockRead (ch : BitVec 13) (seq : BitVec 4) (cpl : CplStatus) (data : Bytes) (s : State) : Res :=
  let ch := ch.toNat
  match findOpen seq [] (s.opened ch) with
  | none => .next s
  | some (_, c) =>
    if !c.begun || c.block.isSome || c.verdict.isSome || !hasBlock c.code.toNat || c.waiting then .next s
    else .next (s.blockCpl ch c cpl data)

/-- KL_CMD_TIMEOUT: a posted word has waited EFFECTIVE ms (R273). -/
def execKlCmdTimeout (ch : BitVec 13) (s : State) : Res :=
  let ch := ch.toNat
  let k := s.page ch
  if k.cmd.isNone || k.cmdTimeout || s.effective ch == 0 then .next s else
  .next ((s.setPage ch { k with cmdTimeout := true, timeoutCnt := k.timeoutCnt + 1 }).raise 0x060 (chFunc ch) ch
    (at' k.cmdCode.toNat 4 + k.cmdSeq.toNat))

/-- KL_WITHDRAW (R274): no effect while CMD_FULL is 0, so that a take in the same cycle comes first (R275). On the sideband's page
the next request it holds is posted. -/
def execKlWithdraw (ch : BitVec 13) (s : State) : Res :=
  .next (s.pageWrite ch.toNat (fun s =>
    let k := s.page ch.toNat
    match k.cmd with
    | none => s
    | some w =>
      let s := s.setPage ch.toNat { k with
        cmd := none, cmdTimeout := false, withdrawn := true, withdrawCnt := k.withdrawCnt + 1 }
      if ch.toNat = sbCh then (s.sbDrop (fld w 48 4)).sbPost else s))

/-- Whether the firmware, or Trailhead for a push, posts responses now. -/
def State.posts (s : State) : Bool := match s.kite.fw with
  | .running | .maintenance | .recovery | .booting | .starting => true
  | _ => false

/-- What a restarting firmware owes: FW_RESTARTED for every open sequence whose response has not been posted, in ascending
order of sequence (R291). -/
def State.owed (s : State) (ch : Nat) : List DWord :=
  let k := s.page ch
  let words := (s.opened ch).map (fun c => rspWord c 0xF080 0) ++
    (s.rspQ ch).map (fun w => setFld (setFld w 32 16 0xF080) 0 32 0)
  (List.range 16).flatMap (fun i => if bit k.seqOpen i then words.filter (fun w => fld w 48 4 == i) else [])

/-- The channels that have a page listed, commands open or responses queued. -/
def State.channels (s : State) : List Nat :=
  (s.kite.page.map (·.1) ++ s.kite.opened.map (·.1) ++ s.kite.rspQ.map (·.1)).eraseDups

/-- The firmware restarts: the commands in hand are owed FW_RESTARTED, and of the sideband's outputs that of the response
already posted alone stays (R291). -/
def State.restartOwes (s : State) : State :=
  let owed := s.channels.map (fun ch => (ch, s.owed ch))
  let posted := (s.page sbCh).rsp.map (fun w => fld w 48 4)
  let s := { s with kite := { s.kite with
    opened := [], rspQ := [], sbOut := mapKeep (fun q => posted == some q) s.kite.sbOut } }
  s.each owed (fun s e => { s with kite := { s.kite with
    lost := mapSet (fun _ => []) s.kite.lost e.1 (mapGet (fun _ => []) s.kite.lost e.1 ++ e.2) } })

/-- The control complex enters reset: STATE is forced to ABSENT, FW_ABSENT is raised, and the commands in hand are owed
FW_RESTARTED (R288, R291). -/
def State.fwAbsent (s : State) : State :=
  let s := s.restartOwes
  { s with kite := { s.kite with fw := .absent } }.raise 0x065 noFunc 0 s.kite.fwGen.toNat

/-- A control-complex restart (R440): the cores and the BOOT registers are cleared but the measurement slots, the log and the
counters; a commit or PLDM update in progress ends. The start watchdog runs anew from the release of core 0 (R428). -/
def State.ccRestart (s : State) : State :=
  let s := s.fwAbsent
  { s with
    regs := mapKeep (fun a => decide (a < 0x250000) || decide (0x2500A0 ≤ a)) s.regs
    boot := { s.boot with
      sourcesLeft := [], pushFrom := none, pushBegun := false, running := none, commit := none, pldm := false
      activate := none }
    tether := { s.tether with startRuns := true } }

/-- What follows the answer of FW_ACTIVATE once it is posted (Table 20-12, R450): a control-complex restart, or the handover to
the pushed image. -/
def State.activated (s : State) (ch : Nat) (w : DWord) : State :=
  match s.boot.activate with
  | none => s
  | some (c, q, target) =>
    if c ≠ ch ∨ q ≠ fld w 48 4 ∨ fld w 56 8 ≠ 0x73 then s
    else if target = 3 then s.handOver (pushSource ch) 3 false (s.imageCheck 3).2
    else s.ccRestart

/-- KL_RSP_POST: the next response of the channel is posted while RSP_FULL is 0, and KL_RSP_READY is raised (R276). The
Tether's PING counts as answered (R427). -/
def execKlRspPost (ch : BitVec 13) (s : State) : Res :=
  let ch := ch.toNat
  if !s.posts || (s.page ch).rsp.isSome then .next s else
  match s.rspQ ch with
  | [] => .next s
  | w :: rest =>
    let s := ((s.setRspQ ch rest).updPage ch (fun k => { k with rsp := some w, rspTimeout := false }))
    let s := if ch = tetherCh ∧ fld w 56 8 = 0 then { s with tether := { s.tether with ping := none } } else s
    .next ((s.raise 0x066 (chFunc ch) ch (fld w 32 16)).activated ch w)

/-- An MCTP vendor-defined message of this part: type 0x7E, vendor 0x1F8A, payload (Table 12-15). -/
def mctpVendor (payload : Bytes) : Bytes := [0x7E, 0x1F, 0x8A] ++ payload

/-- The sideband's answer to a request taken leaves by the binding the request came by, with the command's output (Table
12-15). -/
def State.sbOut (s : State) (w : DWord) : State :=
  let seq := fld w 48 4
  let out := mapGet (fun _ => ([] : Bytes)) s.kite.sbOut seq
  let via := viaOf (mapGet (fun _ => 0) s.kite.sbVia seq)
  ({ s with kite := { s.kite with sbOut := mapDel s.kite.sbOut seq, sbVia := mapDel s.kite.sbVia seq } }).emit
    (.sideband via (mctpVendor (beBytes 8 w.toNat ++ out)))

/-- The bytes a read of KL_RSP returns of a word (R276). -/
def rspBytes (r : RspRead) (w : DWord) : Bytes := match r with
  | .whole => bvBytes w
  | .low => (bvBytes w).take 4
  | .high => (bvBytes w).drop 4

/-- A read of KL_RSP: what it returns to a function, and, but for one of the low half alone, the word taken and its sequence
closed; an empty KL_RSP reads 0 (R276). -/
def State.klRspTake (s : State) (ch : Nat) (r : RspRead) : State :=
  let k := s.page ch
  let w := k.rsp.getD 0
  let s := s.if_ (isFuncCh ch) (fun s => s.emit (.completion ch 0 (rspBytes r w)))
  if k.rsp.isNone || r == .low then s else
  (s.setPage ch { k with
    rsp := none, rspTimeout := false, rspCnt := k.rspCnt + 1, seqOpen := setBit k.seqOpen (fld w 48 4) false }).if_
    (ch == sbCh) (fun s => s.sbOut w)

/-- KL_RSP_TAKE: a read of KL_RSP by the party of its page (R276). -/
def execKlRspTake (ch : BitVec 13) (s : State) (r : RspRead := .whole) : Res :=
  .next (if isFuncCh ch.toNat then s.barRead ch.toNat (fun s => s.klRspTake ch.toNat r) else s.klRspTake ch.toNat r)

/-- KL_RSP_TIMEOUT: a response word has waited EFFECTIVE ms (R276). -/
def execKlRspTimeout (ch : BitVec 13) (s : State) : Res :=
  let ch := ch.toNat
  let k := s.page ch
  match k.rsp with
  | none => .next s
  | some w =>
    if k.rspTimeout || s.effective ch == 0 then .next s else
    .next ((s.setPage ch { k with rspTimeout := true, staleCnt := k.staleCnt + 1 }).raise 0x062 (chFunc ch) ch (fld w 48 4))

/-- PING (code 0x00): the versions answered and the firmware build. -/
def execPing (ch : BitVec 13) (seq : BitVec 4) (s : State) : Res :=
  .next (s.gcs ch seq 0x00 (fun s c => (s, if c.imm ≠ 0 then .badArg else .ok (6 + at' s.kite.fwBuild.toNat 8))))

/-- FW_STATUS (code 0x01). -/
def execFwStatus (ch : BitVec 13) (seq : BitVec 4) (s : State) : Res :=
  .next (s.gcs ch seq 0x01 (fun s c => (s, if c.imm ≠ 0 then .badArg else .ok s.fwStatus.toNat)))

/-- KL_STATUS (Table 12-3). -/
def Kite.status (k : Kite) : Word := BitVec.ofNat 32 (
  at' (b2n k.cmd.isSome) 31 + at' (b2n k.cmdTimeout) 30 + at' (b2n k.rsp.isSome) 29 + at' (b2n k.rspTimeout) 28 +
  at' (b2n k.overrun) 23 + at' (b2n k.seqConflict) 22 + at' (b2n k.withdrawn) 21 + at' k.cmdSeq.toNat 12 +
  k.cmdCode.toNat)

/-- Bytes 0x0010 to 0x0067 of a Kite line page (Table 12-2). -/
def State.pageBytes (s : State) (ch : Nat) : Bytes :=
  let k := s.page ch
  bvBytes k.status ++ leBytes 4 0 ++ leBytes 4 k.seqOpen.toNat ++
  leBytes 4 (at' (s.effective ch) 16 + k.timeoutSet.toNat) ++ bvBytes s.fwStatus ++ leBytes 4 0 ++
  bvBytes k.cmdCnt ++ bvBytes k.rspCnt ++ bvBytes k.timeoutCnt ++ bvBytes k.overrunCnt ++ bvBytes k.withdrawCnt ++
  bvBytes k.staleCnt ++ bvBytes k.postTime ++ bvBytes k.takeTime

/-- Whether a channel ID names a party of Table 12-1. -/
def isChannel (ch : Nat) : Bool :=
  isFuncCh ch || (decide (0x1100 ≤ ch) && decide (ch ≤ 0x1103)) || ch == tetherCh || ch == sbCh

/-- KL_READ (code 0x08): the status bytes of a page; no word is taken. -/
def execKlRead (ch : BitVec 13) (seq : BitVec 4) (s : State) : Res :=
  .next (s.gcs ch seq 0x08 (fun s c =>
    let t := leAt c.args 0 2
    (s, if isChannel t then .out (s.pageBytes t) else .badArg)))

/-- The command service is ready: STATE goes to RUNNING, FW_GEN rises, FW_READY is raised (Table 12-14), and the device is
RUNNING (Table 18-3). The start watchdog stops (R428). -/
def State.fwRunning (s : State) : State :=
  let s := { s with kite := { s.kite with fw := .running, fwGen := s.kite.fwGen + 1 } }
  let s := { s with clk := { s.clk with dev := .running }, tether := { s.tether with startRuns := false } }
  s.raise 0x064 noFunc s.kite.fwGen.toNat 0

/-- What the channels are owed, queued as their responses. -/
def State.postOwed (s : State) : State :=
  let lost := s.kite.lost
  { s with kite := { s.kite with lost := [] } }.each lost (fun s e => s.setRspQ e.1 (s.rspQ e.1 ++ e.2))

/-- FW_RESTART: the firmware restarts out of a maintenance, its STATE going to STARTING (Table 12-14); a firmware in STARTING posts
what it owes (R291 step 3). -/
def execFwRestart (s : State) : Res :=
  if s.kite.fw = .maintenance then
    let s := s.restartOwes
    .next { s with kite := { s.kite with fw := .starting } }
  else if s.kite.fw ≠ .starting then .next s else .next s.postOwed

/-- Whether a queued response could be posted now. -/
def State.postable (s : State) : Bool := s.kite.rspQ.any (fun e => !e.2.isEmpty && (s.page e.1).rsp.isNone)

/-- FW_READY: the command service of a started firmware becomes ready, once what it owes is posted wherever RSP_FULL lets it
(R291 step 4). -/
def execFwReady (s : State) : Res :=
  if s.kite.fw ≠ .starting ∨ s.kite.lost ≠ [] ∨ s.postable then .next s else .next s.fwRunning

/-- MAINTENANCE_ENTER: announced once every command taken has been answered (R290). -/
def execMaintenanceEnter (ms : BitVec 16) (s : State) : Res :=
  if s.kite.fw ≠ .running ∨ s.kite.opened ≠ [] then .next s else
  .next ({ s with kite := { s.kite with fw := .maintenance, expectMs := ms } }.raise 0x063 noFunc ms.toNat s.kite.fwGen.toNat)

/-- MAINTENANCE_END: STATE returns to RUNNING, FW_GEN unchanged (Table 12-14). -/
def execMaintenanceEnd (s : State) : Res :=
  if s.kite.fw ≠ .maintenance then .next s else
  .next ({ s with kite := { s.kite with fw := .running } }.raise 0x064 noFunc s.kite.fwGen.toNat 1)

/-- MAINTENANCE_OVERRUN: a new EXPECT_MS, and FW_MAINT again (R290). -/
def execMaintenanceOverrun (ms : BitVec 16) (s : State) : Res :=
  if s.kite.fw ≠ .maintenance then .next s else
  .next ({ s with kite := { s.kite with expectMs := ms } }.raise 0x063 noFunc ms.toNat s.kite.fwGen.toNat)

/-- The sequence numbers the sideband uses now. -/
def State.sbBusy (s : State) : List Nat :=
  let of := fun (w : Option DWord) => match w with
    | some w => [fld w 48 4]
    | none => []
  s.kite.sideband.map (fun r => fld r.word 48 4) ++ (s.opened sbCh).map (fun c => c.seq.toNat) ++
  (s.rspQ sbCh).map (fun w => fld w 48 4) ++ of (s.page sbCh).cmd ++ of (s.page sbCh).rsp ++
  (List.range 16).filter (fun i => bit (s.page sbCh).seqOpen i) ++
  (mapGet (fun _ => ([] : List DWord)) s.kite.lost sbCh).map (fun w => fld w 48 4)

/-- SIDEBAND_REQUEST: a GCS command in an MCTP message is held under a sequence the sideband assigns, the lowest not in use
(DESIGN CHOICE, log entry 96), and posted on the sideband's page in its turn; a 17th is answered at once with SB_BUSY (R292). -/
def execSidebandRequest (word : DWord) (block : Bytes) (s : State) (via : Option (Fin 4) := none) : Res :=
  match (List.range 16).find? (fun i => decide (i ∉ s.sbBusy)) with
  | none => .next (s.emit (.sideband via (mctpVendor (beBytes 8
      (setFld (setFld word 32 16 0x3081) 0 32 0).toNat))))
  | some i =>
    .next ({ s with kite := { s.kite with sideband := s.kite.sideband ++ [(⟨setFld word 48 4 i, block, via⟩ : SbReq)] } }.sbPost)

end Sys2Proof.Machine
end

