-- ==== Sys2Proof/Machine/Boot.lean ====
section
/-!
DEFINITION. Machine/Boot.lean: Trailhead's start, the BOOT registers with an effect, the image commands (Table 20-12) and the
PLDM update that maps onto them (R440 to R454, R457).
-/
namespace Sys2Proof.Machine
open Sys2Proof

/-- TRAILHEAD_START: control core 0 leaves reset and runs Trailhead (R440). `answers`: the boot flashes, primary and secondary,
that answer SFDP. -/
def execTrailheadStart (answers : BitVec 2) (s : State) : Res :=
  if s.kite.fw ≠ .absent ∨ s.inReset then .next s else .next (s.trailhead answers)

/-- PUSH_WAIT_EXPIRE: no push has begun within 10 s on the source awaited (R449). -/
def execPushWaitExpire (s : State) : Res :=
  if s.kite.fw ≠ .booting ∨ s.boot.pushFrom = none ∨ s.boot.pushBegun then .next s else
  .next ({ s with boot := { s.boot with pushFrom := none } }.trySources s.boot.sourcesLeft)

/-- Whether the firmware can write a BOOT register now. -/
def State.bootWrites (s : State) : Bool := !s.inReset && !s.blockHeld 23 && s.kite.fw != .absent

/-- CONTROL_COMPLEX_RESTART: a write of BOOT_CC_RESTART (R440). -/
def execControlComplexRestart (v : Word) (s : State) : Res :=
  .next (s.if_ (s.bootWrites && fld v 16 16 == 0x4343 && bit v 0) State.ccRestart)

/-- CORE_RELEASE: a write of BOOT_CTL_RELEASE; with cores 1 to 3 released after the handover STATE becomes STARTING (R441,
Table 12-14). -/
def execCoreRelease (v : Word) (s : State) : Res :=
  if !s.bootWrites then .next s else
  let s := s.wrf R.BOOT_CTL_RELEASE 1 3 (s.rdf R.BOOT_CTL_RELEASE 1 3 ||| fld v 1 3)
  .next (if s.kite.fw = .booting ∧ s.rdf R.BOOT_STATUS 28 4 = 3 ∧ s.rdf R.BOOT_CTL_RELEASE 1 3 = 7 then
    { s with kite := { s.kite with fw := .starting } } else s)

/-- The slots an extend is refused into while BOOT_MEAS_LOCK is set (R447). -/
def lockedSlots : List Nat := [0, 1, 2, 3, 4, 5, 6, 7, 10, 15]

/-- MEASUREMENT_EXTEND: a write of BOOT_EXT_CTL with GO (R447). -/
def execMeasurementExtend (v : Word) (s : State) : Res :=
  if !s.bootWrites || !bit v 31 then .next s else
  let slot := fld v 0 4
  if bit (s.rd R.BOOT_MEAS_LOCK) 0 ∧ slot ∈ lockedSlots then .next (s.bump R.BOOT_EXT_REFUSED_CNT)
  else .next (s.extend slot none none
    (bytesBv 384 ((List.range 12).flatMap (fun k => leBytes 4 (s.rd (R.BOOT_EXT_DATA k)).toNat))))

/-- The size of the staging buffer and of a slot (Tables 20-1, 20-12). -/
def slotSize : Nat := 67108864

/-- IMAGE_WRITE (code 0x70): data into the staging buffer; through the sideband at most 976 bytes of it. A push begins with
it (R449). -/
def execImageWrite (ch : BitVec 13) (seq : BitVec 4) (s : State) : Res :=
  .next (s.gcs ch seq 0x70 (fun s c =>
    let a := c.args
    let off := leAt a 0 4
    let len := leAt a 4 4
    if off % 4 ≠ 0 ∨ len < 4 ∨ 65488 < len ∨ leAt a 8 8 ≠ 0 ∨ slotSize < off + len ∨ a.length < 16 + len ∨
        (ch.toNat = sbCh ∧ 976 < len) then (s, .badArg)
    else if s.boot.pldm then (s, .no 0x30E0)
    else
      let s := s.hbmPut (slotBase 3 + off) (slice a 16 len)
      let s := if s.boot.pushFrom.isSome then { s with boot := { s.boot with pushBegun := true } } else s
      (s, .ok (off + len))))

/-- The ledger entry of the image in a slot, in a state (Table 20-10). -/
def State.entryOf (s : State) (slot st : Nat) : Bytes :=
  leBytes 1 st ++ leBytes 1 0 ++ leBytes 1 (s.imgKey slot) ++ leBytes 1 0 ++ leBytes 4 (s.imgSvn slot) ++
    s.imgBytes slot 24 8 ++ s.imgBytes slot 64 48

/-- The bytes of an image: its header block and its payload. -/
def State.imgSize (s : State) (slot : Nat) : Nat := 65536 + s.imgField slot 8 4

/-- The blocks of a slot that an image of `n` bytes takes, erased and then holding `b`. -/
def State.slotProgram (s : State) (t n : Nat) (b : Bytes) : State :=
  let top := slotBase t + 65536 * ceilDiv n 65536
  let put := fun (m : SMap Byte) => mapSetList erased (mapClear m (slotBase t) top) (slotBase t) b
  if t = 2 then { s with boot := { s.boot with flash1 := put s.boot.flash1 } }
  else { s with boot := { s.boot with flash0 := put s.boot.flash0 } }

/-- Whether a commit to slot `t` is refused with IMAGE_SLOT_BUSY (R454): CONFIRMED, running, a CANDIDATE already, or A or B
while the other is CANDIDATE. -/
def State.slotBusy (s : State) (t : Nat) : Bool :=
  let b := s.ledger
  slotState b t == 3 || slotState b t == 2 || s.boot.running == some t || (decide (t < 2) && slotState b (1 - t) == 2)

/-- A commit begins (R452): the slot is WRITTEN before its erase. -/
def State.commitBegin (s : State) (t : Nat) (waiter : Option (Nat × Nat)) : State :=
  let s := s.ledgerWrite (patch s.ledger (16 + 64 * t) (s.entryOf 3 1))
  let s := s.slotProgram t (s.imgSize 3) []
  { s with boot := { s.boot with commit := some ⟨t, waiter, s.now⟩ } }

/-- IMAGE_COMMIT (code 0x71): the staged image is checked and its commit begins (R454). -/
def execImageCommit (ch : BitVec 13) (seq : BitVec 4) (s : State) : Res :=
  .next (s.gcs ch seq 0x71 (fun s c =>
    if 2 < c.imm then (s, .badArg)
    else if s.boot.pldm ∨ s.boot.commit.isSome then (s, .no 0x30E0)
    else
      let s := s.ledgerFind
      match (s.imageCheck 3).1 with
      | some st => (s, .no st)
      | none =>
        if s.slotBusy c.imm then (s, .no 0x30E0)
        else (s.commitBegin c.imm (some (ch.toNat, seq.toNat)), .wait)))

/-- A message to the update agent: PLDM Type 5 request or response of the firmware device (DSP0240, DSP0267, PRESUMED). -/
def pldmOut (request : Bool) (cmd : Nat) (data : Bytes) : Out :=
  .mctp ([0x01, if request then 0x80 else 0, 0x05] ++ leBytes 1 cmd ++ data)

/-- IMAGE_COMMITTED: erase, programming and read-back are complete, or one has failed (R452, R454). A PLDM update learns it by
ApplyComplete (R457). -/
def execImageCommitted (ok : Bool) (s : State) : Res :=
  match s.boot.commit with
  | none => .next s
  | some c =>
    let s := { s with boot := { s.boot with commit := none, pldm := s.boot.pldm && c.waiter.isSome } }
    let s := s.if_ c.waiter.isNone (fun s => s.emit (pldmOut true 0x18 [if ok then 0 else 1, 0, 0]))
    if !ok then .next (s.finish c.waiter 0xF0E0 0) else
    let s := s.slotProgram c.target (s.imgSize 3) (s.imgBytes 3 0 (s.imgSize 3))
    let s := s.ledgerWrite (slotPut s.ledger c.target (if c.target = 2 then 3 else 2) 0)
    let ms := (s.now - c.began).toNat / 1000000
    .next ((s.raise 0x7C7 noFunc c.target (satTo 65535 ms)).finish c.waiter 0 (ledgerSeq s.ledger))

/-- The running slot where it is a CANDIDATE (R452). -/
def State.runningCandidate (s : State) : Option Nat := match s.boot.running with
  | some r => if r < 2 ∧ slotState s.ledger r = 2 then some r else none
  | none => none

/-- The slot `r` becomes CONFIRMED, and a previous CONFIRMED slot RETIRED in the same record; then BOOT_TRIAL.CONFIRMED, then
the fuses (R446, R452). -/
def State.confirm (s : State) (r : Nat) : State :=
  let b := s.ledger
  let b := if slotState b (1 - r) = 3 then slotPut b (1 - r) 4 (slotFlags b (1 - r)).toNat else b
  let s := s.ledgerWrite (slotPut b r 3 (slotFlags b r).toNat)
  let s := (s.wrf R.BOOT_TRIAL 30 1 1).wrf R.BOOT_STATUS 23 1 0
  (s.fuseBlow r).raise 0x7C3 noFunc r (ledgerSeq s.ledger % 65536)

/-- IMAGE_CONFIRM (code 0x72). `ok`: the flash took the CONFIRMED record; where it fails, BOOT_FLASH_ERROR (R454). -/
def execImageConfirm (ch : BitVec 13) (seq : BitVec 4) (ok : Bool) (s : State) : Res :=
  .next (s.gcs ch seq 0x72 (fun s c =>
    if c.imm ≠ 0 then (s, .badArg)
    else if s.boot.pldm then (s, .no 0x30E0)
    else
      let s := s.ledgerFind
      match s.runningCandidate with
      | none => (s, .no 0x30E1)
      | some r => if ok then (s.confirm r, .ok 0) else (s, .no 0xF0E0)))

/-- Whether a slot is a CANDIDATE whose trial is unused (R454). -/
def State.freshCandidate (s : State) : Bool :=
  [0, 1].any (fun i => slotState s.ledger i == 2 && !bit (slotFlags s.ledger i) 0)

/-- Whether every command but one has been answered and its answer posted (Table 20-12). -/
def State.loneCommand (s : State) : Bool :=
  (s.kite.opened.map (fun e => e.2.length)).sum == 1 && s.kite.rspQ.isEmpty

/-- FW_ACTIVATE (code 0x73): target 0 the CANDIDATE, by a control-complex restart that follows the answer; target 3 the pushed
image, while Trailhead waits for one (R450, R454). -/
def execFwActivate (ch : BitVec 13) (seq : BitVec 4) (s : State) : Res :=
  .next (s.gcsPick ch seq 0x73 (fun _ => s.loneCommand) (fun s c =>
    let go := fun (s : State) (t : Nat) => { s with boot := { s.boot with activate := some (ch.toNat, seq.toNat, t) } }
    if 3 < c.imm then (s, .badArg)
    else if s.pushOn ch.toNat then
      if c.imm ≠ 3 then (s, .denied) else
      let (s', good, _) := s.examine (pushSource ch.toNat) 3
      if good then (go s' 3, .ok 0) else (s'.pushRefused, .no ((s.imageCheck 3).1.getD 0))
    else if c.imm ≠ 0 then (s, .badArg)
    else if s.boot.pldm then (s, .no 0x30E0)
    else
      let s := s.ledgerFind
      if s.freshCandidate then (go s 0, .ok 0) else (s, .no 0x30E1)))

/-- LEDGER_READ (code 0x74): both ledger copies. -/
def execLedgerRead (ch : BitVec 13) (seq : BitVec 4) (s : State) : Res :=
  .next (s.gcs ch seq 0x74 (fun s _ => (s, .out (s.ledgerCopy 0 ++ s.ledgerCopy 1))))

/-- The measurement slots as bytes, M00 first. -/
def State.measBytes (s : State) : Bytes :=
  (List.range 16).flatMap (fun m => bvBytes (mapGet (fun _ => (0 : BitVec 384)) s.boot.meas m))

/-- MEASURE_READ (code 0x75): the slots, the count of log entries, and the log from the entry named. -/
def execMeasureRead (ch : BitVec 13) (seq : BitVec 4) (s : State) : Res :=
  .next (s.gcs ch seq 0x75 (fun s c =>
    (s, .out (s.measBytes ++ leBytes 4 s.boot.log.length ++ leBytes 4 0 ++
      (s.boot.log.drop (leAt c.args 0 2)).flatMap bvBytes))))

/-- REQUEST_FIRMWARE_DATA: image data the device asked for reaches the staging buffer as by IMAGE_WRITE (R457). While a GCS
commit runs the answer is ALREADY_IN_UPDATE_MODE (0x81 of DSP0267, PRESUMED). -/
def execRequestFirmwareData (off : BitVec 26) (data : Bytes) (s : State) : Res :=
  if s.kite.fw ≠ .running then .next s
  else if s.boot.commit.isSome then .next (s.emit (pldmOut false 0x15 [0x81]))
  else
    let s := s.hbmPut (slotBase 3 + off.toNat) (data.take (slotSize - off.toNat))
    .next { s with boot := { s.boot with pldm := true } }

/-- VERIFY_COMPLETE: the checks of R444 are reported (R457): 0 for an image that passes, 1 for one that is refused. -/
def execVerifyComplete (s : State) : Res :=
  if !s.boot.pldm then .next s else
  .next (s.emit (pldmOut true 0x17 [if (s.imageCheck 3).1.isNone then 0 else 1]))

/-- APPLY_COMPLETE: the staged image is committed to the slot of A and B that is neither CONFIRMED nor running (R457); where
no slot admits it or a check refuses it, ApplyComplete reports a failure and the update ends. -/
def execApplyComplete (s : State) : Res :=
  if !s.boot.pldm ∨ s.boot.commit.isSome then .next s else
  let s := s.ledgerFind
  match [0, 1].find? (fun i => !s.slotBusy i) with
  | some t =>
    if (s.imageCheck 3).1.isNone then .next (s.commitBegin t none)
    else .next ({ s with boot := { s.boot with pldm := false } }.emit (pldmOut true 0x18 [1, 0, 0]))
  | none => .next ({ s with boot := { s.boot with pldm := false } }.emit (pldmOut true 0x18 [1, 0, 0]))

/-- ACTIVATE_FIRMWARE: as FW_ACTIVATE 0 (R457): once every command is answered, a control-complex restart; with no unused
CANDIDATE, completion code 0x85 (INCOMPLETE_UPDATE of DSP0267, PRESUMED). The estimated time is free. -/
def execActivateFirmware (s : State) : Res :=
  if s.kite.fw ≠ .running ∨ s.kite.opened ≠ [] ∨ s.kite.rspQ ≠ [] then .next s else
  let s := s.ledgerFind
  if !s.freshCandidate ∨ s.boot.commit.isSome then .next (s.emit (pldmOut false 0x1A [0x85, 0, 0])) else
  .next ((s.drew.emit (pldmOut false 0x1A ([0] ++ leBytes 2 (fld s.fresh 0 16)))).ccRestart)

end Sys2Proof.Machine
end

