-- ==== Sys2Proof/Machine/Cq.lean ====
section
/-!
DEFINITION. Machine/Cq.lean: ring contexts, completion entries, the completion backlog and notifications (R294 to R301, R314
to R318), and the completion of transmit operations (R309, Table 13-10).
-/
namespace Sys2Proof.Machine
open Sys2Proof

/-- Fields of a ring context (Table 13-3). -/
def ctxType (c : BitVec 512) : Nat := fld c 32 8
def ctxLog (c : BitVec 512) : Nat := fld c 40 8
def ctxFlags (c : BitVec 512) : Nat := fld c 48 8
def ctxWeight (c : BitVec 512) : Nat := fld c 56 8
def ctxBase (c : BitVec 512) : Nat := fld c 64 64
def ctxIndexAddr (c : BitVec 512) : Nat := fld c 128 64
def ctxCq (c : BitVec 512) : Nat := fld c 192 20
def ctxVector (c : BitVec 512) : Nat := fld c 224 16
def ctxCoalCount (c : BitVec 512) : Nat := max 1 (fld c 240 16)
def ctxClass (c : BitVec 512) : Nat := fld c 272 8
def ctxLeaf (c : BitVec 512) : Nat := fld c 320 18
def ctxSpread (c : BitVec 512) : Nat := fld c 344 3

/-- The PASID of a ring's requests, where its context names one and its function has PASID enabled (R246). -/
def State.ringPasid (s : State) (k : Ring) : Option (BitVec 20) :=
  if bit k.ctx 48 then s.pasidOf k.func (BitVec.ofNat 20 (fld k.ctx 288 20)) else none

def Ring.size (k : Ring) : Nat := 2 ^ ctxLog k.ctx

/-- The entries between consumer and producer (R297). -/
def Ring.fill (k : Ring) : Nat := (k.p - k.c).toNat

/-- FREE of R317. -/
def Ring.free (k : Ring) : Nat := k.size - k.fill

/-- Operations outstanding on a ring: receive buffers held count as well (R307). -/
def Ring.outstanding (k : Ring) : Nat := k.ops.length + k.buffers.length + k.lent.length

/-- Whether ring `k` is a submission or receive ring bound to completion ring `q` of the same function. -/
def Ring.boundTo (k : Ring) (q : Nat) : Bool := k.st != .absent && decide (ctxType k.ctx < 2) && ctxCq k.ctx == q

/-- OUT of R317. -/
def State.cqOut (s : State) (q : Nat) : Nat :=
  ((s.rings.ring.filter (fun e => e.2.boundTo q)).map (fun e => e.2.outstanding)).sum

/-- A descriptor's tag, opcode, CONTROL and LENGTH (Tables 13-7 and 13-8). -/
def descOp (d : BitVec 512) : Nat := fld d 0 16
def descTag (d : BitVec 512) : Nat := fld d 16 16
def descLen (d : BitVec 512) : Nat := fld d 32 24
def descA (d : BitVec 512) : Nat := fld d 64 64
def descB (d : BitVec 512) : Nat := fld d 128 64
def descNotify (d : BitVec 512) : Bool := bit d 63
def descTs (d : BitVec 512) : Bool := bit d 62
def descFence (d : BitVec 512) : Bool := bit d 61
def descTerminal (d : BitVec 512) : Bool := bit d 60 || bit d 62

/-- A notification of a completion or event ring: to its vector, or to INTx of a PF with neither MSI nor MSI-X (R316). -/
def State.notify (s : State) (q : Nat) : State :=
  let k := s.ring q
  let h := s.fn k.func
  let s := s.setRing q { k with unnotified := 0 }
  if h.msixEnable || h.msiEnable then s.message k.func (ctxVector k.ctx) (.ring q)
  else if k.func < 8 then s.toIntx k.func
  else s

/-- LAP of the entry at index `i` of a ring (R315). -/
def lapOf (k : Ring) (i : Nat) : Nat := if i / k.size % 2 = 0 then 1 else 0

/-- What pins a context in the cache (R321). -/
def Ring.pinned (k : Ring) : Bool := !k.ops.isEmpty || !k.buffers.isEmpty || !k.lent.isEmpty || !k.backlog.isEmpty || k.idx != .none

def State.setCached (s : State) (l : List Nat) : State := { s with rings := { s.rings with cached := l } }

/-- The context of ring `r` comes to the head of the cache, loaded on a miss, in the place of the unpinned one used longest
ago where the cache is full; false where every context is pinned (R321). -/
def State.useCtx (s : State) (r : Nat) : State × Bool :=
  let c := s.rings.cached
  if r ∈ c then (s.setCached (r :: c.filter (· ≠ r)), true)
  else if c.length < 65536 then ((s.setCached (r :: c)).bump R.RING_CTX_MISS_CNT, true)
  else match c.reverse.find? (fun x => !(s.ring x).pinned) with
    | some x => ((s.setCached (r :: c.filter (· ≠ x))).bump R.RING_CTX_MISS_CNT, true)
    | none => (s, false)

/-- Whether the device can write into ring `q` now: in BM_LOST and FROZEN, and while its function can make no request, what is
committed stays on the die (Table 13-4, R237, R481). -/
def State.ringOpen (s : State) (q : Nat) : Bool :=
  let k := s.ring q
  k.st != .bmLost && k.st != .frozen && (s.hostStop k.func).isNone

/-- An entry takes the slot at the device's P, not yet written there. -/
def State.slotTake (s : State) (q : Nat) (b : Backlogged) : State :=
  s.updRing q (fun k => { k with p := k.p + 1, entries := k.entries + 1, unsent := k.unsent ++ [b] })

/-- The entry of index `i` is written to its slot (R297, R314, R315). -/
def State.entryOut (s : State) (q i : Nat) (b : Backlogged) : State :=
  let k := s.ring q
  let first := if k.unnotified = 0 then s.now else k.firstUnnotified
  (s.setRing q { k with unnotified := cond (bit k.ctx 50) (k.unnotified + 1) 0, firstUnnotified := first }).hostWrite k.func
    (s.ringPasid k) (BitVec.ofNat 64 (ctxBase k.ctx + i % k.size * 32)) (bvBytes (setFld b.entry 63 1 (lapOf k i))) false

/-- The entries that have their slots and are not written yet are written where the ring can be, then P once, then the
notification that R316 asks for, or `asked` (R229, R301, R318). -/
def State.flushRing (s : State) (q : Nat) (asked : Bool) : State :=
  let k := s.ring q
  if k.unsent.isEmpty || !s.ringOpen q then s else
  let first := (k.p - BitVec.ofNat 16 k.unsent.length).toNat
  let s := s.updRing q (fun k => { k with unsent := [] })
  let s := s.each k.unsent.zipIdx (fun s e => s.entryOut q ((first + e.2) % 65536) e.1)
  let s := s.hostWrite k.func (s.ringPasid k) (BitVec.ofNat 64 (ctxIndexAddr k.ctx)) (leBytes 8 k.p.toNat) false
  if bit k.ctx 50 && (asked || k.unsent.any (fun b => b.notify) || decide (ctxCoalCount k.ctx ≤ (s.ring q).unnotified)) then
    s.notify q
  else s

/-- A completion has entered ring `q`: it releases a place reserved for it, unless those still outstanding need all there are
(R317; DEDUCED, log entry 102: reservations are held per completion ring, not per operation). -/
def State.releasePlace (s : State) (q : Nat) : State :=
  let need := s.cqOut q + (s.ring q).backlog.length - (s.ring q).free
  s.updRing q (fun k => { k with reserved := max (k.reserved - 1) need })

/-- A completion is committed to ring `q`: given the slot at P, or a place in the backlog (R314, R317, R318, R321). -/
def State.commit (s : State) (q : Nat) (entry : BitVec 256) (now : Bool) : State :=
  if (s.ring q).st = .absent then s.bump R.RING_CPL_CNT else
  let s := (s.bump R.RING_CPL_CNT).useCtx q |>.1
  let k := s.ring q
  if k.backlog.isEmpty && decide (0 < k.free) then ((s.slotTake q ⟨entry, now⟩).releasePlace q).flushRing q false
  else
    (s.setRing q { k with backlog := k.backlog ++ [⟨entry, now⟩] }).if_ k.backlog.isEmpty
      (fun s => s.raise 0x100 k.func q 1)

/-- A backlog drains into the room there is: its entries are written, then P, then one notification; the last to leave raises
CQ_BACKLOG_CLEAR (R318). Entries that waited in their slots go with them. -/
def State.drainBacklog (s : State) (q : Nat) : State :=
  if !s.ringOpen q then s else
  let k := s.ring q
  let n := min k.backlog.length k.free
  let s := s.each (k.backlog.take n) (fun s b =>
    (((s.updRing q (fun k => { k with
      backlog := k.backlog.drop 1, through := k.through + 1, dropOrBacklog := k.dropOrBacklog + 1 })).bump
        R.RING_BACKLOG_CNT).slotTake q b).releasePlace q)
  let s := s.flushRing q (decide (0 < n))
  let k := s.ring q
  if 0 < n ∧ k.backlog.isEmpty then (s.updRing q (fun k => { k with through := 0 })).raise 0x101 k.func q k.through else s

/-- A completion entry of Table 13-12, LAP left 0. -/
def cplEntry (ring tag status bytes : Nat) (time : DWord) (op : Bytes) : BitVec 256 :=
  bytesBv 256 (leBytes 2 tag ++ leBytes 2 status ++ leBytes 4 ring ++ leBytes 4 bytes ++
    leBytes 4 (time.toNat % 4294967296) ++ padTo 16 op)

def Ring.op (k : Ring) (no : Nat) : Option RingOp := k.ops.find? (fun o => o.no == no)

def Ring.updOp (k : Ring) (no : Nat) (g : RingOp → RingOp) : Ring :=
  { k with ops := k.ops.map (fun o => if o.no = no then g o else o) }

/-- The data of operation `no` of ring `r` is read (R308): where its function can send no request now, that is its verdict. -/
def State.readData (s : State) (r no a n : Nat) : State :=
  let k := s.ring r
  match s.hostStop k.func with
  | some st => s.setRing r (k.updOp no (fun o => { o with due := none, reading := false, verdict := some (o.verdict.getD st) }))
  | none => (s.setRing r (k.updOp no (fun o => { o with due := none }))).sendRead
      ⟨k.func, s.ringPasid k, .descriptor r no, BitVec.ofNat 64 a, n⟩

/-- A fenced operation whose data read waited for those before it starts once they have completed (R307, Table 13-8). -/
def State.fencePump (s : State) (r : Nat) : State :=
  let k := s.ring r
  match k.ops with
  | [] => s
  | o :: _ => match o.due with
    | some (a, n) => if k.buffers.isEmpty && k.lent.isEmpty then s.readData r o.no a n else s
    | none => s

/-- A completion for a descriptor of ring `r` (R307): RX buffers, malformed descriptors and operations alike. -/
def State.complete (s : State) (r : Nat) (desc : BitVec 512) (status : Status) (bytes : Nat) (op : Bytes) : State :=
  (s.commit (ctxCq (s.ring r).ctx) (cplEntry r (descTag desc) status.toNat bytes s.now op) (descNotify desc)).fencePump r

/-- An outstanding operation ends: it leaves the ring's outstanding operations and its completion is committed. -/
def State.endOp (s : State) (r no : Nat) (status : Status) (bytes : Nat) (op : Bytes) : State :=
  match (s.ring r).op no with
  | none => s
  | some o =>
    (s.updRing r (fun k => { k with ops := k.ops.filter (fun x => x.no != no) })).complete r o.desc status bytes op

/-- Operation `no` of ring `r`, where it is outstanding with operation code `op`, has not begun, has its data, and may begin: those before it
have begun (R307), and with FENCE those before it, receive buffers among them, have completed (Table 13-8). -/
def State.opReady (s : State) (r no op : Nat) : Option RingOp :=
  let k := s.ring r
  match k.op no with
  | none => none
  | some o =>
    let before := k.ops.filter (fun x => decide (x.no < no))
    if descOp o.desc = op ∧ !o.started ∧ !o.reading ∧ before.all (fun x => x.started) ∧ (!descFence o.desc ||
      (before.isEmpty && k.buffers.isEmpty && k.lent.isEmpty)) then some o
    else none

/-- Bytes 16 to 31 of a transmit completion (Table 13-10); FLAGS bit 1 where the frames' terminals are what it reports. -/
def RingOp.txBytes (o : RingOp) : Bytes :=
  leBytes 8 (cond o.tsValid o.txTime.toNat 0) ++
  leBytes 1 (b2n o.tsValid + at' (b2n (descTerminal o.desc && o.started && o.framesLeft == 0)) 1) ++ leBytes 1 o.dropped ++
  [cond (decide (0 < o.dropped)) o.dropBlock 0xFF, cond (decide (0 < o.dropped)) o.dropReason 0] ++ leBytes 2 o.frames ++ leBytes 2 0

/-- The operation-specific bytes of an operation that ends without having run; the FIRST_PSN of a remote memory operation
that sent no packet is left open (Table 14-8). -/
def State.endBytes (s : State) (o : RingOp) : Bytes :=
  if descOp o.desc / 4096 = 1 then o.txBytes
  else if descOp o.desc / 4096 = 3 then leBytes 4 0 ++ leBytes 4 (fld s.fresh 0 32)
  else []

/-- An outstanding operation ends without having run. -/
def State.endUnrun (s : State) (r no : Nat) (status : Status) : State :=
  match (s.ring r).op no with
  | none => s
  | some o => s.drew.endOp r no status 0 (s.endBytes o)

/-- An operation runs: one that has a verdict completes with that status, and so does one that has host requests to make
(`host`) where its function can make none. -/
def State.runOp (s : State) (r no op : Nat) (host : Bool) (body : State → Ring → RingOp → State) : State :=
  match s.opReady r no op with
  | none => s
  | some o =>
    match o.verdict with
    | some v => s.endUnrun r no v
    | none =>
      match cond host (s.hostStop (s.ring r).func) none with
      | some st => s.endUnrun r no st
      | none => body s (s.ring r) o

/-- A descriptor that runs nothing completes with status `st`: malformed, or aborted before its fetch (R306, R319). -/
def State.endFetched (s : State) (r : Nat) (d : BitVec 512) (st : Status) : State :=
  s.drew.complete r d st 0 (s.endBytes (RingOp.fresh 0 d))

/-- The completion of a transmit operation (R309). -/
def State.endTx (s : State) (r : Nat) (o : RingOp) : State :=
  s.endOp r o.no (if descTerminal o.desc && decide (0 < o.dropped) then 0x4091 else 0) o.bytesDone o.txBytes

/-- A frame of a transmit operation has reached its terminal; the last one commits a completion that waits for it. -/
def State.frameDone (s : State) (origin : Option (Nat × Nat)) (drop : Option (Nat × Nat)) : State :=
  match origin with
  | none => s
  | some (r, no) =>
    match (s.ring r).op no with
    | none => s
    | some o =>
      let o := { o with framesLeft := o.framesLeft - 1 }
      let o := match drop with
        | none => o
        | some (b, n) => { o with
            dropped := o.dropped + 1
            dropBlock := if o.dropped = 0 then BitVec.ofNat 8 b else o.dropBlock
            dropReason := if o.dropped = 0 then BitVec.ofNat 8 n else o.dropReason }
      let s := s.updRing r (fun k => k.updOp no (fun _ => o))
      if o.framesLeft = 0 ∧ descTerminal o.desc ∧ o.verdict = none then s.endTx r o else s

/-- A record for an event ring: written at P, or discarded where the ring is full or cannot be written (R110, R294). -/
def State.eventPut (s : State) (r : Nat) (entry : BitVec 256) : State × Bool :=
  let k := s.ring r
  if k.st = .active ∧ ctxType k.ctx = 3 ∧ 0 < k.free ∧ s.ringOpen r then
    ((s.slotTake r ⟨entry, false⟩).flushRing r false, true)
  else (s.updRing r (fun k => { k with dropOrBacklog := k.dropOrBacklog + 1 }), false)

end Sys2Proof.Machine
end

