-- ==== Sys2Proof/Machine/Sp.lean ====
section
/-!
DEFINITION. Machine/Sp.lean: the fields of the Signpost (Table 2-3), each as its lowest bit and its width.
-/
namespace Sys2Proof.Machine
open Sys2Proof

/-- A field of the Signpost: lowest bit and width. -/
abbrev SpField := Nat × Nat

/-- A Signpost field read. -/
def spGet (sp : Signpost) (f : SpField) : Nat := fld sp f.1 f.2

/-- A Signpost with a field written. -/
def spSet (sp : Signpost) (f : SpField) (x : Nat) : Signpost := setFld sp f.1 f.2 x

/-- A Signpost with several fields written. -/
def spSets (sp : Signpost) (l : List (SpField × Nat)) : Signpost := l.foldl (fun sp e => spSet sp e.1 e.2) sp

namespace SP

def WAYMARK : SpField := (508, 4)
def PASS : SpField := (506, 2)
def CWAY : SpField := (503, 3)
def LANE_IDX : SpField := (499, 4)
def ORIGIN : SpField := (496, 3)
def SRC_PORT : SpField := (486, 10)
def PKT_LEN : SpField := (472, 14)
def MAL : SpField := (471, 1)
def MAL_CLASS : SpField := (467, 4)
def FRAG : SpField := (465, 2)
def L2_TAGS : SpField := (463, 2)
def PCP : SpField := (460, 3)
def DSCP : SpField := (454, 6)
def ECN : SpField := (452, 2)
def KEY_LAYER : SpField := (451, 1)
def SRC_L4 : SpField := (432, 16)
def DST_L4 : SpField := (416, 16)
def TENANT : SpField := (400, 16)
def OUTER_VID : SpField := (388, 12)
def L3_TYPE : SpField := (386, 2)
def LANE_HASH : SpField := (368, 16)
def PROTO : SpField := (360, 8)
def L3_OFF : SpField := (352, 8)
def L4_OFF : SpField := (344, 8)
def TUN_OFF : SpField := (336, 8)
def PAYLOAD_OFF : SpField := (327, 9)
def L4_TYPE : SpField := (324, 3)
def TUN_TYPE : SpField := (321, 3)
def SRC_ADDR : SpField := (192, 128)
def DST_ADDR : SpField := (64, 128)
def VNI : SpField := (40, 24)
def LEAF_QUEUE : SpField := (22, 18)
def NEXTHOP : SpField := (6, 16)
def ENG_CLASS : SpField := (6, 6)
def DEST : SpField := (3, 3)
def COLOUR : SpField := (1, 2)
def MIRROR : SpField := (0, 1)

end SP

/-- The value the parser writes where no field applies: DEST 0b101 (Table 2-3). -/
def spReset : Signpost := spSet 0 SP.DEST 5

end Sys2Proof.Machine
end

