-- ==== Sys2Proof/Machine/Trace.lean ====
section
/-!
DEFINITION. Machine/Trace.lean: the Sounding trace, that is the records its sinks take and where they go (R464 to R468), and
the ingress accounting of the counter fabric (R25, R462).
-/
namespace Sys2Proof.Machine
open Sys2Proof

/-- The debug level in force (R463). -/
def State.level (s : State) : Nat := s.rdf R.IDENT_STATE 0 3

def State.sink (s : State) (k : Nat) : Sink := mapGet (fun _ => Sink.reset) s.obs.sink k

def State.setSink (s : State) (k : Nat) (v : Sink) : State :=
  { s with obs := { s.obs with sink := mapSet (fun _ => Sink.reset) s.obs.sink k v } }

def State.updSink (s : State) (k : Nat) (g : Sink → Sink) : State := s.setSink k (g (s.sink k))

def State.sinkCfg (s : State) (k : Nat) : DWord := s.rd (R.SND_SINK_CFG k)

/-- The event ring of a sink. -/
def State.sinkRing (s : State) (k : Nat) : Nat := s.rdf (R.SND_SINK_RING k) 0 20

/-- A word of a sink's filter (Table 21-18). -/
def State.filterWord (s : State) (k j w : Nat) : DWord := s.rd (R.SND_FILTER k j w)

/-- Whether filter `j` of sink `k` is valid. -/
def State.filterValid (s : State) (k j : Nat) : Bool := bit (s.filterWord k j 1) 16

/-- Whether filter `j` of sink `k` matches a Signpost (R465). -/
def State.filterHit (s : State) (k j : Nat) (sp : Signpost) : Bool :=
  let w0 := s.filterWord k j 0
  let w1 := s.filterWord k j 1
  decide (fld w0 0 16 ≤ spGet sp SP.TENANT) && decide (spGet sp SP.TENANT ≤ fld w0 16 16) &&
  (bit w1 15 || spGet sp SP.SRC_PORT == fld w1 0 10) &&
  decide (fld (s.filterWord k j 2) 0 18 ≤ spGet sp SP.LEAF_QUEUE) &&
  decide (spGet sp SP.LEAF_QUEUE ≤ fld (s.filterWord k j 3) 0 18)

/-- Whether the packet belongs to function `f`'s partition (R466). -/
def State.inPartition (s : State) (f : Nat) (sp : Signpost) : Bool :=
  let a := (s.inst f).alloc
  let t := spGet sp SP.TENANT
  let sub := spGet sp SP.LEAF_QUEUE / 4
  spGet sp SP.SRC_PORT == a.portId || (decide (a.tenantBase ≤ t) && decide (t < a.tenantBase + a.tenantCount)) ||
  (decide (a.subBase ≤ sub) && decide (sub < a.subBase + a.subCount))

/-- Whether sink `k` considers a packet at a trace point (R465, R466). -/
def State.considers (s : State) (k point : Nat) (sp : Signpost) : Bool :=
  let c := s.sinkCfg k
  let valid := (List.range 8).filter (fun j => s.filterValid k j)
  let f := (s.ring (s.sinkRing k)).func
  bit c 31 && bit c (21 + point) && decide (s.level ≠ 0) &&
  (valid.isEmpty || valid.any (fun j => s.filterHit k j sp)) &&
  (bit c 30 || f == s.manager || s.inPartition f sp)

/-- The kind of record a sink takes of a packet: PAYLOAD where its KINDS and the level allow it, else META (Tables 21-3 and
21-17). -/
def State.packetKind (s : State) (k : Nat) : Option Nat :=
  let c := s.sinkCfg k
  if bit c 29 ∧ 3 ≤ s.level then some 2 else if bit c 28 ∧ 2 ≤ s.level then some 1 else none

/-- A record's header (Table 21-5). -/
def traceHeader (kind point len : Nat) (seq : Nat) (time : DWord) : Bytes :=
  leBytes 1 kind ++ leBytes 1 point ++ leBytes 2 len ++ leBytes 4 seq ++ leBytes 8 time.toNat

/-- A record is lost (R464). -/
def State.traceLost (s : State) (k code : Nat) : State :=
  let s := (s.updSink k (fun x => { x with lost := x.lost + 1 }))
  let s := s.bump (if code = 2 then R.SND_FABRIC_LOST_CNT else R.SND_SINK_LOST_CNT k)
  s.raise 0x7E4 (if bit (s.sinkCfg k) 30 then noFunc else (s.ring (s.sinkRing k)).func) k code

/-- The open page of sink `k` closes: the page is written, and then its notice in the event ring (R467); its records are lost
where the ring's function can make no request or the write fails (R230, R486). -/
def State.closePage (s : State) (k : Nat) : State :=
  let x := s.sink k
  match x.page with
  | none => s
  | some p =>
    let r := s.sinkRing k
    let g := s.ring r
    let addr := (s.rd (R.SND_SINK_BUF k)).toNat + p.index.toNat % g.size * 4096
    let (s, _, st) := s.hostPut g.func (s.ringPasid g) (BitVec.ofNat 64 addr) (padTo 4096 p.bytes)
    if st.isSome then
      ((s.setSink k { x with page := none, lost := x.lost + p.records }).bumpN (R.SND_SINK_LOST_CNT k) p.records).raise 0x7E4
        g.func k 0
    else
    let (s, _) := s.eventPut r (cplEntry r 0 0 p.bytes.length s.now
      (leBytes 4 p.firstSeq.toNat ++ leBytes 4 p.records ++ leBytes 4 x.lost))
    s.setSink k { x with page := none, lost := 0 }

/-- A record goes to the open page of sink `k`, which is closed first where the record does not fit, and opened where the
event ring has room; false where there is no page (R467). -/
def State.pagePut (s : State) (k : Nat) (rec : Bytes) (seq : Nat) : State × Bool :=
  let full := match (s.sink k).page with
    | some p => decide (4096 < p.bytes.length + rec.length)
    | none => false
  let s := if full then s.closePage k else s
  let x := s.sink k
  match x.page with
  | some p => (s.setSink k { x with page := some { p with bytes := p.bytes ++ rec, records := p.records + 1 } }, true)
  | none =>
    let g := s.ring (s.sinkRing k)
    if g.st = .active ∧ ctxType g.ctx = 3 ∧ 0 < g.free ∧ s.ringOpen (s.sinkRing k) then
      (s.setSink k { x with page := some ⟨g.p, rec, BitVec.ofNat 32 seq, 1, s.now⟩ }, true)
    else (s, false)

/-- The sink's next record number, taken (Table 21-5). -/
def State.takeSeq (s : State) (k : Nat) : State × Nat :=
  let seq := (s.rd (R.SND_SINK_SEQ k)).toNat
  (s.wr (R.SND_SINK_SEQ k) (BitVec.ofNat 64 ((seq + 1) % 4294967296)), seq)

/-- On the pins, a LOST record goes before the next record where records have been lost since the latest; its POINT, which
the spec does not state, is free. -/
def State.lostRecord (s : State) (k : Nat) : State :=
  let n := (s.sink k).lost
  if !bit (s.sinkCfg k) 30 || n == 0 then s else
  let (s, seq) := s.takeSeq k
  let r := padTo 64 (traceHeader 3 (fld s.fresh 0 8) 64 seq s.now ++ leBytes 8 n)
  (s.drew.emit (.trace r)).updSink k (fun x => { x with lost := 0 })

/-- A record delivered to its sink, or lost: the device limit, then RATE, then the page (R464, R467, R468). -/
def State.traceDeliver (s : State) (k : Nat) (rec : Nat → Bytes) : State :=
  let (s, seq) := (s.lostRecord k).takeSeq k
  let x := s.sink k
  let rate := s.rdf (R.SND_SINK_RATE k) 0 24
  if 100000000 ≤ s.obs.fabricInSecond then s.traceLost k 2
  else if rate ≠ 0 ∧ rate ≤ x.inSecond then s.traceLost k 1
  else
    let s := { s with obs := { s.obs with fabricInSecond := s.obs.fabricInSecond + 1 } }
    let s := s.setSink k { x with inSecond := x.inSecond + 1 }
    let (s, ok) :=
      if bit (s.sinkCfg k) 30 then (s.emit (.trace (rec seq)), true)
      else s.pagePut k (rec seq) seq
    if ok then (s.bump (R.SND_SINK_REC_CNT k)).bump R.SND_REC_CNT else s.traceLost k 0

/-- A trace point takes its record of a packet for each sink that considers it (R464, R465): `block` and `reason` for a drop,
`extra` the instance for point 1, `hits` the stages that hit. -/
def State.trace (s : State) (point : Nat) (sp : Signpost) (bytes : Bytes) (extra block reason hits : Nat) : State :=
  s.each ((List.range 8).filter (fun k => s.considers k point sp)) (fun s k =>
    let x := s.sink k
    let n := x.considered + 1
    let s := (s.setSink k { x with considered := n }).bump R.SND_MATCH_CNT
    if n % 2 ^ fld (s.sinkCfg k) 17 4 ≠ 0 then s else
    match s.packetKind k with
    | none => s
    | some kind =>
      s.traceDeliver k (fun seq =>
        let meta_ := traceHeader kind (point + at' extra 3 + at' (spGet sp SP.PASS) 6) (if kind = 2 then 384 else 128) seq
            s.now ++ bvBytes sp ++ leBytes 1 block ++ leBytes 1 reason ++ leBytes 2 0 ++ leBytes 4 hits
        padTo 128 meta_ ++ (if kind = 2 then padTo 256 bytes else [])))

/-- RX, DONE or DROP of a port's accounting record (Table 21-2); a packet that entered through no port has none. -/
def State.account (s : State) (port field : Nat) : State := if port < 1024 then s.bump (R.SND_PORT port field) else s

end Sys2Proof.Machine
end

