-- ==== Sys2Proof/Machine/Packet.lean ====
section
/-!
DEFINITION. Machine/Packet.lean: what every packet goes through: its cells (R390 to R395), the flow control of the port it
came from (R166), the in-flight count of its generation (R76, R77), its terminal (R24, R462), and the class queues of the
Junction (R189).
-/
namespace Sys2Proof.Machine
open Sys2Proof

/-- The cells of a packet: PKT_LEN over 256, rounded up. -/
def Pkt.cells (p : Pkt) : Nat := ceilDiv (spGet p.sp SP.PKT_LEN) 256

/-- PBUF_FREE: the on-die cells in no use. -/
def State.pbufFree (s : State) : Nat := 524288 - s.hbm.dieUsed - s.hbm.stageUsed

/-- The staging cells PBUF_STAGE_CFG gives, within its limits (Table 17-4). -/
def State.stagingSet (s : State) : Nat :=
  let v := s.rdf R.PBUF_STAGE_CFG 0 20
  if v < 4096 then 4096 else if 131072 < v then 131072 else v

/-- The staging cells reserved (R394). -/
def State.stageCells (s : State) : Nat := s.hbm.stageRes

/-- On-die cells a new packet may take: not those reserved for staging, and outside line and management ingress not those of
the ingress reserve (R391, R392, R394). -/
def State.cellsFor (s : State) (ingress : Bool) : Nat :=
  524288 - s.hbm.dieUsed - s.stageCells - cond ingress 0 s.hbm.ingressRes

def State.spillThresh (s : State) : Nat := s.rdf R.PBUF_SPILL_CFG 0 20

/-- The ingress of a packet that no parse unit has admitted. -/
def noPort : Nat := 1024

/-- A packet as it enters: its frame, ORIGIN and SRC_PORT, the function that sends it, and the next buffer handle; it holds
no cell yet, and no port accounts for it before a parse unit admits it (R462). -/
def State.newPkt (s : State) (bytes : Bytes) (origin port func : Nat) : State × Pkt :=
  let h := s.parse.nextHandle
  ({ s with parse := { s.parse with nextHandle := h + 1 } },
   { handle := h, bytes := bytes
     sp := spSets 0 [(SP.ORIGIN, origin), (SP.SRC_PORT, port), (SP.PKT_LEN, bytes.length)]
     func := BitVec.ofNat 13 func, ingress := noPort, entered := s.now, linePort := none, frag := none, reparse := false
     origin := none, tsReq := 0, egressSa := none, place := 0 })

/-- On-die cells taken; SPILL_ON each time PBUF_FREE falls below THRESH (R403). -/
def State.takeCells (s : State) (n : Nat) : State :=
  let before := s.pbufFree
  let s := { s with hbm := { s.hbm with dieUsed := s.hbm.dieUsed + n } }
  if s.spillThresh ≤ before ∧ s.pbufFree < s.spillThresh then s.raise 0x741 noFunc s.pbufFree 0 else s

/-- The cells of a packet freed wherever they lie (R393, R394); a change of the reserves applies as cells are freed. -/
def State.freeCells (s : State) (p : Pkt) : State :=
  let n := p.cells
  let s := { s with hbm := { s.hbm with stageRes := s.stagingSet, ingressRes := s.rdf R.PBUF_INGRESS_RESERVE 0 20 } }
  if p.place = 0 then { s with hbm := { s.hbm with dieUsed := s.hbm.dieUsed - n } }
  else
    { s with hbm := { s.hbm with
      spillUsed := s.hbm.spillUsed - n
      stageUsed := if p.place = 2 then s.hbm.stageUsed - n else s.hbm.stageUsed } }

/-- A packet spilled to HBM where the die runs low (R393), and whether a cell of it was found uncorrectable as it was read for
that (R395). Whether spill traffic stays within CAP is a matter of timing, and an error a matter of the cells: free values decide
them. -/
def State.spill (s : State) (p : Pkt) : State × Pkt × Bool :=
  let n := p.cells
  if p.place ≠ 0 ∨ s.spillThresh ≤ s.pbufFree ∨ !bit (s.rd R.PBUF_SPILL_CFG) 31 ∨ 33554432 < s.hbm.spillUsed + n then
    (s, p, false)
  else
    let within := bit s.fresh 0
    let bad := bit s.fresh 1
    let s := s.drew
    if within && bad then (s, p, true)
    else if within then
      ({ s with hbm := { s.hbm with dieUsed := s.hbm.dieUsed - n, spillUsed := s.hbm.spillUsed + n } }.bump
        R.PBUF_SPILL_CNT, { p with place := 1 }, false)
    else (s.bump R.PBUF_SPILL_LIMIT_CNT, p, false)

def State.heldCells (s : State) (k : Nat) : Nat := mapGet (fun _ => 0) s.line.heldCells k

def State.setHeldCells (s : State) (k n : Nat) : State :=
  { s with line := { s.line with heldCells := mapSet (fun _ => 0) s.line.heldCells k n } }

/-- FLOW of a line port: 0 none, 1 pause, 2 PFC (Table 7-5). -/
def State.flow (s : State) (p : Nat) : Nat :=
  let v := s.rdf (R.LINE_PORT_CFG p) 28 2
  if v = 3 then 0 else v

/-- A pause or PFC frame sent, and counted (R166). -/
def State.sendPfc (s : State) (p t quanta : Nat) : State :=
  if s.flow p = 1 then (s.emit (.pfc p 0 [quanta])).bump (R.LINE_PAUSE_TX_CNT p)
  else (s.emit (.pfc p (BitVec.ofNat 8 (at' 1 t)) [quanta])).bump (R.LINE_PFC_TX_CNT p t)

/-- The cells held that flow control of port `p` compares for priority `t`: its own, or in pause mode all of the port's. -/
def State.flowCells (s : State) (p t : Nat) : Nat :=
  if s.flow p = 1 then ((List.range 8).map (fun i => s.heldCells (p * 8 + i))).sum else s.heldCells (p * 8 + t)

/-- The XOFF bits that stand for priority `t` of port `p`: in pause mode all of them stand for the whole port. -/
def State.xoffMask (s : State) (p t : Nat) : Byte := if s.flow p = 1 then 0xFF else BitVec.ofNat 8 (at' 1 t)

/-- Flow control looks at a changed count (R166): XOFF above the threshold, XON at or below it. -/
def State.flowCheck (s : State) (p t : Nat) : State :=
  if s.flow p = 0 ∨ (s.port p).st ≠ .up then s else
  let n := s.flowCells p t
  let m := s.xoffMask p t
  let l := s.port p
  let on := l.xoff &&& m != 0
  if !on && decide (s.rdf (R.LINE_PFC_THRESH p) 16 16 < n) then
    ((s.setPort p { l with xoff := l.xoff ||| m }).sendPfc p t 0xFFFF).raise (0x198 + p) noFunc (cond (s.flow p == 1) 0 t) 0
  else if on && decide (n ≤ s.rdf (R.LINE_PFC_THRESH p) 0 16) then
    (s.setPort p { l with xoff := l.xoff &&& ~~~m }).sendPfc p t 0
  else s

/-- The cells of a packet leave the count of the port it came in on. -/
def State.flowRelease (s : State) (p : Pkt) : State :=
  match p.linePort with
  | none => s
  | some k => (s.setHeldCells k (s.heldCells k - p.cells)).flowCheck (k / 8) (k % 8)

/-- A packet whose frame is replaced in new cells on the die, its length with it (R382); flow control sees the count it changes
(R166). -/
def State.recell (s : State) (p : Pkt) (bytes : Bytes) : State × Pkt :=
  let q := { p with bytes := bytes, sp := spSet p.sp SP.PKT_LEN bytes.length, place := 0 }
  let s := (s.freeCells p).takeCells q.cells
  let s := match p.linePort with
    | some k => (s.setHeldCells k (s.heldCells k - p.cells + q.cells)).flowCheck (k / 8) (k % 8)
    | none => s
  (s, q)

def State.gen (s : State) (g : Nat) : GenSlot := if g = 0 then s.cway.gen0 else s.cway.gen1

def State.setGen (s : State) (g : Nat) (v : GenSlot) : State :=
  if g = 0 then { s with cway := { s.cway with gen0 := v } } else { s with cway := { s.cway with gen1 := v } }

/-- Whether a generation slot decides passes: LIVE or DRAINING. -/
def GenSlot.serves (g : GenSlot) : Bool := g.st == .live || g.st == .draining

/-- The slot whose waymark a packet carries (R75). -/
def State.slotOf (s : State) (wm : Nat) : Option Nat :=
  [0, 1].find? (fun g => (s.gen g).serves && (s.gen g).waymark.toNat == wm)

/-- The LIVE slot (R76). -/
def State.liveSlot (s : State) : Nat := if s.cway.gen0.st = .live then 0 else 1

/-- A packet leaves the in-flight count of its generation; a DRAINING slot at 0 goes FREE (R76, R77). -/
def State.leaveGen (s : State) (sp : Signpost) : State :=
  match s.slotOf (spGet sp SP.WAYMARK) with
  | none => s
  | some g =>
    let v := s.gen g
    let n := v.inflight - 1
    if v.st = .draining ∧ n = 0 then
      (s.setGen g { v with st := .free, inflight := 0 }).raise 0x250 noFunc v.waymark.toNat g
    else s.setGen g { v with inflight := n }

/-- A packet leaves the in-flight count, if a parse unit ever stamped it (R77, R191). -/
def State.leave_ (s : State) (p : Pkt) : State := if p.ingress = noPort then s else s.leaveGen p.sp

/-- A packet has reached a terminal (R24): its cells are free, its port's account and its transmit operation know of it. -/
def State.endPkt (s : State) (p : Pkt) (drop : Option (Nat × Nat)) : State :=
  let s := (s.freeCells p).flowRelease p
  let s := (s.account p.ingress 1).if_ drop.isSome (fun s => s.account p.ingress 2)
  s.frameDone p.origin drop

/-- A packet dropped while its generation still counts it: the counter at `cnt`, block and reason of Table 13-18. -/
def State.dropEarly (s : State) (p : Pkt) (cnt block reason : Nat) : State :=
  ((s.bump cnt).leave_ p).endPkt p (some (block, reason))

/-- A packet dropped after it left the in-flight count. -/
def State.dropLate (s : State) (p : Pkt) (cnt block reason : Nat) : State :=
  (s.bump cnt).endPkt p (some (block, reason))

/-- A packet in block `b`, or come to it, while the block is held in reset is dropped (R416): while its generation still counts
it, or after. -/
def State.heldDrop (s : State) (b : Nat) (p : Pkt) : State := s.dropEarly p (R.CLKRST_BLOCK_DROP_CNT b) 17 b
def State.heldDropLate (s : State) (b : Nat) (p : Pkt) : State := s.dropLate p (R.CLKRST_BLOCK_DROP_CNT b) 17 b

/-- An uncorrectable packet buffer cell is found (R395). Which cell it is, and which of its words, the spec does not fix. -/
def State.pbufUncorr (s : State) : State :=
  let cell := s.fresh.toNat % 524288
  (s.drew.bump R.PBUF_ECC_UNCORR_CNT).raise 0x740 noFunc cell (4 * (cell % 8) + fld s.fresh 20 2)

/-- A packet found uncorrectable after it left the in-flight count is dropped before any byte of it leaves (R395). -/
def State.cellUncorr (s : State) (p : Pkt) : State := s.pbufUncorr.dropLate p (R.PBUF_DROP_CNT 2) 15 2

/-- FUNC of a packet's events: the sending function for packets from a host port (R59, R86). -/
def Pkt.evFunc (p : Pkt) : Nat :=
  let o := spGet p.sp SP.ORIGIN
  if o = 1 ∨ o = 2 then p.func.toNat else noFunc

/-- A packet for the traffic manager. -/
def State.toTm (s : State) (p : Pkt) : State := { s with tm := { s.tm with input := s.tm.input ++ [(p, false)] } }

def State.classQueue (s : State) (c : Nat) : List (Pkt × Nat) := mapGet (fun _ => ([] : List (Pkt × Nat))) s.eng.classQ c

def State.setClassQueue (s : State) (c : Nat) (l : List (Pkt × Nat)) : State :=
  { s with eng := { s.eng with classQ := mapSet (fun _ => []) s.eng.classQ c l } }

/-- The packets in all class queues. -/
def State.classStored (s : State) : Nat := (s.eng.classQ.map (fun e => e.2.length)).sum

/-- The JCT_MEMBER indices of a class (Table 8-18). -/
def State.members (s : State) (c : Nat) : List Nat :=
  let v := s.rd (R.JCT_CLASS_CFG c)
  ((List.range (fld v 10 11)).map (fun i => fld v 0 10 + i)).filter (fun m => decide (m < 1024))

def State.memberValid (s : State) (m : Nat) : Bool := bit (s.rd (R.JCT_MEMBER m)) 31

/-- A packet joins a class queue, spilled where the die runs low, or is dropped for the class (R189, R393). -/
def State.toClass (s : State) (c : Nat) (p : Pkt) (source : Nat) : State :=
  let v := s.rd (R.JCT_CLASS_CFG c)
  let drop := fun (code : Nat) =>
    (s.raise 0x512 noFunc c code).dropEarly p (R.JCT_CLASS_DROP_CNT c) 11 c
  if s.blockHeld 11 then s.heldDrop 11 p
  else if !bit v 63 || !(s.members c).any (fun m => s.memberValid m) then drop 1
  else if fld v 32 15 ≤ (s.classQueue c).length ∨ 32768 ≤ s.classStored then drop 0
  else
    let (s, p, bad) := s.spill p
    if bad then s.pbufUncorr.dropEarly p (R.PBUF_DROP_CNT 2) 15 2 else
    s.setClassQueue c (s.classQueue c ++ [(p, source)])

end Sys2Proof.Machine
end

