-- ==== Sys2Proof/Machine/Cipher.lean ====
section
/-!
DEFINITION. Machine/Cipher.lean: what the cipher cores do to a packet: the INLINE point, the EGRESS point and MACsec (R376 to
R387). The frame layouts of ESP, TLS 1.3 and MACsec are those of the RFCs and the standard the spec names (PRESUMED); the
ciphers themselves are constants of Config without a body.
-/
namespace Sys2Proof.Machine
open Sys2Proof

def State.sa (s : State) (k : Nat) : SaRec := mapGet (fun _ => SaRec.empty) s.ciph.sa k

def State.setSa (s : State) (k : Nat) (v : SaRec) : State :=
  { s with ciph := { s.ciph with sa := mapSet (fun _ => SaRec.empty) s.ciph.sa k v } }

def SaRec.valid (a : SaRec) : Bool := bit a.control 31
def SaRec.inbound (a : SaRec) : Bool := bit a.control 30
def SaRec.proto (a : SaRec) : Nat := fld a.control 28 2
def SaRec.key256 (a : SaRec) : Bool := bit a.control 27
def SaRec.ext (a : SaRec) : Bool := bit a.control 26
def SaRec.tunnel (a : SaRec) : Bool := bit a.control 25
def SaRec.encap (a : SaRec) : Bool := bit a.control 24
def SaRec.port (a : SaRec) : Nat := fld a.control 13 3
def SaRec.owner (a : SaRec) : Nat := if a.proto = 0 then noFunc else fld a.control 0 13

/-- Whether a number is accepted (R384): above SEQ, or above SEQ − WINDOW and not marked; a WINDOW of 0 turns the check
off. -/
def SaRec.accepts (a : SaRec) (n : Nat) : Bool :=
  a.window == 0 || decide (a.seq.toNat < n) ||
  (decide (a.seq.toNat < n + a.window.toNat) && !decide (BitVec.ofNat 64 n ∈ a.marks))

/-- A number committed: marked, and SEQ raised to it; marks below the window are no longer needed (R384). -/
def SaRec.commit (a : SaRec) (n : Nat) : SaRec :=
  let seq := max a.seq.toNat n
  { a with
    seq := BitVec.ofNat 64 seq
    marks := (a.marks ++ [BitVec.ofNat 64 n]).filter (fun m => decide (seq < m.toNat + a.window.toNat)) }

/-- A packet's bytes counted in its association. -/
def SaRec.counted (a : SaRec) (len : Nat) (t : DWord) : SaRec :=
  { a with pkts := a.pkts + 1, bytes := a.bytes + BitVec.ofNat 64 len, lastTime := t }

/-- The full number behind its low 32 bits: the one nearest above the bottom of the window (RFC 4303, 802.1AE). -/
def SaRec.fullNum (a : SaRec) (low : Nat) : Nat :=
  if !a.ext then low else
  let bottom := a.seq.toNat + 1 - a.window.toNat
  let hi := bottom / 4294967296
  if low < bottom % 4294967296 then (hi + 1) * 4294967296 + low else hi * 4294967296 + low

/-- The SALT as 12 bytes. -/
def SaRec.saltBytes (a : SaRec) : Bytes := bvBytes a.salt

def nonceOf (b : Bytes) : BitVec 96 := bytesBv 96 b

/-- Two runs of equal length combined by XOR. -/
def xorBytes (a b : Bytes) : Bytes := List.zipWith (· ^^^ ·) a b

/-- What the INLINE point found: RESULT, NEXT, the plaintext frame and the association to commit. -/
structure Inline where
  result : Nat
  next : Nat
  bytes : Option Bytes
  sa : SaRec
  deriving DecidableEq, Repr

/-- An IPv4 or IPv6 header of a frame with a new protocol and the length of what follows, the IPv4 checksum anew. -/
def fixIp (f : Bytes) (off l3 proto : Nat) : Bytes :=
  if l3 = 1 then
    let ihl := (byteAt f off).toNat % 16 * 4
    let f := patch (patch (patch f (off + 2) (beBytes 2 (f.length - off))) (off + 9) (leBytes 1 proto)) (off + 10) [0, 0]
    patch f (off + 10) (beBytes 2 (inetCsum (slice f off ihl)))
  else patch (patch f (off + 4) (beBytes 2 (f.length - off - 40))) (off + 6) (leBytes 1 proto)

/-- The number an ESP packet carries and where its header lies: after the parsed headers, where these end at ESP or at a UDP
header of port 4,500. -/
def espAt (a : SaRec) (sp : Signpost) : Option Nat :=
  let l3 := spGet sp SP.L3_TYPE
  if l3 ≠ 1 ∧ l3 ≠ 2 then none
  else if a.encap then
    if spGet sp SP.L4_TYPE = 2 ∧ (spGet sp SP.SRC_L4 = 4500 ∨ spGet sp SP.DST_L4 = 4500) then some (spGet sp SP.PAYLOAD_OFF)
    else none
  else if spGet sp SP.PROTO = 50 then some (spGet sp SP.PAYLOAD_OFF) else none

/-- Inbound ESP (RFC 4303, RFC 4106). -/
def inlineEsp (a : SaRec) (sp : Signpost) (f : Bytes) (t : DWord) : Inline :=
  match espAt a sp with
  | none => ⟨4, 0, none, a⟩
  | some off =>
    if beAt f off 4 ≠ a.spi.toNat ∨ f.length < off + 34 then ⟨4, 0, none, a⟩ else
    let n := a.fullNum (beAt f (off + 4) 4)
    if !a.accepts n then ⟨2, 0, none, { a with fails := a.fails + 1 }⟩ else
    let aad := slice f off 4 ++ (if a.ext then beBytes 8 n else slice f (off + 4) 4)
    let nonce := nonceOf (a.saltBytes.take 4 ++ slice f (off + 8) 8)
    match Config.gcmOpen a.key a.key256 nonce aad (f.drop (off + 16)) with
    | none => ⟨1, 0, none, { a with fails := a.fails + 1 }⟩
    | some p =>
      let next := (byteAt p (p.length - 1)).toNat
      let pad := (byteAt p (p.length - 2)).toNat
      let data := p.take (p.length - 2 - pad)
      let head := f.take (if a.encap then off - 8 else off)
      ⟨0, next, some (fixIp (head ++ data) (spGet sp SP.L3_OFF) (spGet sp SP.L3_TYPE) next),
        (a.commit n).counted f.length t⟩

/-- The TLS records of a segment from its byte `at_`, decrypted where they lie whole (R385): the plaintext so far, the
inner content type of the latest, the association, and whether a record was left over. -/
def tlsRecords : Nat → SaRec → Bytes → Bytes → Nat → Option (Bytes × Nat × SaRec × Bool)
  | 0, a, _, out, next => some (out, next, a, false)
  | fuel + 1, a, rest, out, next =>
    if rest.isEmpty then some (out, next, a, false)
    else if rest.length < 5 then some (out ++ rest, next, { a with unsync := true }, true)
    else
      let len := beAt rest 3 2
      let a' := { a with seq := a.seq + 1, tcpSeq := a.tcpSeq + BitVec.ofNat 32 (len + 5) }
      if rest.length < len + 5 then some (out ++ rest, next, a', true)
      else
        let nonce := nonceOf (xorBytes a.saltBytes ([0, 0, 0, 0] ++ beBytes 8 a.seq.toNat))
        match Config.gcmOpen a.key a.key256 nonce (rest.take 5) (slice rest 5 len) with
        | none => none
        | some p =>
          let p' := (p.reverse.dropWhile (· == 0)).reverse
          tlsRecords fuel a' (rest.drop (len + 5)) (out ++ p'.take (p'.length - 1)) (byteAt p' (p'.length - 1)).toNat

/-- Inbound TLS (R385). -/
def inlineTls (a : SaRec) (sp : Signpost) (f : Bytes) (t : DWord) : Inline :=
  if spGet sp SP.L4_TYPE ≠ 1 then ⟨4, 0, none, a⟩ else
  let off := spGet sp SP.PAYLOAD_OFF
  let seq := BitVec.ofNat 32 (beAt f (spGet sp SP.L4_OFF + 4) 4)
  let seg := f.drop off
  let behind := (a.tcpSeq - seq).toNat
  if a.unsync then ⟨6, 0, none, a⟩
  else if 2147483648 ≤ behind then ⟨6, 0, none, { a with unsync := true }⟩
  else if 0 < behind ∧ seg.length ≤ behind then ⟨7, 0, none, a⟩
  else match tlsRecords 2048 a (seg.drop behind) [] 0 with
    | none => ⟨1, 0, none, { a with fails := a.fails + 1 }⟩
    | some (out, next, a', left) =>
      let frame := f.take off ++ seg.take behind ++ out
      let l3 := spGet sp SP.L3_TYPE
      ⟨if left then 5 else 0, if left then 0 else next, some (fixIp frame (spGet sp SP.L3_OFF) l3 6), a'.counted f.length t⟩

/-- The INLINE point for one operation (R381 to R385, Table 16-4). -/
def State.inline (s : State) (k : Nat) (sp : Signpost) (f : Bytes) : Inline :=
  let a := s.sa k
  if !a.valid then ⟨3, 0, none, a⟩
  else if !a.inbound then ⟨4, 0, none, a⟩
  else match a.proto with
    | 1 => inlineEsp a sp f s.now
    | 2 => inlineTls a sp f s.now
    | _ => ⟨4, 0, none, a⟩

/-- CARRY[3] (Table 16-4). -/
def Inline.carry (r : Inline) (k : Nat) : Word :=
  BitVec.ofNat 32 (at' 1 31 + at' r.result 28 + at' (if r.result = 0 then r.next else 0) 20 + k)

/-- The commit of an INLINE result as the pass's result leaves stage 23 (R382). -/
def State.inlineCommit (s : State) (k : Nat) (r : Inline) : State :=
  let a := s.sa k
  let s := if a.valid then s.setSa k r.sa else s
  let s := if r.result = 0 ∨ r.result = 5 then
      (s.bump R.CIPH_DEC_PKT_CNT).bumpN R.CIPH_DEC_BYTE_CNT ((r.bytes.map List.length).getD 0) else s
  let s := if r.result = 0 then s else s.raise 0x702 (if a.valid then a.owner else noFunc) k r.result
  if r.result = 6 ∧ !a.unsync then s.raise 0x704 a.owner k 0 else s

/-- An EGRESS drop: its counter, block and reason, and its events (R386, R389). -/
def State.egressDrop (s : State) (k : Nat) (p : Pkt) (r : Nat) : State :=
  let a := s.sa k
  let s := if r = 2 then s.raise 0x701 a.owner k 2 else s
  (s.raise 0x703 (if a.valid then a.owner else noFunc) k r).dropLate p (R.CIPH_DROP_CNT r) 14 r

/-- SEQ one higher after a number has been sent, and SA_SOFT_LIMIT once (R386). -/
def State.sent (s : State) (k n len : Nat) : State :=
  let a := s.sa k
  let a' := { a.counted len s.now with seq := a.seq + BitVec.ofNat 64 n }
  let soft := decide ((s.rd R.CIPH_SOFT_THRESH).toNat ≤ a'.seq.toNat) && !a.softRaised
  let s := s.setSa k { a' with softRaised := a.softRaised || soft }
  let s := (s.bump R.CIPH_ENC_PKT_CNT).bumpN R.CIPH_ENC_BYTE_CNT len
  if soft then s.raise 0x700 a.owner k 0 else s

/-- Whether an outbound association has no number left (R386). -/
def SaRec.exhausted (a : SaRec) : Bool :=
  if a.ext || a.proto == 2 then a.seq == 0xFFFFFFFFFFFFFFFF else decide (0xFFFFFFFF ≤ a.seq.toNat)

/-- ESP padding to a multiple of four bytes, pad length and next header (RFC 4303). -/
def espTrailer (len next : Nat) : Bytes :=
  let n := (4 - (len + 2) % 4) % 4
  (List.range n).map (fun i => BitVec.ofNat 8 (i + 1)) ++ leBytes 1 n ++ leBytes 1 next

/-- An outer header of tunnel mode with length, identification and checksum filled; the identification is left open. -/
def fillTemplate (tpl : Bytes) (body ident : Nat) : Bytes :=
  if (byteAt tpl 0).toNat / 16 = 4 then
    let ihl := (byteAt tpl 0).toNat % 16 * 4
    let t := patch (patch (patch tpl 2 (beBytes 2 (tpl.length + body))) 4 (beBytes 2 ident)) 10 [0, 0]
    let t := if ihl + 8 ≤ t.length ∧ byteAt t 9 = 17 then patch t (ihl + 4) (beBytes 2 (t.length - ihl + body)) else t
    patch t 10 (beBytes 2 (inetCsum (t.take ihl)))
  else
    let t := patch tpl 4 (beBytes 2 (tpl.length + body - 40))
    if 48 ≤ t.length ∧ byteAt t 6 = 17 then patch t 44 (beBytes 2 (t.length - 40 + body)) else t

/-- Outbound ESP: the frame as it leaves. The IV is left open: `iv` is a free value. -/
def egressEsp (a : SaRec) (sp : Signpost) (f : Bytes) (iv : Bytes) (ident : Nat) : Option Bytes :=
  let l3 := spGet sp SP.L3_TYPE
  let off := spGet sp SP.L3_OFF
  if l3 ≠ 1 ∧ l3 ≠ 2 then none else
  let hdr := if l3 = 1 then (byteAt f off).toNat % 16 * 4 else 40
  let inner := if a.tunnel then f.drop off else f.drop (off + hdr)
  let next := if a.tunnel then (if l3 = 1 then 4 else 41) else spGet sp SP.PROTO
  let plain := inner ++ espTrailer inner.length next
  let head := beBytes 4 a.spi.toNat ++ beBytes 4 (a.seq.toNat % 4294967296)
  let aad := beBytes 4 a.spi.toNat ++ (if a.ext then beBytes 8 a.seq.toNat else beBytes 4 a.seq.toNat)
  let body := head ++ iv ++ Config.gcmSeal a.key a.key256 (nonceOf (a.saltBytes.take 4 ++ iv)) aad plain
  if a.tunnel then some (f.take off ++ fillTemplate a.template body.length ident ++ body)
  else
    let udp := if a.encap then beBytes 2 4500 ++ beBytes 2 4500 ++ beBytes 2 (body.length + 8) ++ [0, 0] else []
    some (fixIp (f.take (off + hdr) ++ udp ++ body) off l3 (if a.encap then 17 else 50))

/-- The whole records of an outbound TLS segment sealed in place, with their number; none where a record does not lie
whole. -/
def tlsSeal : Nat → SaRec → DWord → Bytes → Bytes → Nat → Option (Bytes × Nat)
  | 0, _, _, _, _, _ => none
  | fuel + 1, a, seq, rest, out, n =>
    if rest.isEmpty then some (out, n) else
    let len := beAt rest 3 2
    if rest.length < 5 ∨ rest.length < len + 5 ∨ len < 17 then none else
    let nonce := nonceOf (xorBytes a.saltBytes ([0, 0, 0, 0] ++ beBytes 8 seq.toNat))
    tlsSeal fuel a (seq + 1) (rest.drop (len + 5))
      (out ++ rest.take 5 ++ Config.gcmSeal a.key a.key256 nonce (rest.take 5) (slice rest 5 (len - 16))) (n + 1)

/-- The TCP checksum of a frame written anew over its pseudo-header (RFC 9293). -/
def fixTcp (f : Bytes) (l3 off l4 : Nat) : Bytes :=
  let f := patch f (l4 + 16) [0, 0]
  let seg := f.drop l4
  let pseudo := if l3 = 1 then slice f (off + 12) 8 ++ [0, 6] ++ beBytes 2 seg.length
    else slice f (off + 8) 32 ++ beBytes 4 seg.length ++ [0, 0, 0, 6]
  patch f (l4 + 16) (beBytes 2 (inetCsum (pseudo ++ seg)))

/-- The EGRESS point (R381, R386): the frame encrypted, or the reason it is dropped. -/
def State.egress (s : State) (k : Nat) (sp : Signpost) (f : Bytes) (maxFrame : Option Nat) : State × Except Nat Bytes :=
  let a := s.sa k
  if !a.valid then (s, .error 0)
  else if a.inbound ∨ a.proto = 0 then (s, .error 1)
  else if a.proto = 1 then
    let free := s.fresh
    let s := s.drew
    match egressEsp a sp f (leBytes 8 free.toNat) (fld free 64 16) with
    | none => (s, .error 1)
    | some g =>
      if a.exhausted then (s, .error 2)
      else if (match maxFrame with | some m => decide (m < g.length) | none => false) then (s, .error 3)
      else (s.sent k 1 f.length, .ok g)
  else
    if spGet sp SP.L4_TYPE ≠ 1 then (s, .error 1)
    else if a.exhausted then (s, .error 2)
    else
      let off := spGet sp SP.PAYLOAD_OFF
      if (match maxFrame with | some m => decide (m < f.length) | none => false) then (s, .error 3) else
      match tlsSeal 2048 a a.seq (f.drop off) [] 0 with
      | none => (s, .error 4)
      | some (out, n) =>
        (s.sent k n f.length, .ok (fixTcp (f.take off ++ out) (spGet sp SP.L3_TYPE) (spGet sp SP.L3_OFF) (spGet sp SP.L4_OFF)))

/-- CIPH_MACSEC_CFG[p]: whether MACsec applies, and VALIDATE (Table 16-9). -/
def State.macsecOn (s : State) (p : Nat) : Bool :=
  bit (s.rd (R.CIPH_MACSEC_CFG p)) 31 && s.rdf (R.CIPH_MACSEC_CFG p) 29 2 != 0

/-- The inbound associations of port `p`, by index. -/
def State.macsecSas (s : State) (p : Nat) : List (Nat × SaRec) :=
  s.ciph.sa.filter (fun e => e.2.valid && e.2.inbound && e.2.proto == 0 && e.2.port == p)

/-- The nonce of a MACsec frame (802.1AE): SCI and PN, or with XPN the salt combined with SSCI and the full PN. -/
def macsecNonce (a : SaRec) (sci n : Nat) : BitVec 96 :=
  if a.ext then nonceOf (xorBytes a.saltBytes (beBytes 4 a.ssci.toNat ++ beBytes 8 n))
  else nonceOf (beBytes 8 sci ++ beBytes 4 n)

/-- What MACsec makes of a received frame: the frame passed on, or the reason it is dropped (R387). -/
def State.macsecRx (s : State) (p : Nat) (f : Bytes) : State × Except Nat Bytes :=
  let etype := beAt f 12 2
  if !s.macsecOn p || etype == 0x888E then (s, .ok f)
  else if etype ≠ 0x88E5 then
    if s.rdf (R.CIPH_MACSEC_CFG p) 29 2 = 1 then (s.bump (R.CIPH_MACSEC_UNPROT_CNT p), .ok f) else (s, .error 7)
  else
    let tci := byteAt f 14
    let sc := bit tci 5
    let tag := if sc then 16 else 8
    if bit tci 7 ∨ 47 < (byteAt f 15).toNat ∨ f.length < 12 + tag + 16 ∨ (sc && (bit tci 6 || bit tci 4)) then (s, .error 4) else
    let all := s.macsecSas p
    let chans := (all.map (fun e => fld e.2.spi 2 6)).eraseDups
    let mine := if sc then all.filter (fun e => e.2.sci.toNat == beAt f 20 8) else if chans.length = 1 then all else []
    if mine.isEmpty then (s, .error 0) else
    match mine.find? (fun e => fld e.2.spi 0 2 == fld tci 0 2) with
    | none => (s, .error 3)
    | some (k, a) =>
      let n := a.fullNum (beAt f 16 4)
      if !a.accepts n then (s.setSa k { a with fails := a.fails + 1 }, .error 2) else
      let body := f.drop (12 + tag)
      let clear := if bit tci 3 then a.offset else body.length - 16
      let aad := f.take (12 + tag) ++ body.take clear
      match Config.gcmOpen a.key a.key256 (macsecNonce a a.sci.toNat n) aad (body.drop clear) with
      | none => (s.setSa k { a with fails := a.fails + 1 }, .error 1)
      | some plain =>
        let s := s.setSa k ((a.commit n).counted f.length s.now)
        ((s.bump R.CIPH_DEC_PKT_CNT).bumpN R.CIPH_DEC_BYTE_CNT plain.length, .ok (f.take 12 ++ body.take clear ++ plain))

/-- What MACsec makes of a frame to be sent on port `p` (R387). -/
def State.macsecTx (s : State) (p : Nat) (f : Bytes) : State × Except Nat Bytes :=
  if !s.macsecOn p || beAt f 12 2 == 0x888E then (s, .ok f) else
  let k := mapGet (fun _ => 0xFFFFF) s.ciph.txCurrent p
  let a := s.sa k
  if k = 0xFFFFF ∨ !a.valid then (s, .error 5)
  else if a.exhausted then (s, .error 6)
  else
    let sci := bit (s.rd (R.CIPH_MACSEC_CFG p)) 28
    let body := f.drop 12
    let short := if body.length < 48 then body.length else 0
    let tag := beBytes 2 0x88E5 ++ leBytes 1 (at' (b2n sci) 5 + 12 + fld a.spi 0 2) ++ leBytes 1 short ++
      beBytes 4 (a.seq.toNat % 4294967296) ++ (if sci then beBytes 8 a.sci.toNat else [])
    let aad := f.take 12 ++ tag ++ body.take a.offset
    let sealed := Config.gcmSeal a.key a.key256 (macsecNonce a a.sci.toNat a.seq.toNat) aad (body.drop a.offset)
    (s.sent k 1 f.length, .ok (aad ++ sealed))

end Sys2Proof.Machine
end

