-- ==== Sys2Proof/Machine/LineTx.lean ====
section
/-!
DEFINITION. Machine/LineTx.lean: what a frame goes through as it leaves: the EGRESS point, PTP fields, the next-hop rewrite,
MACsec and the MAC (R96, R163, R172, R173, R386, R387).
-/
namespace Sys2Proof.Machine
open Sys2Proof

/-- Line ports of the port option in force (Table 7-1): their number, and their rate in bits per ns. -/
def State.portOpt (s : State) : Nat × Nat := match s.rdf R.LINE_PORT_OPT 0 3 with
  | 0 => (1, 1600) | 1 => (2, 800) | 2 => (4, 400) | 3 => (8, 200) | 4 => (8, 100) | _ => (0, 0)

/-- MAX_FRAME in force (R163). -/
def State.maxFrame (s : State) (p : Nat) : Nat := max 1514 (min 9600 (s.rdf (R.LINE_PORT_CFG p) 0 14))

/-- A timestamp taken now: a free value within `tol` ns of Milepost time (R172). -/
def State.stampTime (s : State) (tol : Nat) : State × DWord :=
  (s.drew, s.now + BitVec.ofNat 64 (s.fresh.toNat % (2 * tol + 1)) - BitVec.ofNat 64 tol)

/-- Where the PTP header of a frame begins, if it is a PTP event message in Ethernet or in UDP (R173); true in UDP. -/
def ptpAt (sp : Signpost) (f : Bytes) : Option (Nat × Bool) :=
  let et := 12 + 4 * spGet sp SP.L2_TAGS
  let l4 := spGet sp SP.L4_OFF
  let port := beAt f (l4 + 2) 2
  let found := if beAt f et 2 = 0x88F7 then some (et + 2, false)
    else if spGet sp SP.L4_TYPE = 2 ∧ (port = 319 ∨ port = 320) then some (l4 + 8, true)
    else none
  match found with
  | some (o, udp) => if o + 34 ≤ f.length ∧ fld (byteAt f o) 0 4 < 4 then some (o, udp) else none
  | none => none

/-- The UDP checksum of a frame written anew over its pseudo-header; a checksum of 0 in IPv4 stays 0. -/
def fixUdp (sp : Signpost) (f : Bytes) : Bytes :=
  let off := spGet sp SP.L3_OFF
  let l4 := spGet sp SP.L4_OFF
  if spGet sp SP.L3_TYPE = 1 ∧ beAt f (l4 + 6) 2 = 0 then f else
  let f := patch f (l4 + 6) [0, 0]
  let len := beAt f (l4 + 4) 2
  let pseudo := if spGet sp SP.L3_TYPE = 1 then slice f (off + 12) 8 ++ [0, 17] ++ beBytes 2 len
    else slice f (off + 8) 32 ++ beBytes 4 len ++ [0, 0, 0, 17]
  let c := inetCsum (pseudo ++ slice f l4 len)
  patch f (l4 + 6) (beBytes 2 (if c = 0 then 65535 else c))

/-- correctionField raised by `ns` (R173). -/
def ptpCorrect (f : Bytes) (o : Nat) (ns : Nat) : Bytes :=
  patch f (o + 8) (beBytes 8 ((beAt f (o + 8) 8 + at' ns 16) % 2 ^ 64))

/-- One-step form: the transmit time in originTimestamp; what correctionField becomes the spec does not say, a free value
(R173). -/
def ptpOneStep (f : Bytes) (o : Nat) (t : DWord) (corr : Nat) : Bytes :=
  patch (patch f (o + 34) (beBytes 6 (t.toNat / 1000000000) ++ beBytes 4 (t.toNat % 1000000000))) (o + 8) (beBytes 8 corr)

/-- The PTP fields of a frame that leaves at `t`: one-step where its descriptor asked for it, residence time where the port is
a transparent clock and the frame came from a line or management port. -/
def State.ptpFields (s : State) (tc : Bool) (p : Pkt) (t : DWord) (f : Bytes) : State × Bytes :=
  match ptpAt p.sp f with
  | none => (s, f)
  | some (o, udp) =>
    let fix := fun f => if udp then fixUdp p.sp f else f
    if p.tsReq = 2 then (s.drew, fix (ptpOneStep f o t (fld s.fresh 0 64)))
    else if tc && spGet p.sp SP.ORIGIN == 0 then (s, fix (ptpCorrect f o (t - p.entered).toNat))
    else (s, f)

/-- The transmit operation of a timestamped frame learns its departure time (R310). -/
def State.stampOrigin (s : State) (p : Pkt) (t : DWord) : State :=
  match p.origin with
  | some (r, no) => if p.tsReq = 0 then s else
      s.updRing r (fun k => k.updOp no (fun o => { o with txTime := t, tsValid := true }))
  | none => s

/-- The next-hop entry a packet's rewrite takes, if it is VALID (R96). -/
def State.rewriteEntry (s : State) (sp : Signpost) : Option (BitVec 256) :=
  let e := mapGet (fun _ => (0 : BitVec 256)) s.rtbl.nexthop (spGet sp SP.NEXTHOP)
  if bit e 159 then some e else none

/-- The change of length by the VLAN rewrite. -/
def vlanDelta (sp : Signpost) (e : Option (BitVec 256)) : Int := match e with
  | none => 0
  | some e => match fld e 110 2 with
    | 1 => 4
    | 2 => if spGet sp SP.L2_TAGS = 0 then 0 else -4
    | _ => 0

/-- The TTL or hop limit decremented, the IPv4 checksum with it (R96). -/
def decTtl (sp : Signpost) (f : Bytes) : Bytes :=
  let off := spGet sp SP.L3_OFF
  let at_ := if spGet sp SP.L3_TYPE = 1 then off + 8 else off + 7
  let t := (byteAt f at_).toNat
  if (spGet sp SP.L3_TYPE ≠ 1 ∧ spGet sp SP.L3_TYPE ≠ 2) ∨ t = 0 then f else
  let f := patch f at_ (leBytes 1 (t - 1))
  if spGet sp SP.L3_TYPE = 1 then
    let ihl := (byteAt f off).toNat % 16 * 4
    let f := patch f (off + 10) [0, 0]
    patch f (off + 10) (beBytes 2 (inetCsum (slice f off ihl)))
  else f

/-- The rewrite of a next-hop entry (Table 4-5): TTL, addresses, VLAN tag. A tag pushed or put in place takes the Signpost's
PCP. -/
def rewrite (sp : Signpost) (e : BitVec 256) (f : Bytes) : Bytes :=
  let f := if bit e 112 then decTtl sp f else f
  let f := patch f 0 (beBytes 6 (fld e 0 48) ++ beBytes 6 (fld e 48 48))
  let tci := beBytes 2 (at' (spGet sp SP.PCP) 13 + fld e 96 12)
  let tagged := spGet sp SP.L2_TAGS != 0
  match fld e 110 2 with
  | 1 => f.take 12 ++ beBytes 2 0x8100 ++ tci ++ f.drop 12
  | 2 => if tagged then f.take 12 ++ f.drop 16 else f
  | 3 => if tagged then patch f 14 tci else f
  | _ => f

/-- A frame as the next-hop entry leaves it. -/
def State.rewritten (s : State) (sp : Signpost) (f : Bytes) : Bytes := match s.rewriteEntry sp with
  | some e => rewrite sp e f
  | none => f

/-- The EGRESS point of a packet (R381): the packet goes on, or has been dropped. -/
def State.egressPoint (s : State) (p : Pkt) (maxFrame : Option Nat) : State × Option Pkt :=
  match p.egressSa with
  | none => (s, some p)
  | some k =>
    match s.egress k p.sp p.bytes maxFrame with
    | (s, .error r) => (s.egressDrop k p r, none)
    | (s, .ok f) => let (s, p) := s.recell p f
                    (s, some p)

/-- A packet that leaves by line port `n`, or by the management port, with its PTP fields, and its departure time: the fields are
written before an EGRESS association protects the frame (DEDUCED from R310: the time is in the message). -/
def State.ptpOut (s : State) (line : Option Nat) (p : Pkt) : State × DWord × Pkt :=
  let (s, t) := s.stampTime (if line.isSome then 4 else 8)
  let (s, f) := s.ptpFields (line.any (fun n => bit (s.rd (R.LINE_PORT_CFG n)) 27)) p t p.bytes
  (s, t, { p with bytes := f })

/-- A frame that leaves line port `n` at `t` (R163, R387): rewrite, MACsec, padding, counts. With `cut` the link leaves UP while it
is sent: how much of it went out a free value says (R164). -/
def State.sendLine (s : State) (n : Nat) (p : Pkt) (t : DWord) (cut : Bool) : State :=
  let f := s.rewritten p.sp p.bytes
  match s.macsecTx n f with
  | (s, .error r) => s.dropLate p (R.CIPH_MACSEC_DROP_CNT n r) 14 (16 + r)
  | (s, .ok f) =>
    let f := if f.length < 60 then padTo 60 f else f
    let s := s.trace 3 p.sp f 0 0xFF 0 0
    if cut then
      ((s.drew.emit (.lineCut n (f.take (s.fresh.toNat % f.length)))).stampOrigin p t).dropLate p (R.LINE_DROP_CNT n 4) 4 4
    else
    let s := ((s.bump (R.LINE_TX_PKT_CNT n)).bumpN (R.LINE_TX_BYTE_CNT n) f.length).emit (.line n f)
    (s.stampOrigin p t).endPkt p none

/-- A frame leaves by the management port at `t` (R167). -/
def State.sendMgmt (s : State) (p : Pkt) (t : DWord) : State :=
  ((s.emit (.mgmt (if p.bytes.length < 60 then padTo 60 p.bytes else p.bytes))).stampOrigin p t).endPkt p none

end Sys2Proof.Machine
end

