-- ==== Sys2Proof/Machine/CwayIn.lean ====
section
/-!
DEFINITION. Machine/CwayIn.lean: the inputs of the carriageways and their input retention buffers (R80 to R84, R119, R123).
-/
namespace Sys2Proof.Machine
open Sys2Proof

/-- Whether an instance serves a slot. -/
def CwayRole.serves (r : CwayRole) : Bool := r == .active || r == .serving

/-- The instance that serves a slot. -/
def State.slotInst (s : State) (slot : Nat) : Option Nat :=
  [0, 1, 2, 3, 4].find? (fun i => (s.cinst i).role.serves && (s.cinst i).slot == slot)

/-- Copies the Shoulder holds: passes copied and running, run and not yet shadowed, and waiting for their replay (R119). -/
def State.copiesHeld (s : State) : Nat :=
  ([0, 1, 2, 3, 4].map (fun i => ((s.cinst i).retain.filter (fun h => h.copied)).length)).sum + s.shld.copies.length +
  s.shld.replays.length

/-- The instance a window is open on. -/
def State.shadowed (s : State) : Option Nat := match s.shld.window with
  | some slot => s.slotInst slot
  | none => none

/-- One pass begins: it takes a descriptor of the retention buffer, and during a window on its instance a copy (R83, R119). -/
def State.beginPass (s : State) (i : Nat) (p : Pkt) : State :=
  let p := { p with sp := spSet p.sp SP.CWAY i }
  let window := s.shadowed == some i
  let room := decide (s.copiesHeld < 2048)
  let s := s.if_ (window && !room) (fun s => s.bump R.CWAY_SHLD_SKIP_CNT)
  (s.updCinst i (fun c => { c with retain := c.retain ++ [⟨p, s.now, window && room, false⟩] })).bump (R.CWAY_IN_PKT_CNT i)

/-- Whether a substitution has closed the input and output of instance `i` (R127 step 2). -/
def State.parseShut (s : State) (i : Nat) : Bool := s.shld.st == .substituting && s.shld.target == i

/-- Whether the instance takes passes: it serves a slot, is not closed and is not held in reset. -/
def State.instRuns (s : State) (i : Nat) : Bool :=
  (s.cinst i).role.serves && !s.parseShut i && !s.blockHeld (24 + i) && bit s.clk.running 2

/-- The instance a mismatch is replayed on (R124). -/
def State.replayInst (s : State) (i : Nat) : Nat := (s.slotInst (((s.cinst i).slot + 1) % 4)).getD 0

/-- Whether a tie-break replay waits to enter instance `i`. -/
def State.replayWaits (s : State) (i : Nat) : Bool := s.shld.replays.any (fun c => s.replayInst c.inst == i)

/-- Passes begin while the retention buffer has room: recirculations and returns first, then, once the replays that wait have
entered, the lane map's packets (R82, R84, R124). -/
def State.fillPasses (s : State) (i : Nat) : Nat → State
  | 0 => s
  | fuel + 1 =>
    let c := s.cinst i
    if !s.instRuns i || decide (2048 ≤ c.retain.length) then s else
    match c.recirc, c.input with
    | p :: rest, _ => ((s.setCinst i { c with recirc := rest }).beginPass i p).fillPasses i fuel
    | [], p :: rest => if s.replayWaits i then s else ((s.setCinst i { c with input := rest }).beginPass i p).fillPasses i fuel
    | [], [] => s

/-- Whether the retention buffer of instance `i` is full, which pauses its input (R84). -/
def State.paused (s : State) (i : Nat) : Bool := decide (2048 ≤ (s.cinst i).retain.length)

/-- Passes that can begin do; where that fills the buffer the pause begins, and RETAIN_FULL is raised (R84). -/
def State.startPasses (s : State) (i : Nat) : State :=
  let before := s.paused i
  let s := s.fillPasses i 4096
  if !before && s.paused i then s.raise (0x245 + i) noFunc (s.cinst i).retain.length 0 else s

/-- A packet the lane map dispatches to instance `i`. -/
def State.toInst (s : State) (i : Nat) (p : Pkt) : State :=
  if s.blockHeld (24 + i) then s.heldDrop (24 + i) p else
  (s.updCinst i (fun c => { c with input := c.input ++ [p] })).startPasses i

/-- A packet that makes a further pass on instance `i`, PASS one higher (R80); what would re-enter a replaced instance enters
instance 4 (R127). -/
def State.againOn (s : State) (i : Nat) (p : Pkt) : State :=
  let i := if (s.cinst i).role = .suspect then 4 else i
  if s.blockHeld (24 + i) then s.heldDrop (24 + i) p else
  let p := { p with sp := spSet p.sp SP.PASS (spGet p.sp SP.PASS + 1) }
  (s.updCinst i (fun c => { c with recirc := c.recirc ++ [p] })).startPasses i

/-- A return from a Path Engine to a carriageway, dropped at the four-pass limit (R80, R81). -/
def State.backToCway (s : State) (p : Pkt) : State :=
  let i := fld (s.rd (R.PARSE_LANE_MAP (spGet p.sp SP.LANE_IDX))) 0 3
  if spGet p.sp SP.PASS = 3 then
    (s.raise (0x240 + i) p.evFunc (spGet p.sp SP.LEAF_QUEUE) 1).dropEarly p (R.CWAY_PASS_LIMIT_CNT i) 7 65
  else s.againOn i p

/-- A replicated table, the action memory or a policy classifier entry is written: no pass that runs meanwhile is compared
(R123). -/
def State.tableWrite (s : State) : State :=
  let s := s.each [0, 1, 2, 3, 4] (fun s i => s.updCinst i (fun c =>
    { c with retain := c.retain.map (fun h => { h with void := true }) }))
  { s with shld := { s.shld with copies := s.shld.copies.map (fun c => { c with void := true }) } }

end Sys2Proof.Machine
end

