-- ==== Sys2Proof/Machine/Headers.lean ====
section
/-!
DEFINITION. Machine/Headers.lean: the parse of a header stack (R39, R40, R43, R45), the Signpost's header fields and the lane
hash (R46, R48). Header layouts the spec names without drawing them are those of their standards (PRESUMED).
-/
namespace Sys2Proof.Machine
open Sys2Proof

/-- The fields of one layer: its network and transport headers. -/
structure Layer where
  l3 : Nat
  src : Nat
  dst : Nat
  proto : Nat
  dscp : Nat
  ecn : Nat
  l3off : Nat
  l4off : Nat
  l4 : Nat
  sport : Nat
  dport : Nat
  deriving DecidableEq, Repr

def Layer.empty : Layer := ⟨0, 0, 0, 0, 0, 0, 0, 0, 0, 0, 0⟩

/-- A parse under way: frame length and parse window, headers counted, the malformation (class and offset), where the parse
stands, the outer Ethernet header and tags, the tunnel, the fragment information, both layers and whether the inner one is
being filled. -/
structure Walk where
  n : Nat
  b : Bytes
  hdrs : Nat
  mal : Option (Nat × Nat)
  end_ : Nat
  dmac : Nat
  smac : Nat
  etype : Nat
  tags : Nat
  pcp : Nat
  vid : Nat
  tun : Nat
  tunOff : Nat
  vni : Nat
  frag : Nat
  info : Option FragInfo
  outer : Layer
  inner : Layer
  inside : Bool
  deriving DecidableEq, Repr

/-- What the parser reads of its configuration: the further TPID and the eight UDP service entries (Table 2-10). -/
structure ParseCfg where
  tpid : Nat
  ports : List Word
  deriving DecidableEq, Repr

/-- The header the parse reaches next. -/
inductive Next where
  | eth (off : Nat)
  | etype (typ off tags : Nat)
  | mpls (off k : Nat)
  | ipv4 (off : Nat)
  | ipv6 (off : Nat)
  | ext (nxt off k l3 plen : Nat)
  | arp (off : Nat)
  | l4 (off proto : Nat)
  | vxlan (off : Nat)
  | geneve (off : Nat)
  | done
  deriving DecidableEq, Repr

def Walk.u8 (w : Walk) (o : Nat) : Nat := (byteAt w.b o).toNat
def Walk.be (w : Walk) (o len : Nat) : Nat := beNat (slice (padTo 320 w.b) o len)

/-- The layer being filled, changed. -/
def Walk.layer (w : Walk) (g : Layer → Layer) : Walk :=
  if w.inside then { w with inner := g w.inner } else { w with outer := g w.outer }

def Walk.cur (w : Walk) : Layer := if w.inside then w.inner else w.outer

/-- One header of `len` bytes at `off` with the classes its own checks find. It is malformed if any holds, beside TRUNC and
PARSE_DEPTH; the lowest class is recorded and the parse stands at its offset (R43). -/
def Walk.header (w : Walk) (off len : Nat) (own : List Nat) : Walk × Bool :=
  let trunc := decide (w.n < off + len)
  let beyond := decide (256 < off + len)
  let all := (if trunc then [0] else []) ++ own ++ (if beyond || decide (16 ≤ w.hdrs) then [13] else [])
  let w := { w with hdrs := w.hdrs + 1 }
  match all.min? with
  | none => ({ w with end_ := off + len }, true)
  | some c => ({ w with mal := some (c, off), end_ := off }, false)

/-- A class, where its condition holds. -/
def cls (c : Nat) (b : Bool) : List Nat := if b then [c] else []

/-- A class that bytes of the packet show, the last of them before `upto`: found where the frame and the window hold them all. -/
def Walk.sees (w : Walk) (c upto : Nat) (b : Bool) : List Nat := cls c (b && decide (upto ≤ w.b.length))

/-- A fragment that ends at byte `stop` of the frame is too short for the ports of the transport header that a chain of
extension headers from `off` on leads to, the first of them named by `nxt`. -/
def Walk.short (w : Walk) (stop : Nat) : Nat → Nat → Nat → Bool
  | 0, _, _ => false
  | fuel + 1, nxt, off =>
    if nxt = 6 ∨ nxt = 17 ∨ nxt = 132 then decide (stop < off + 4)
    else if (nxt = 0 ∨ nxt = 43 ∨ nxt = 60) ∧ off + 2 ≤ min stop w.b.length then
      w.short stop fuel (w.u8 off) (off + (w.u8 (off + 1) + 1) * 8)
    else false

/-- Class 9, FRAG_BAD: the fragment offset in units of 8 bytes, the payload, where it begins, and what it begins with. -/
def Walk.fragBad (w : Walk) (foff payload start proto : Nat) : Bool :=
  decide (65535 < foff * 8 + payload) || foff == 1 || (foff == 0 && w.short (start + payload) 5 proto start)

/-- Class 8 for an IPv4 source: multicast, loopback or limited broadcast. -/
def badV4 (a : Nat) : Bool := a >>> 28 == 14 || a >>> 24 == 127 || a == 0xFFFFFFFF

/-- Class 8 for an IPv6 source: multicast or loopback. -/
def badV6 (a : Nat) : Bool := a >>> 120 == 255 || a == 1

/-- What an EtherType leads to. -/
def ofEtype (typ off : Nat) : Next :=
  if typ = 0x8847 ∨ typ = 0x8848 then .mpls off 0
  else if typ = 0x0800 then .ipv4 off
  else if typ = 0x86DD then .ipv6 off
  else if typ = 0x0806 then .arp off
  else .done

/-- The fragment information kept from the first network header that carries any (R51). -/
def Walk.fragment (w : Walk) (f : FragInfo) (later : Bool) : Walk :=
  if w.info.isSome then w else { w with info := some f, frag := if later then 2 else 1 }

/-- The inner layer begins behind a tunnel header. A packet with both a label stack and a tunnel shows the tunnel in TUN_TYPE and
TUN_OFF (DESIGN CHOICE: Table 2-3 has one field and names no order). -/
def Walk.enter (w : Walk) (tun off vni : Nat) : Walk := { w with tun := tun, tunOff := off, vni := vni, inside := true }

/-- The kind of the first enabled UDP service entry that names the port, if its KIND is in use (Table 2-10). -/
def ParseCfg.service (c : ParseCfg) (port : Nat) : Option Nat :=
  (c.ports.find? (fun v => bit v 31 && decide (fld v 28 3 < 4) && fld v 0 16 == port)).map (fun v => fld v 28 3)

/-- An Ethernet header. The EtherType that R46 hashes is what stands in its place: of an 802.3 frame with LLC, which has none, the
length field (DESIGN CHOICE: R46 names no other). -/
def stepEth (w : Walk) (off : Nat) : Walk × Next :=
  let smac := w.be (off + 6) 6
  let w := if w.inside then w else { w with dmac := w.be off 6, smac := smac, etype := w.be (off + 12) 2 }
  let (w, ok) := w.header off 14 (w.sees 1 (off + 7) (bit (byteAt w.b (off + 6)) 0) ++ w.sees 1 (off + 12) (smac == 0))
  (w, if ok then .etype (w.be (off + 12) 2) (off + 14) 0 else .done)

def stepEtype (c : ParseCfg) (w : Walk) (typ off k : Nat) : Walk × Next :=
  if typ = 0x8100 ∨ typ = 0x88A8 ∨ typ = c.tpid then
    let (w, ok) := w.header off 4 (cls 2 (k == 2))
    if !ok then (w, .done) else
    let tci := w.be off 2
    let next := w.be (off + 2) 2
    let w := if w.inside then w else
      { w with tags := k + 1, etype := next, pcp := if k = 0 then tci >>> 13 else w.pcp,
               vid := if k = 0 then tci % 4096 else w.vid }
    (w, .etype next (off + 4) (k + 1))
  else if typ < 0x600 then (w, .done)
  else (w, ofEtype typ off)

def stepMpls (w : Walk) (off k : Nat) : Walk × Next :=
  let (w, ok) := w.header off 4 (cls 3 (k == 4 || decide (256 < off + 4)))
  if !ok then (w, .done) else
  let w := if k = 0 ∧ w.tun = 0 then { w with tun := 6, tunOff := off } else w
  if !bit (byteAt w.b (off + 2)) 0 then (w, .mpls (off + 4) (k + 1))
  else if w.n ≤ off + 4 then (w, .done)
  else match w.u8 (off + 4) / 16 with
    | 4 => (w, .ipv4 (off + 4))
    | 6 => (w, .ipv6 (off + 4))
    | _ => (w, .done)

def stepIpv4 (w : Walk) (off : Nat) : Walk × Next :=
  let ihl := w.u8 off % 16
  let len := max 20 (ihl * 4)
  let tot := w.be (off + 2) 2
  let fo := w.be (off + 6) 2
  let foff := fo % 8192
  let more := fo / 8192 % 2 == 1
  let proto := w.u8 (off + 9)
  let src := w.be (off + 12) 4
  let isFrag := more || foff != 0
  let (w, ok) := w.header off len (
    w.sees 4 (off + 1) (w.u8 off / 16 != 4 || decide (ihl < 5)) ++ w.sees 4 (off + len) (inetCsum (slice w.b off len) != 0) ++
    w.sees 5 (off + 4) (decide (tot < ihl * 4) || decide (w.n < off + tot)) ++ w.sees 8 (off + 16) (badV4 src) ++
    w.sees 9 (off + 10) (isFrag && w.fragBad foff (tot - ihl * 4) (off + len) proto))
  if !ok then (w, .done) else
  let tos := w.u8 (off + 1)
  let w := w.layer (fun l => { l with
    l3 := 1, l3off := off, dscp := tos / 4, ecn := tos % 4, src := src, dst := w.be (off + 16) 4, proto := proto })
  let w := if isFrag then
      w.fragment ⟨false, BitVec.ofNat 128 src, BitVec.ofNat 128 (w.be (off + 16) 4), BitVec.ofNat 8 proto,
        BitVec.ofNat 32 (w.be (off + 4) 2), foff * 8, more, tot - ihl * 4⟩ (foff != 0)
    else w
  (w, if foff ≠ 0 then .done else .l4 (off + len) proto)

def stepIpv6 (w : Walk) (off : Nat) : Walk × Next :=
  let plen := w.be (off + 4) 2
  let src := w.be (off + 8) 16
  let (w, ok) := w.header off 40 (w.sees 6 (off + 6) (decide (w.n < off + plen + 40)) ++ w.sees 8 (off + 24) (badV6 src))
  if !ok then (w, .done) else
  let tc := w.be off 2 / 16 % 256
  let w := w.layer (fun l => { l with
    l3 := 2, l3off := off, dscp := tc / 4, ecn := tc % 4, src := src, dst := w.be (off + 24) 16 })
  (w, .ext (w.u8 (off + 6)) (off + 40) 0 off plen)

/-- The next header of an IPv6 chain. PROTO is what the last header of the chain names; where the parse stops at a malformed
extension header it stays 0 (DESIGN CHOICE: the spec does not say which next header it holds then). -/
def stepExt (w : Walk) (nxt off k l3 plen : Nat) : Walk × Next :=
  if nxt ≠ 0 ∧ nxt ≠ 43 ∧ nxt ≠ 44 ∧ nxt ≠ 60 then (w.layer (fun l => { l with proto := nxt }), .l4 off nxt) else
  let len := if nxt = 44 then 8 else (w.u8 (off + 1) + 1) * 8
  let fo := w.be (off + 2) 2
  let foff := fo / 8
  let more := fo % 2 == 1
  let isFrag := nxt == 44 && (more || foff != 0)
  let after := w.u8 off
  let payload := plen - (off + 8 - l3 - 40)
  let (w, ok) := w.header off len (
    cls 7 (decide (4 ≤ k) || (nxt == 0 && k != 0) || decide (256 < off + len)) ++
    w.sees 9 (off + 4) (isFrag && w.fragBad foff payload (off + 8) after))
  if !ok then (w, .done) else
  let w := if isFrag then
      w.fragment ⟨true, BitVec.ofNat 128 w.cur.src, BitVec.ofNat 128 w.cur.dst, BitVec.ofNat 8 after,
        BitVec.ofNat 32 (w.be (off + 4) 4), foff * 8, more, payload⟩ (foff != 0)
    else w
  if isFrag && foff != 0 then (w.layer (fun l => { l with proto := after }), .done)
  else (w, .ext after (off + len) (k + 1) l3 plen)

def stepArp (w : Walk) (off : Nat) : Walk × Next :=
  let hl := w.u8 (off + 4)
  let pl := w.u8 (off + 5)
  let (w, ok) := w.header off (8 + 2 * hl + 2 * pl) (w.sees 14 (off + 5) (hl != 6) ++ w.sees 14 (off + 6) (pl != 4))
  (if ok then w.layer (fun l => { l with l3 := 3, l3off := off }) else w, .done)

/-- A transport header recorded with its ports. -/
def Walk.transport (w : Walk) (off kind sport dport : Nat) : Walk :=
  w.layer (fun l => { l with l4off := off, l4 := kind, sport := sport, dport := dport })

/-- Class 15: a port that is 0. -/
def Walk.zeroPort (w : Walk) (off : Nat) : List Nat :=
  w.sees 15 (off + 2) (w.be off 2 == 0) ++ w.sees 15 (off + 4) (w.be (off + 2) 2 == 0)

def stepTcp (w : Walk) (off : Nat) : Walk × Next :=
  let sport := w.be off 2
  let dport := w.be (off + 2) 2
  let doff := w.u8 (off + 12) / 16
  let fl := byteAt w.b (off + 13)
  let (w, ok) := w.header off (max 20 (doff * 4)) (w.sees 10 (off + 13) (decide (doff < 5)) ++
    w.sees 11 (off + 14) (fl == 0 || (bit fl 1 && (bit fl 0 || bit fl 2))) ++ w.zeroPort off)
  (if ok then w.transport off 1 sport dport else w, .done)

/-- UDP. The length check against the bytes present is not made on a first fragment, whose datagram goes on in later ones
(the example under R58). -/
def stepUdp (c : ParseCfg) (w : Walk) (off : Nat) : Walk × Next :=
  let sport := w.be off 2
  let dport := w.be (off + 2) 2
  let ulen := w.be (off + 4) 2
  let (w, ok) := w.header off 8 (
    w.sees 10 (off + 6) (decide (ulen < 8) || (w.info.isNone && decide (w.n < off + ulen))) ++ w.zeroPort off)
  if !ok then (w, .done) else
  match c.service dport with
  | some 0 => (w.transport off 2 sport dport, if w.inside then .done else .vxlan (off + 8))
  | some 1 => (w.transport off 2 sport dport, if w.inside then .done else .geneve (off + 8))
  | some 2 => (w.transport off 5 sport dport, .done)
  | some 3 => (w.transport off 6 sport dport, .done)
  | _ => (w.transport off 2 sport dport, .done)

def stepGre (w : Walk) (off : Nat) : Walk × Next :=
  let fl := byteAt w.b off
  let keyOff := off + 4 + 4 * b2n (bit fl 7)
  let len := 4 + 4 * b2n (bit fl 7) + 4 * b2n (bit fl 5) + 4 * b2n (bit fl 4)
  let typ := w.be (off + 2) 2
  let (w, ok) := w.header off len (w.sees 12 (off + 2) (w.u8 (off + 1) % 8 != 0))
  if !ok then (w, .done) else
  let w := (w.transport off 7 0 0).enter (if typ = 0x6558 then 4 else 3) off (if bit fl 5 then w.be keyOff 4 % 16777216 else 0)
  (w, if typ = 0x6558 then .eth (off + len) else ofEtype typ (off + len))

/-- A transport header, or the one above the IP header that stands in its place: any the parser does not know ends the parse with
L4_TYPE 7 at its offset. IP in IP has no tunnel header of its own: TUN_OFF is where the inner IP header stands, and TUN_TYPE is 5
even when that header is malformed (DESIGN CHOICE: Table 2-3 does not say). -/
def stepL4 (c : ParseCfg) (w : Walk) (off proto : Nat) : Walk × Next :=
  if proto = 6 then stepTcp w off
  else if proto = 17 then stepUdp c w off
  else if proto = 132 then
    let sport := w.be off 2
    let dport := w.be (off + 2) 2
    let (w, ok) := w.header off 12 []
    (if ok then w.transport off 4 sport dport else w, .done)
  else if proto = 1 ∨ proto = 58 then
    let (w, ok) := w.header off (if proto = 1 then 8 else 4) []
    (if ok then w.transport off 3 0 0 else w, .done)
  else if proto = 47 ∧ !w.inside then stepGre w off
  else
    let w := w.transport off 7 0 0
    if w.inside then (w, .done)
    else if proto = 4 then (w.enter 5 off 0, .ipv4 off)
    else if proto = 41 then (w.enter 5 off 0, .ipv6 off)
    else (w, .done)

def stepVxlan (w : Walk) (off : Nat) : Walk × Next :=
  let (w, ok) := w.header off 8 (w.sees 12 (off + 1) (!bit (byteAt w.b off) 3))
  if ok then (w.enter 1 off (w.be (off + 4) 3), .eth (off + 8)) else (w, .done)

def stepGeneve (w : Walk) (off : Nat) : Walk × Next :=
  let len := 8 + w.u8 off % 64 * 4
  let typ := w.be (off + 2) 2
  let (w, ok) := w.header off len (w.sees 12 (off + 1) (w.u8 off / 64 != 0))
  if !ok then (w, .done) else
  (w.enter 2 off (w.be (off + 4) 3), if typ = 0x6558 then .eth (off + len) else ofEtype typ (off + len))

/-- One step of the parse. -/
def parseStep (c : ParseCfg) (w : Walk) : Next → Walk × Next
  | .eth off => stepEth w off
  | .etype typ off k => stepEtype c w typ off k
  | .mpls off k => stepMpls w off k
  | .ipv4 off => stepIpv4 w off
  | .ipv6 off => stepIpv6 w off
  | .ext nxt off k l3 plen => stepExt w nxt off k l3 plen
  | .arp off => stepArp w off
  | .l4 off proto => stepL4 c w off proto
  | .vxlan off => stepVxlan w off
  | .geneve off => stepGeneve w off
  | .done => (w, .done)

/-- The parse run until it is done; the 17th header ends it at the latest. -/
def parseRun (c : ParseCfg) : Nat → Walk → Next → Walk
  | 0, w, _ => w
  | _ + 1, w, .done => w
  | fuel + 1, w, n =>
    let (w, n) := parseStep c w n
    parseRun c fuel w n

/-- The parse of a frame (R39). -/
def parseFrame (c : ParseCfg) (frame : Bytes) : Walk :=
  parseRun c 48 ⟨frame.length, frame.take 256, 0, none, 0, 0, 0, 0, 0, 0, 0, 0, 0, 0, 0, none, .empty, .empty, false⟩ (.eth 0)

/-- Whether a layer has an IP header. -/
def Layer.ip (l : Layer) : Bool := l.l3 == 1 || l.l3 == 2

/-- Whether the key layer is the inner one: its tunnel type asks for it, and no malformation stopped the parse at or before the
inner network header (R40). -/
def Walk.keyInner (w : Walk) (hashCfg : DWord) : Bool :=
  decide (1 ≤ w.tun) && decide (w.tun ≤ 5) && bit hashCfg (w.tun + 1) && (w.mal.isNone || w.inner.l3 != 0)

/-- The lane hash of R46. -/
def laneHash (src dst q seed last : Nat) : Nat :=
  let x := src ^^^ dst
  let v := (List.range 8).foldl (fun v i => v ^^^ (x >>> (16 * i)) % 65536) (q ^^^ seed)
  ((v ^^^ last) * 0x9E37) % 65536

/-- The header fields of the Signpost, and those R46 computes (Table 2-3). WAYMARK, PASS, CWAY, ORIGIN and SRC_PORT are left
at 0. -/
def Walk.signpost (w : Walk) (hashCfg : DWord) (seed : Nat) : Signpost :=
  let inner := w.keyInner hashCfg
  let k := if inner then w.inner else w.outer
  let src := if k.ip then k.src else w.smac
  let dst := if k.ip then k.dst else w.dmac
  let three := w.frag != 0 || (k.ip && fld hashCfg 0 2 == 1)
  let h := laneHash src dst (if three || !k.ip then 0 else k.sport ^^^ k.dport) seed (if k.ip then k.proto * 0x101 else w.etype)
  spSets spReset [
    (SP.LANE_IDX, h / 4096), (SP.LANE_HASH, h), (SP.PKT_LEN, w.n), (SP.MAL, b2n w.mal.isSome),
    (SP.MAL_CLASS, (w.mal.map (·.1)).getD 0), (SP.FRAG, w.frag), (SP.L2_TAGS, w.tags), (SP.PCP, w.pcp),
    (SP.DSCP, k.dscp), (SP.ECN, k.ecn), (SP.KEY_LAYER, b2n inner), (SP.SRC_L4, k.sport), (SP.DST_L4, k.dport),
    (SP.OUTER_VID, w.vid), (SP.L3_TYPE, k.l3), (SP.PROTO, k.proto), (SP.L3_OFF, k.l3off), (SP.L4_OFF, k.l4off),
    (SP.TUN_OFF, w.tunOff), (SP.PAYLOAD_OFF, w.end_), (SP.L4_TYPE, k.l4), (SP.TUN_TYPE, w.tun),
    (SP.SRC_ADDR, src), (SP.DST_ADDR, dst), (SP.VNI, w.vni)]

end Sys2Proof.Machine
end

