-- ==== Sys2Proof/Machine/Parser.lean ====
section
/-!
DEFINITION. Machine/Parser.lean: the parse units, the lane map with its holds, and the fragment follow tables (R37 to R59).
-/
namespace Sys2Proof.Machine
open Sys2Proof

def State.parseCfg (s : State) : ParseCfg :=
  ⟨s.rdf R.PARSE_TPID 0 16, (List.range 8).map (fun i => (s.rd (R.PARSE_L4_PORT i)).setWidth 32)⟩

def State.unitQ (s : State) (u : Nat) : List Pkt := mapGet (fun _ => ([] : List Pkt)) s.parse.input u

def State.setUnitQ (s : State) (u : Nat) (l : List Pkt) : State :=
  { s with parse := { s.parse with input := mapSet (fun _ => []) s.parse.input u l } }

/-- A packet for parse unit `u`. -/
def State.toUnit (s : State) (u : Nat) (p : Pkt) : State := s.setUnitQ u (s.unitQ u ++ [p])

def State.hold (s : State) (i : Nat) : Option (Nat × List Pkt) := mapGet (fun _ => none) s.parse.hold i

def State.setHold (s : State) (i : Nat) (h : Option (Nat × List Pkt)) : State :=
  { s with parse := { s.parse with hold := mapSet (fun _ => none) s.parse.hold i h } }

def State.follow (s : State) (k : Nat) : FollowEntry := mapGet (fun _ => FollowEntry.empty) s.parse.follow k

def State.setFollow (s : State) (k : Nat) (e : FollowEntry) : State :=
  { s with parse := { s.parse with follow := mapSet (fun _ => FollowEntry.empty) s.parse.follow k e } }

/-- The set a fragment's key lies in. -/
def FragInfo.set (f : FragInfo) : Nat := (Config.followSet f.v6 f.src f.dst f.proto f.ident).toNat

/-- Whether an entry is in use under a fragment's key (R51). -/
def FollowEntry.keyed (e : FollowEntry) (f : FragInfo) : Bool :=
  e.st != .free && e.v6 == f.v6 && e.src == f.src && e.dst == f.dst && e.proto == f.proto && e.ident == f.ident

/-- The keys of the ways of a fragment's set in a slot's table. -/
def followWays (slot : Nat) (f : FragInfo) : List Nat := (List.range 8).map (fun w => slot * 65536 + f.set * 8 + w)

def State.followFind (s : State) (slot : Nat) (f : FragInfo) : Option Nat :=
  (followWays slot f).find? (fun k => (s.follow k).keyed f)

def State.followFree (s : State) (slot : Nat) (f : FragInfo) : Option Nat :=
  (followWays slot f).find? (fun k => (s.follow k).st == .free)

/-- The fragments held per key (Table 2-11). -/
def State.followHold (s : State) : Nat :=
  let v := s.rdf R.PARSE_FOLLOW_CFG 16 7
  if v = 0 ∨ 64 < v then 64 else v

/-- A packet with the ports of its follow entry, or any others. -/
def Pkt.ports (p : Pkt) (sport dport : BitVec 16) : Pkt :=
  { p with sp := spSets p.sp [(SP.SRC_L4, sport.toNat), (SP.DST_L4, dport.toNat)] }

/-- One fragment takes the orphan action (R54). -/
def State.orphanOne (s : State) (slot i : Nat) (p : Pkt) : State :=
  match s.rdf R.PARSE_FOLLOW_CFG 24 2 with
  | 1 => (s.bump (R.PARSE_FOLLOW_ORPHAN_CNT slot)).toInst i { p.ports 0 0 with sp := spSet (p.ports 0 0).sp SP.FRAG 3 }
  | 2 => (s.bump (R.PARSE_FOLLOW_ORPHAN_CNT slot)).toClass (s.rdf R.PARSE_FOLLOW_CFG 26 6) p 6
  | _ => s.dropEarly p (R.PARSE_FOLLOW_ORPHAN_CNT slot) 5 16

/-- Fragments take the orphan action, and FOLLOW_ORPHAN is raised for them (R54, R59). -/
def State.orphan (s : State) (slot set i : Nat) (ps : List Pkt) : State :=
  match ps with
  | [] => s
  | p :: _ => (s.each ps (fun s p => s.orphanOne slot i p)).raise (0x214 + slot) p.evFunc set ps.length

/-- An entry with one more fragment served or held: its bytes, the total that the last fragment fixes, and the time (R55). -/
def FollowEntry.touch (e : FollowEntry) (f : FragInfo) (t : DWord) : FollowEntry :=
  { e with
    bytesSeen := e.bytesSeen + f.payload, total := if f.more then e.total else f.offset + f.payload, time := t }

/-- An entry goes FREE once BYTES_SEEN has reached a known TOTAL (R55). -/
def FollowEntry.settle (e : FollowEntry) : FollowEntry :=
  if e.st = .following ∧ e.total ≠ 0 ∧ e.total ≤ e.bytesSeen then .empty else e

/-- A new entry under a fragment's key. -/
def FollowEntry.new (f : FragInfo) (st : FollowSt) (t : DWord) : FollowEntry :=
  { FollowEntry.empty with
    st := st, v6 := f.v6, src := f.src, dst := f.dst, proto := f.proto, ident := f.ident, time := t, created := t }

/-- The ports a first fragment gives its entry. -/
def FollowEntry.withPorts (e : FollowEntry) (p : Pkt) : FollowEntry :=
  { e with srcL4 := BitVec.ofNat 16 (spGet p.sp SP.SRC_L4), dstL4 := BitVec.ofNat 16 (spGet p.sp SP.DST_L4) }

/-- A first fragment at the follow unit (R52, R53, R56). One that meets a FOLLOWING entry, a duplicate, goes on with its own ports,
even under a DROP verdict, and leaves the entry's (DESIGN CHOICE: R52 speaks of later fragments only). -/
def State.followFirst (s : State) (slot i : Nat) (p : Pkt) (f : FragInfo) : State :=
  match s.followFind slot f with
  | some k =>
    let e := s.follow k
    if e.st = .holding then
      let e' := ({ e with st := FollowSt.following, held := [] }.withPorts p).touch f s.now
      let s := (s.setFollow k e'.settle).toInst i p
      s.each e.held (fun s q => s.toInst i (q.ports e'.srcL4 e'.dstL4))
    else (s.setFollow k (e.touch f s.now).settle).toInst i p
  | none => match s.followFree slot f with
    | some k => (s.setFollow k (((FollowEntry.new f .following s.now).withPorts p).touch f s.now).settle).toInst i p
    | none => ((s.bump (R.PARSE_FOLLOW_FULL_CNT slot)).raise (0x210 + slot) p.evFunc f.set 0).toInst i p

/-- A later fragment at the follow unit (R52, R53, R56). -/
def State.followLater (s : State) (slot i : Nat) (p : Pkt) (f : FragInfo) : State :=
  match s.followFind slot f with
  | some k =>
    let e := s.follow k
    if e.st = .holding then
      if e.held.length < s.followHold then
        (s.setFollow k { e.touch f s.now with held := e.held ++ [p] }).bump (R.PARSE_FOLLOW_HOLD_CNT slot)
      else s.orphan slot f.set i [p]
    else
      let s := s.setFollow k (e.touch f s.now).settle
      if e.dropVerdict then s.dropEarly p (R.PARSE_FOLLOW_DROP_CNT slot) 5 17
      else s.toInst i (p.ports e.srcL4 e.dstL4)
  | none => match s.followFree slot f with
    | some k =>
      (s.setFollow k { (FollowEntry.new f .holding s.now).touch f s.now with held := [p] }).bump
        (R.PARSE_FOLLOW_HOLD_CNT slot)
    | none =>
      ((s.bump (R.PARSE_FOLLOW_FULL_CNT slot)).raise (0x210 + slot) p.evFunc f.set 1).orphan slot f.set i [p]

/-- A packet dispatched to instance `i`: fragments pass the follow unit of its slot first. -/
def State.dispatchTo (s : State) (i : Nat) (p : Pkt) : State :=
  let slot := (s.cinst i).slot
  match p.frag with
  | some f => if spGet p.sp SP.FRAG = 1 then s.followFirst slot i p f else s.followLater slot i p f
  | none => s.toInst i p

/-- The instance a packet is dispatched to: its lane map entry, or in three-instance operation the split (R49, R130). -/
def State.laneInst (s : State) (sp : Signpost) : Nat :=
  let i := spGet sp SP.LANE_IDX
  let v := s.rd R.CWAY_SHLD_SPLIT
  if bit v 31 ∧ fld v 9 4 = i then
    let h := spGet sp SP.LANE_HASH % 4096
    if h ≤ 1365 then fld v 0 3 else if h ≤ 2730 then fld v 3 3 else fld v 6 3
  else s.rdf (R.PARSE_LANE_MAP i) 0 3

/-- Lane map dispatch of a packet, or its hold behind a change (R49, R50). -/
def State.dispatch (s : State) (p : Pkt) : State :=
  let i := spGet p.sp SP.LANE_IDX
  let s := s.bump (R.PARSE_LANE_CNT i)
  match s.hold i with
  | none => s.dispatchTo (s.laneInst p.sp) p
  | some (old, held) =>
    (s.setHold i (some (old, held ++ [p]))).if_ held.isEmpty (fun s => s.bump R.PARSE_LANE_HOLD_CNT)

/-- Whether instance `inst` still has an earlier packet of lane map index `i` to pass, or is closed for a substitution, which
ends the hold itself (R127 step 4). -/
def State.laneBusy (s : State) (inst i : Nat) : Bool :=
  let c := s.cinst inst
  s.parseShut inst || c.input.any (fun p => spGet p.sp SP.LANE_IDX == i) || c.retain.any (fun h => spGet h.pkt.sp SP.LANE_IDX == i)

/-- The hold of an index begins, where its instance has earlier packets to pass; one already standing goes on (R50). -/
def State.beginHold (s : State) (inst i : Nat) : State :=
  if (s.hold i).isSome || !s.laneBusy inst i then s else s.setHold i (some (inst, []))

/-- A change of one lane map entry (R49, R50, R59). -/
def State.setLane (s : State) (i inst : Nat) : State :=
  let old := s.rdf (R.PARSE_LANE_MAP i) 0 3
  if old = inst then s else
  ((s.beginHold old i).wr (R.PARSE_LANE_MAP i) (BitVec.ofNat 64 inst)).raise 0x218 noFunc i inst

/-- The held packets of an index go on, in order. -/
def State.endHold (s : State) (i : Nat) : State :=
  match s.hold i with
  | none => s
  | some (_, held) => (s.setHold i none).each held (fun s p => s.dispatchTo (s.laneInst p.sp) p)

/-- LANE_HOLD_RELEASE: the old instance has passed every earlier packet of the index (R50). -/
def execLaneHoldRelease (i : Fin 16) (s : State) : Res :=
  match s.hold i.val with
  | none => .next s
  | some (old, _) => if s.laneBusy old i.val then .next s else .next (s.endHold i.val)

/-- What the action of a malformation class leaves of a packet (R44, R45): dropped, sent to an engine class, or going on. -/
def State.malformed (s : State) (p : Pkt) (w : Walk) : State × Bool :=
  match w.mal with
  | none => (s, true)
  | some (c, off) =>
    let s := (s.bump (R.PARSE_MAL_CNT c)).raise (0x200 + c) p.evFunc (spGet p.sp SP.SRC_PORT) off
    match s.rdf (R.PARSE_MAL_ACT c) 6 2 with
    | 0 => (s, true)
    | 2 => (s.toClass (s.rdf (R.PARSE_MAL_ACT c) 0 6) p 5, false)
    | _ => (s.dropEarly p (R.PARSE_MAL_DROP_CNT c) 5 c, false)

/-- The parse of a packet, with the configuration in force (R39). -/
def State.walk (s : State) (p : Pkt) : Walk := parseFrame s.parseCfg p.bytes

def State.parsedSp (s : State) (w : Walk) : Signpost := w.signpost (s.rd R.PARSE_HASH_CFG) (s.rdf R.PARSE_HASH_SEED 0 16)

/-- A packet joins the in-flight count of the LIVE generation, whose waymark it is stamped with (R42, R77). -/
def State.stamp (s : State) (sp : Signpost) : State × Signpost :=
  let g := s.liveSlot
  let v := s.gen g
  (s.setGen g { v with inflight := v.inflight + 1 }, spSet sp SP.WAYMARK v.waymark.toNat)

/-- A packet enters the device through a parse unit (R37 to R59): ORIGIN, SRC_PORT and, of the SCE's packets, LEAF_QUEUE (Table
15-6) are those its source gave it. -/
def State.parseNew (s : State) (u : Nat) (p : Pkt) : State :=
  let port := spGet p.sp SP.SRC_PORT
  let w := s.walk p
  let sp := spSets (s.parsedSp w) [(SP.ORIGIN, spGet p.sp SP.ORIGIN), (SP.SRC_PORT, port),
    (SP.LEAF_QUEUE, spGet p.sp SP.LEAF_QUEUE)]
  let s := (s.bump (R.PARSE_UNIT_PKT_CNT u)).account port 0
  let (s, sp) := s.stamp sp
  let p := { p with sp := sp, ingress := port, frag := w.info }
  let s := s.trace 0 sp p.bytes 0 0xFF 0 0
  let (s, on) := s.malformed p w
  if on then s.dispatch p else s

/-- Fields a re-parse leaves unchanged (R38). -/
def keptFields : List SpField :=
  [SP.WAYMARK, SP.PASS, SP.CWAY, SP.LANE_IDX, SP.ORIGIN, SP.SRC_PORT, SP.TENANT, SP.LANE_HASH, (0, 40)]

/-- A re-parse: the header fields anew, then the next pass on the same instance (R38, R80). -/
def State.parseAgain (s : State) (p : Pkt) : State :=
  let w := s.walk p
  let sp := spSets (s.parsedSp w) (keptFields.map (fun f => (f, spGet p.sp f)))
  let p := { p with sp := sp, reparse := false, frag := w.info }
  let s := (s.bump (R.PARSE_UNIT_PKT_CNT 4)).trace 0 sp p.bytes 0 0xFF 0 0
  let (s, on) := s.malformed p w
  if on then s.againOn (spGet sp SP.CWAY) p else s

/-- Whether the parser runs: its clock runs and it is not held in reset. -/
def State.parserRuns (s : State) : Bool := !s.blockHeld 5 && bit s.clk.running 2

/-- The unit of 0 and 1 that holds the line frame which came first: frames enter them alternately, so it is the one with more, or
the one next in turn. -/
def State.unitTurn (s : State) : Nat :=
  let a := (s.unitQ 0).length
  let b := (s.unitQ 1).length
  if a = b then b2n s.parse.lineTurn else if a < b then 1 else 0

/-- Whether unit `u` may put out its next packet: units 0 and 1 in the order of arrival (R37). -/
def State.unitNext (s : State) (u : Nat) : Bool := decide (2 ≤ u) || s.unitTurn == u

/-- PACKET_PARSE: a parse unit takes its next packet, unless that is a re-parse; units 0 and 1 in the order of arrival. -/
def execPacketParse (u : Fin 5) (s : State) : Res :=
  match s.unitQ u.val with
  | [] => .next s
  | p :: rest =>
    if p.reparse || !s.unitNext u.val then .next s
    else if s.blockHeld 5 then .next ((s.setUnitQ u.val rest).heldDrop 5 p)
    else if !s.parserRuns then .next s
    else .next ((s.setUnitQ u.val rest).parseNew u.val p)

/-- REPARSE: parse unit 4 takes its next packet, which is a re-parse. -/
def execReparse (s : State) : Res :=
  match s.unitQ 4 with
  | [] => .next s
  | p :: rest =>
    if !p.reparse then .next s
    else if s.blockHeld 5 then .next ((s.setUnitQ 4 rest).heldDrop 5 p)
    else if !s.parserRuns then .next s
    else .next ((s.setUnitQ 4 rest).parseAgain p)

def followKey (slot : Fin 4) (idx : Fin 65536) : Nat := slot.val * 65536 + idx.val

/-- FOLLOW_WAIT_EXPIRE (R54): the held fragments take the orphan action and the entry is free. -/
def execFollowWaitExpire (slot : Fin 4) (idx : Fin 65536) (s : State) : Res :=
  let e := s.follow (followKey slot idx)
  if e.st ≠ .holding then .next s else
  let i := (s.slotInst slot.val).getD slot.val
  .next ((s.setFollow (followKey slot idx) .empty).orphan slot.val (idx.val / 8) i e.held)

/-- FOLLOW_AGE_EXPIRE (R55): an untouched FOLLOWING entry is freed and counted. -/
def execFollowAgeExpire (slot : Fin 4) (idx : Fin 65536) (s : State) : Res :=
  if (s.follow (followKey slot idx)).st ≠ .following then .next s else
  .next ((s.setFollow (followKey slot idx) .empty).bump (R.PARSE_FOLLOW_AGED_CNT slot.val))

/-- The first fragment's pass ended in a drop: its entry's verdict becomes DROP (R52). -/
def State.followVerdict (s : State) (p : Pkt) : State :=
  match p.frag with
  | none => s
  | some f =>
    if spGet p.sp SP.FRAG ≠ 1 then s else
    match s.followFind (s.cinst (spGet p.sp SP.CWAY)).slot f with
    | some k => let e := s.follow k
                if e.st = .following then s.setFollow k { e with dropVerdict := true } else s
    | none => s

/-- LANE_MAP_SET (code 0x33): only an instance serving a slot (R49). -/
def execLaneMapSet (ch : BitVec 13) (seq : BitVec 4) (s : State) : Res :=
  .next (s.gcs ch seq 0x33 (fun s c =>
    let inst := fld c.arg 0 3
    if c.imm &&& 0xFFFFFFF0FFF8 ≠ 0 ∨ 4 < inst ∨ !(s.cinst inst).role.serves then (s, .badArg)
    else (s.setLane (fld c.arg 16 4) inst, .ok 0)))

/-- The bits of a PARSE image word that are not reserved (Tables 2-8 to 2-12). -/
def parseImageMask (o : Nat) : Nat :=
  if o = 0 then 0x7F
  else if o = 4 ∨ o = 8 then 0xFFFF
  else if 0x10 ≤ o ∧ o < 0x30 then 0xF000FFFF
  else if o = 0x80 then 0xFF7FFFFF
  else if 0x100 ≤ o then 0xFF
  else 0

/-- The offsets of a PARSE image that a PARSE_CFG checks and writes: all but the lane map. -/
def parseImageOffsets : List Nat := ((List.range 80).map (· * 4)).filter (fun o => decide (o < 0x40) || decide (0x80 ≤ o))

/-- What a change of seed or mode looks at. -/
def State.hashMode (s : State) : Bool × Nat := (s.rdf R.PARSE_HASH_CFG 0 2 == 1, s.rdf R.PARSE_HASH_SEED 0 16)

/-- PARSE_CFG (code 0x34): the image applies whole; a new seed or mode holds every index (Table 12-12, R50). -/
def execParseCfg (ch : BitVec 13) (seq : BitVec 4) (s : State) : Res :=
  .next (s.gcs ch seq 0x34 (fun s c =>
    let word := fun o => leAt c.args o 4
    if c.args.length < 320 ∨ parseImageOffsets.any (fun o => word o &&& (0xFFFFFFFF ^^^ parseImageMask o) != 0) then (s, .badArg)
    else
      let before := s.hashMode
      let s := s.each (parseImageOffsets.filter (fun o => parseImageMask o != 0)) (fun s o =>
        s.wr (R.PARSE_HASH_CFG + o) (BitVec.ofNat 64 (word o)))
      let s := if s.hashMode = before then s else
        s.each (List.range 16) (fun s i => s.beginHold (s.rdf (R.PARSE_LANE_MAP i) 0 3) i)
      (s, .ok 0)))

end Sys2Proof.Machine
end

