-- ==== Sys2Proof/Machine/Tables.lean ====
section
/-!
DEFINITION. Machine/Tables.lean: the route tables as data: lookup, placement, promotion, learning-event records, the prefix
sets and the policy classifier (R71 to R74, R88 to R99, R106, R110). Which free slot or overflow index an entry takes is left
open by the spec: a free value picks it.
-/
namespace Sys2Proof.Machine
open Sys2Proof

/-- An uncorrectable HBM read (R400): counted by stack and owner, recorded and raised; mirrored regions are repaired. -/
def State.hbmUncorr (s : State) (addr owner : Nat) : State :=
  let k := addr / 256 % 3
  let s := (((s.bump (R.HBMC_UNCORR_CNT k)).bump (R.HBMC_OWNER_UNCORR_CNT owner)).wr R.HBMC_LAST_UNCORR_ADDR
    (BitVec.ofNat 64 addr)).wr R.HBMC_LAST_UNCORR_TIME s.now
  let s := s.raise (0x743 + k) noFunc (addr / 131072) owner
  if 3 ≤ owner ∧ owner ≤ 7 then s.raise 0x746 noFunc (addr / 131072) owner else s

/-- The instance whose HBM region and overflow stores instance `i` reaches (R127 step 3). -/
def State.regionOf (s : State) (i : Nat) : Nat := mapGet (fun i => i) s.rtbl.region i

/-- Key bytes of a table: 40 for flow, 8 for station (R90). -/
def keyLen (t : Nat) : Nat := if t = 0 then 40 else 8

/-- Buckets of a table (Table 4-1). -/
def bucketsOf (t : Nat) : Nat := if t = 0 then 4194304 else 262144

/-- Overflow entries of a table. -/
def ovfSize (t : Nat) : Nat := if t = 0 then 65536 else 8192

def keyBytes (t : Nat) (key : BitVec 320) : Bytes := (bvBytes key).take (keyLen t)

/-- The home bucket of a key (R90). -/
def home (t : Nat) (key : BitVec 320) : Nat := (crc32c (keyBytes t key)).toNat % bucketsOf t

def bucketKey (r t b : Nat) : Nat := (r * 2 + t) * 4194304 + b

def ovfKey (r t x : Nat) : Nat := (r * 2 + t) * 65536 + x

def State.bucket (s : State) (r t b : Nat) : Bucket := mapGet (fun _ => Bucket.empty) s.rtbl.bucket (bucketKey r t b)

def State.setBucket (s : State) (r t b : Nat) (v : Bucket) : State :=
  { s with rtbl := { s.rtbl with bucket := mapSet (fun _ => Bucket.empty) s.rtbl.bucket (bucketKey r t b) v } }

def State.ovf (s : State) (r t x : Nat) : OvfEntry := mapGet (fun _ => OvfEntry.empty) s.rtbl.ovf (ovfKey r t x)

def State.setOvf (s : State) (r t x : Nat) (v : OvfEntry) : State :=
  { s with rtbl := { s.rtbl with ovf := mapSet (fun _ => OvfEntry.empty) s.rtbl.ovf (ovfKey r t x) v } }

def Bucket.slot (b : Bucket) (k : Nat) : EmEntry := match k with
  | 0 => b.s0 | 1 => b.s1 | 2 => b.s2 | _ => b.s3

def Bucket.setSlot (b : Bucket) (k : Nat) (e : EmEntry) : Bucket := match k with
  | 0 => { b with s0 := e } | 1 => { b with s1 := e } | 2 => { b with s2 := e } | _ => { b with s3 := e }

def EmEntry.valid (e : EmEntry) : Bool := bit e.control 31
def EmEntry.lock (e : EmEntry) : Bool := bit e.control 30
def EmEntry.action (e : EmEntry) : Nat := fld e.control 0 17

/-- VERSION one higher (R94). -/
def Bucket.bumped (b : Bucket) : Bucket := { b with version := b.version + 1 }

/-- One write of a slot: VERSION advances where a KEY, CONTROL or RESULT changes (R94). -/
def Bucket.put (b : Bucket) (k : Nat) (e : EmEntry) : Bucket :=
  let o := b.slot k
  let b := b.setSlot k e
  if o.key = e.key ∧ o.control = e.control ∧ o.result = e.result then b else b.bumped

/-- Whether all four slots are VALID. -/
def Bucket.full (b : Bucket) : Bool := b.s0.valid && b.s1.valid && b.s2.valid && b.s3.valid

/-- The overflow entries of a region's table, by index. -/
def State.ovfList (s : State) (r t : Nat) : List (Nat × OvfEntry) :=
  (s.rtbl.ovf.filter (fun e => decide (ovfKey r t 0 ≤ e.1) && decide (e.1 < ovfKey r t 65536))).map
    (fun e => (e.1 - ovfKey r t 0, e.2))

/-- Those whose home is bucket `b`. -/
def State.ovfOf (s : State) (r t b : Nat) : List (Nat × OvfEntry) :=
  (s.ovfList r t).filter (fun e => home t e.2.e.key == b)

/-- Where an entry lies. -/
inductive Loc where
  | slot (b k : Nat)
  | ovf (x : Nat)
  deriving DecidableEq, Repr

/-- LOCATION of Table 4-8. -/
def Loc.code : Loc → Nat
  | .slot b k => b + at' k 22
  | .ovf x => x

def Loc.isOvf : Loc → Bool
  | .slot _ _ => false
  | .ovf _ => true

/-- The slot of a bucket that holds the key. -/
def Bucket.find (b : Bucket) (key : BitVec 320) : Option Nat :=
  [0, 1, 2, 3].find? (fun k => (b.slot k).valid && (b.slot k).key == key)

/-- The lookup of a key (R91): the bucket first, then, where it is full or DETOUR is set, the overflow store. -/
def State.emFind (s : State) (r t : Nat) (key : BitVec 320) : Option (Loc × EmEntry) :=
  let h := home t key
  let b := s.bucket r t h
  match b.find key with
  | some k => some (.slot h k, b.slot k)
  | none =>
    if b.full || b.detour then
      match (s.ovfList r t).find? (fun e => e.2.e.valid && e.2.e.key == key) with
      | some (x, e) => some (.ovf x, e.e)
      | none => none
    else none

/-- An entry written where it lies. -/
def State.emPut (s : State) (r t : Nat) (l : Loc) (e : EmEntry) : State := match l with
  | .slot b k => s.setBucket r t b ((s.bucket r t b).put k e)
  | .ovf x => s.setOvf r t x { s.ovf r t x with e := e }

/-- A list's element picked by a free value. -/
def pickOf (l : List Nat) (v : Nat) : Nat := l.getD (v % l.length) 0

/-- The first free overflow index from `c` on, going round; `used` are those taken. -/
def freeFrom (size : Nat) (used : List Nat) : Nat → Nat → Nat
  | 0, c => c
  | fuel + 1, c => if c ∈ used then freeFrom size used fuel ((c + 1) % size) else c

/-- Why an insertion is refused (R102, Table 4-13). -/
inductive NoRoom where
  | full | limit
  deriving DecidableEq, Repr

/-- Overflow entries with a key are freed. Where a bucket was emptied for an error its overflow entries stay behind, out of every
lookup's reach (Table 17-1, R91); one whose key enters the bucket again goes, for a key is present at most once (R92). DESIGN
CHOICE: the spec does not say when. -/
def State.ovfDrop (s : State) (r t : Nat) (key : BitVec 320) : State :=
  s.each ((s.ovfList r t).filter (fun e => e.2.e.key == key)) (fun s e => s.setOvf r t e.1 .empty)

/-- An insertion of an absent key: a free slot of its home bucket, else the overflow store (R92, R102). -/
def State.emInsert (s : State) (r t : Nat) (e : EmEntry) : State × Except NoRoom Loc :=
  let h := home t e.key
  let b := s.bucket r t h
  let v := s.fresh.toNat
  if !b.full then
    let k := pickOf ([0, 1, 2, 3].filter (fun k => !(b.slot k).valid)) v
    ((s.drew.ovfDrop r t e.key).setBucket r t h (b.put k e), .ok (.slot h k))
  else
    let used := (s.ovfList r t).map (·.1)
    if 12 ≤ (s.ovfOf r t h).length then (s, .error .limit)
    else if ovfSize t ≤ used.length then (s, .error .full)
    else
      let x := freeFrom (ovfSize t) used (used.length + 1) (v % ovfSize t)
      let s := { s.drew with rtbl := { s.rtbl with ovfSeq := s.rtbl.ovfSeq + 1 } }
      (s.setOvf r t x ⟨e, s.rtbl.ovfSeq⟩, .ok (.ovf x))

/-- The entry that entered first. -/
def oldest (l : List (Nat × OvfEntry)) : Option (Nat × OvfEntry) :=
  l.foldl (fun a e => match a with
    | none => some e
    | some o => if e.2.seq < o.2.seq then some e else some o) none

/-- An entry removed. From a full bucket with a waiting overflow entry, that entry is promoted: three bucket writes, and it comes
back with its slot; otherwise VALID alone is cleared (R95). -/
def State.emRemove (s : State) (r t : Nat) (l : Loc) : State × Option (Loc × EmEntry) :=
  match l with
  | .ovf x => (s.setOvf r t x .empty, none)
  | .slot h k =>
    let b := s.bucket r t h
    let off := { b.slot k with control := setBit (b.slot k).control 31 false }
    match oldest (s.ovfOf r t h) with
    | some (x, y) => if b.full then
        ((s.setBucket r t h { b.setSlot k y.e with version := b.version + 3 }).setOvf r t x .empty, some (.slot h k, y.e))
      else (s.setBucket r t h (b.put k off), none)
    | none => (s.setBucket r t h (b.put k off), none)

/-- A learning-event record (Table 4-8), lost where the ring bound to the instance is full (R110). -/
def State.lev (s : State) (i kind t : Nat) (l : Loc) (e : EmEntry) : State :=
  match mapGet (fun _ => none) s.rtbl.levRing i with
  | none => s
  | some r =>
    let tag := if t = 0 then (crc32c (keyBytes 0 e.key)).toNat + at' (fld e.result 0 32) 32 else fld e.key 0 64
    let body := leBytes 1 kind ++ leBytes 1 (i + at' t 3 + at' (b2n l.isOvf) 4) ++ leBytes 2 0 ++ leBytes 4 l.code ++ leBytes 8 tag
    let (s, ok) := s.eventPut r (cplEntry r 0 0 0 s.now body)
    if ok then s else (s.bump R.RTBL_LEV_LOST_CNT).raise 0x310 (s.ring r).func r i

/-- Entries present in a region's table, bucket and overflow. -/
def State.emEntries (s : State) (r t : Nat) : List EmEntry :=
  ((s.rtbl.bucket.filter (fun e => decide (bucketKey r t 0 ≤ e.1) && decide (e.1 < bucketKey r t 4194304))).flatMap
    (fun e => [e.2.s0, e.2.s1, e.2.s2, e.2.s3].filter (fun x => x.valid))) ++
  ((s.ovfList r t).map (fun e => e.2.e))

/-- One entry's part of the digest (R106), over the 40 bytes of KEY (Table 4-3). -/
def EmEntry.digest (e : EmEntry) : Nat :=
  let key := bvBytes e.key
  at' (crc32c key).toNat 32 + (crc32c (key ++ leBytes 3 (at' (b2n e.lock) 17 + e.action) ++ bvBytes e.result)).toNat

/-- RTBL_DIGEST (R106). -/
def State.emDigest (s : State) (r t : Nat) : Nat := (s.emEntries r t).foldl (fun d e => d ^^^ e.digest) 0

/-- OVF_HIGH as the overflow store reaches its threshold (Table 4-14). -/
def State.ovfHigh (s : State) (i t : Nat) : State :=
  let n := (s.ovfList (s.regionOf i) t).length
  if n = s.rdf (R.RTBL_OVF_THRESH t) 0 17 then s.raise (0x305 + i) noFunc n t else s

/-- The age of an entry in ticks (R104). -/
def State.ageNow (s : State) : BitVec 16 := BitVec.ofNat 16 (s.rdf R.RTBL_AGE_NOW 0 16)

/-- A lookup's outcome: hit, action, result words, and the key it was made with. -/
structure Found where
  hit : Bool
  action : Nat
  result : BitVec 256
  deriving DecidableEq, Repr

def Found.miss : Found := ⟨false, 0, 0⟩

/-- An exact-match lookup, with the refresh of R104 unless it leaves no touch. -/
def State.emLookup (s : State) (i t : Nat) (key : BitVec 320) (touch : Bool) : State × Found :=
  let r := s.regionOf i
  match s.emFind r t key with
  | none => (s, .miss)
  | some (l, e) =>
    let s := if touch && !e.lock && e.stamp != s.ageNow then s.emPut r t l { e with stamp := s.ageNow } else s
    (s, ⟨true, e.action, e.result.setWidth 256⟩)

def State.tenant (s : State) (k : Nat) : BitVec 128 := mapGet (fun _ => 0) s.rtbl.tenant k
def State.portEntry (s : State) (k : Nat) : BitVec 256 := mapGet (fun _ => 0) s.rtbl.port k
def State.nexthop (s : State) (k : Nat) : BitVec 256 := mapGet (fun _ => 0) s.rtbl.nexthop k

/-- A direct-indexed lookup (R96): KIND 3, 4 or 5. -/
def State.directLookup (s : State) (kind key : Nat) : Found :=
  let (c, w) : Word × BitVec 256 :=
    if kind = 3 then let e := s.tenant (key % 65536); (BitVec.ofNat 32 (fld e 0 32), BitVec.ofNat 256 (fld e 32 96))
    else if kind = 4 then let e := s.portEntry (key % 1024); (BitVec.ofNat 32 (fld e 0 32), BitVec.ofNat 256 (fld e 32 224))
    else let e := s.nexthop (key % 65536); (BitVec.ofNat 32 (fld e 128 32), BitVec.ofNat 256 (fld e 160 96))
  if bit c 31 then ⟨true, fld c 0 17, w⟩ else .miss

/-- Whether a prefix covers an address of `width` bits (R98). -/
def PfxEntry.covers (p : PfxEntry) (width : Nat) (a : BitVec 128) : Bool :=
  p.len ≤ width && (a.toNat % 2 ^ width) / 2 ^ (width - p.len) == p.addr.toNat / 2 ^ (width - p.len)

/-- The longest valid prefix that covers an address (R98). -/
def pfxBest (width : Nat) (a : BitVec 128) (l : List PfxEntry) : Option PfxEntry :=
  l.foldl (fun b p => if bit p.control 31 && p.covers width a then
    (match b with
     | none => some p
     | some q => if q.len < p.len then some p else some q) else b) none

/-- A prefix lookup, KIND 6 or 7. -/
def State.pfxLookup (s : State) (v6 : Bool) (key : Nat) : Found :=
  let a := BitVec.ofNat 128 (if v6 then key else key % 4294967296)
  match pfxBest (if v6 then 128 else 32) a (if v6 then s.rtbl.pfx6 else s.rtbl.pfx4) with
  | none => .miss
  | some p => ⟨true, fld p.control 0 17, p.result.setWidth 256⟩

def State.tcamAt (s : State) (x : Nat) : TcamEntry := mapGet (fun _ => TcamEntry.empty) s.cway.tcam x

/-- Whether the entry belongs to the generation in slot `g` (Table 3-6). -/
def TcamEntry.inGen (e : TcamEntry) (g : Nat) : Bool := bit e.control (62 + g)

/-- Whether an entry matches a key (R71). -/
def TcamEntry.hits (e : TcamEntry) (key : BitVec 512) : Bool := (e.key ^^^ key) &&& e.mask == 0

/-- The entries of a range that match for a generation, lowest index first (R71); all others are empty and match nothing. -/
def State.tcamHits (s : State) (g base count : Nat) (key : BitVec 512) : List Nat :=
  (s.cway.tcam.filter (fun e => decide (base ≤ e.1) && decide (e.1 < base + count) && decide (e.1 < 16384) &&
    e.2.inGen g && e.2.hits key)).map (·.1)

/-- The slot that refuses a write of a policy classifier entry (R73). -/
def State.tcamBlocks (s : State) (x : Nat) (e : TcamEntry) : Option Nat :=
  let o := s.tcamAt x
  [0, 1].find? (fun g => (s.gen g).serves &&
    (o.inGen g != e.inGen g || (o.inGen g && (o.key != e.key || o.mask != e.mask || fld o.control 0 17 != fld e.control 0 17))))

/-- A policy classifier entry written into all five instances, or refused (R72, R73); true where it was written. -/
def State.tcamWrite (s : State) (x : Nat) (e : TcamEntry) : State × Bool :=
  match s.tcamBlocks x e with
  | some g => ((s.bump R.CWAY_TCAM_REFUSED_CNT).raise 0x252 noFunc x g, false)
  | none =>
    let e := { e with control := e.control &&& 0xC00000000001FFFF }
    let s := s.tableWrite
    ({ s with cway := { s.cway with
        tcam := mapSet (fun _ => TcamEntry.empty) s.cway.tcam x e
        tcamBad := s.cway.tcamBad.filter (fun b => b.2 != x) } }, true)

/-- A policy classifier entry in the layout of Table 3-5. -/
def TcamEntry.bytes (e : TcamEntry) : Bytes := bvBytes e.key ++ bvBytes e.mask ++ bvBytes e.control

def TcamEntry.ofBytes (b : Bytes) : TcamEntry :=
  ⟨bytesBv 512 (slice b 0 64), bytesBv 512 (slice b 64 64), bytesBv 64 (slice b 128 8)⟩

/-- CWAY_TCAM_CRC[g] (R74). -/
def State.tcamCrc (s : State) (g : Nat) : Word :=
  crc32c ((s.cway.tcam.filter (fun e => e.2.inGen g)).flatMap (fun e => leBytes 2 e.1 ++ e.2.bytes))

def State.actionAt (s : State) (x : Nat) : BitVec 128 := mapGet (fun _ => 0) s.cway.action x

end Sys2Proof.Machine
end

