-- ==== Sys2Proof/Machine/Toll.lean ====
section
/-!
DEFINITION. Machine/Toll.lean: the toll gates (R147 to R151). Levels are held in units of 1/64,000 byte, in which a rate of
125 kb/s adds exactly 1 each ns.
-/
namespace Sys2Proof.Machine
open Sys2Proof

def State.toll (s : State) (k : Nat) : Toll := mapGet (fun _ => Toll.zero) s.tm.toll k

def State.setToll (s : State) (k : Nat) (t : Toll) : State :=
  { s with tm := { s.tm with toll := mapSet (fun _ => Toll.zero) s.tm.toll k t } }

/-- The buckets refilled up to `now`; a backward step of time adds nothing (R147, R148). -/
def Toll.refill (t : Toll) (now : DWord) : Toll :=
  let el := now.toNat - t.last.toNat
  let cir := min t.cir.toNat t.pir.toNat
  { t with
    tc := min (t.tc + cir * el) (t.cbs.toNat * 64000), tp := min (t.tp + t.pir.toNat * el) (t.pbs.toNat * 64000), last := now }

/-- The colour of a packet of `b` bytes with incoming colour `c`, at refilled buckets (R147). -/
def Toll.colour (t : Toll) (b c : Nat) : Nat :=
  let c := if t.aware then c else 0
  if 2 ≤ c ∨ t.tp < b * 64000 then 2 else if c = 1 ∨ t.tc < b * 64000 then 1 else 0

/-- A packet of colour `c` taken from the buckets. -/
def Toll.charge (t : Toll) (b c : Nat) : Toll :=
  { t with tp := if c < 2 then t.tp - b * 64000 else t.tp, tc := if c = 0 then t.tc - b * 64000 else t.tc }

/-- A packet counted by its colour (R151). -/
def Toll.count (t : Toll) (b c : Nat) : Toll :=
  match c with
  | 0 => { t with greenP := t.greenP + 1, greenB := t.greenB + BitVec.ofNat 64 b }
  | 1 => { t with yellowP := t.yellowP + 1, yellowB := t.yellowB + BitVec.ofNat 64 b }
  | _ => { t with redP := t.redP + 1, redB := t.redB + BitVec.ofNat 64 b }

/-- One metering of `b` bytes at gate `k` (R147, R148): the colour it writes. -/
def State.meter (s : State) (k b c : Nat) : State × Nat :=
  let t := s.toll k
  let s := s.bump R.TM_TOLL_OP_CNT
  if !t.enable then ((s.bump R.TM_TOLL_DISABLED_CNT).setToll k (t.count b 0), 0)
  else
    let r := t.refill s.now
    let col := r.colour b c
    (s.setToll k ((r.charge b col).count b col), col)

end Sys2Proof.Machine
end

