-- ==== Sys2Proof/Machine/Pass.lean ====
section
/-!
DEFINITION. Machine/Pass.lean: one run of a Signpost through the 24 stages of a carriageway (R61 to R71, R104, R120 to R122):
a pass of an active instance, or the copy of one that the Shoulder or a tie-break replay runs.
-/
namespace Sys2Proof.Machine
open Sys2Proof

/-- What a run keeps while it goes through the stages: the Signpost and the carry words (R61), the reason that set
drop-final (R69), and what its operations asked for. The last fields are the shadow's: echoes, tolls and inline results of
the pass it copies that it has not used. -/
structure PassRun where
  sp : Signpost
  carry : BitVec 256
  drop : Option Nat
  reparse : Bool
  skip : Nat
  hits : Nat
  mismatch : Bool
  opWords : List Word
  counts : List (Nat × Nat)
  tolls : List (Nat × BitVec 2)
  inlines : List (Nat × Word)
  commits : List (Nat × Inline)
  egress : Option Nat
  mirror : Option Nat
  learns : List (Nat × Option (BitVec 320) × Bool)
  bad : List (Nat × Nat)
  flowKey : Option (BitVec 320)
  stnKey : Option (BitVec 320)
  echoes : List Echo
  echoIn : List Echo
  tollIn : List (Nat × BitVec 2)
  inlineIn : List (Nat × Word)
  deriving DecidableEq, Repr

/-- A run at its start: the carry words and drop-final clear (R61). -/
def PassRun.start (sp : Signpost) (echoes : List Echo) (tolls : List (Nat × BitVec 2)) (inlines : List (Nat × Word)) :
    PassRun :=
  ⟨sp, 0, none, false, 0, 0, false, [], [], [], [], [], none, none, [], [], none, none, [], echoes, tolls, inlines⟩

/-- What a selector takes (Table 3-3, R66). -/
def selValue (sel : Nat) (sp : Signpost) (carry : BitVec 256) (win : Bytes) : Nat :=
  let w := sel % 32 + 1
  let off := sel / 32 % 512
  match sel / 16384 % 4 with
  | 0 => fld sp off w
  | 1 => fld carry off w
  | 2 => beAt (slice win off 4 ++ List.replicate (4 - (slice win off 4).length) 0) 0 4 / 2 ^ (32 - w)
  | _ =>
    if spGet sp SP.L4_TYPE = 0 then 0 else
    let o := off + spGet sp SP.L4_OFF
    beAt (slice win o 4 ++ List.replicate (4 - (slice win o 4).length) 0) 0 4 / 2 ^ (32 - w)

/-- The key a template's selectors build from bit `pos` upwards (R66). -/
def keyFrom (sp : Signpost) (carry : BitVec 256) (win : Bytes) : List Nat → Nat → Nat
  | [], _ => 0
  | sel :: rest, pos =>
    if sel / 16384 % 4 = 3 ∧ sel % 32 = 0 then 0
    else at' (selValue sel sp carry win) pos + keyFrom sp carry win rest (pos + sel % 32 + 1)

def State.stageCfg (s : State) (g n : Nat) : DWord := mapGet (fun _ => 0) s.cway.stage (g * 24 + n)

/-- Selectors after cold reset: SOURCE 0b11, the other fields 0 (Table 3-3). -/
def tplReset : Word := 0xC000C000

/-- The 16 selectors of a key template. -/
def State.template (s : State) (g t : Nat) : List Nat :=
  (List.range 16).map (fun i => fld (mapGet (fun _ => tplReset) s.cway.tpl ((g * 64 + t) * 8 + i / 2)) (i % 2 * 16) 16)

/-- The key a stage forms (R67). -/
def State.stageKey (s : State) (g t : Nat) (r : PassRun) (win : Bytes) : BitVec 512 :=
  BitVec.ofNat 512 (keyFrom r.sp r.carry win (s.template g t) 0)

/-- The key bits a table kind uses (Table 3-2). -/
def keyBitsOf : Nat → Nat
  | 1 => 320 | 2 => 64 | 3 => 16 | 4 => 10 | 5 => 16 | 6 => 32 | 7 => 128 | _ => 512

/-- The CRC-32C of a key in its echo (R120). -/
def echoCrc (kind : Nat) (key : BitVec 512) : Word := crc32c ((bvBytes key).take (keyBitsOf kind / 8))

/-- The entries of a range whose parity fails in instance `i`. -/
def State.tcamFailed (s : State) (i base count : Nat) : List Nat :=
  ((s.cway.tcamBad.filter (fun b => b.1 == i && decide (base ≤ b.2) && decide (b.2 < base + count))).map (·.2)).eraseDups

/-- Each entry of the range searched whose parity fails is counted and raised, whether it would match or not (R74). -/
def State.tcamParity (s : State) (i : Nat) (counted : Bool) (bad : List Nat) : State :=
  s.each bad (fun s x => (s.if_ counted (fun s => s.bump (R.CWAY_TCAM_PARITY_CNT i))).raise (0x255 + i) noFunc x 0)

def State.tcamHitCnt (s : State) (i x : Nat) : DWord := mapGet (fun _ => 0) s.cway.tcamHits (i * 16384 + x)

/-- A policy classifier lookup (R71, R74). `bad`: the parity of an entry of the range, which one a free value says, fails from now
on; an entry whose parity fails does not match. -/
def State.tcamLookup (s : State) (i g : Nat) (cfg : DWord) (key : BitVec 512) (bad counted : Bool) : State × Found :=
  let n := fld cfg 40 7
  let base := fld cfg 47 6 * 256
  let count := (if n = 0 ∨ 64 < n then 64 else n) * 256
  let s := if bad then { s.drew with cway := { s.cway with
    tcamBad := s.cway.tcamBad ++ [(i, (base + s.fresh.toNat % count) % 16384)] } } else s
  let failed := s.tcamFailed i base count
  let s := s.tcamParity i counted failed
  match (s.tcamHits g base count key).find? (fun x => !(failed.contains x)) with
  | none => (s, .miss)
  | some x =>
    let s := if counted then { s with cway := { s.cway with
      tcamHits := mapSet (fun _ => 0) s.cway.tcamHits (i * 16384 + x) (s.tcamHitCnt i x + 1) } } else s
    (s, ⟨true, fld (s.tcamAt x).control 0 17, 0⟩)

/-- HBM address of a bucket (Table 4-2). -/
def bucketAddr (r t b : Nat) : Nat := r * 0x80000000 + (if t = 0 then 0 else 0x40000000) + b * 256

/-- A lookup that an active instance makes. `bad`: its memory read fails, as Table 17-1 and R71 handle it. -/
def State.realLookup (s : State) (i g kind : Nat) (cfg : DWord) (key : BitVec 512) (bad : Bool) : State × Found :=
  if kind = 1 ∨ kind = 2 then
    let t := kind - 1
    let k := key.setWidth 320
    if bad then
      let r := s.regionOf i
      let b := home t k
      ((s.hbmUncorr (bucketAddr r t b) 0).setBucket r t b
        { Bucket.empty with version := (s.bucket r t b).version + 1 }, .miss)
    else s.emLookup i t k true
  else if kind = 6 ∨ kind = 7 then
    if bad then (s.drew.hbmUncorr (0x280000000 + fld s.fresh 0 23 * 64) 2, .miss)
    else (s, s.pfxLookup (kind == 7) key.toNat)
  else if kind = 8 then s.tcamLookup i g cfg key bad true
  else (s, s.directLookup kind key.toNat)

/-- The stage's lookup in an active instance, with its echo (R120). -/
def State.liveLookup (s : State) (i g kind : Nat) (cfg : DWord) (key : BitVec 512) (bad : Bool) (r : PassRun) :
    State × Found × PassRun :=
  let (s, f) := s.realLookup i g kind cfg key bad
  let echoed := kind == 1 || kind == 2 || kind == 6 || kind == 7
  (s, f, if echoed then { r with echoes := r.echoes ++ [⟨echoCrc kind key, f.hit, BitVec.ofNat 17 f.action, f.result⟩] } else r)

/-- The stage's lookup in a shadow pass or a replay (R120). -/
def State.shadowLookup (s : State) (i g kind : Nat) (cfg : DWord) (key : BitVec 512) (r : PassRun) : State × Found × PassRun :=
  if kind = 1 ∨ kind = 2 ∨ kind = 6 ∨ kind = 7 then
    match r.echoIn with
    | [] => (s, .miss, { r with mismatch := true })
    | e :: rest =>
      if e.keyCrc = echoCrc kind key then (s, ⟨e.hit, e.action.toNat, e.result⟩, { r with echoIn := rest })
      else (s, .miss, { r with echoIn := rest, mismatch := true })
  else if kind = 8 then
    let (s, f) := s.tcamLookup i g cfg key false false
    (s, f, r)
  else (s, s.directLookup kind key.toNat, r)

/-- The operand bits an operation uses (Table 3-4); none for an opcode not used. -/
def opMask (op operand : Nat) : Option Nat := match op with
  | 0x00 => some 0 | 0x01 => some 0x3FFFF | 0x02 => some 0xFFFF | 0x03 => some 0x3F
  | 0x04 => some (if operand / 65536 % 2 = 1 then 0x10007 else 0x1FFFF)
  | 0x05 => some 0x300003F | 0x06 => some 0x3FFFFF | 0x07 => some 0xFFFFF | 0x08 => some 0xF | 0x09 => some 0x3F
  | 0x0A => some 1 | 0x0B => some 0 | 0x0C => some 0 | 0x0D => some 0x30FFFFF | 0x0E => some 7
  | 0x0F => some 0x381FFFF | 0x10 => some 0x3800007 | 0x11 => some 0x1F
  | _ => none

/-- Whether an operation acts as NOP and is counted (R70). -/
def badOp (op operand : Nat) : Bool := match opMask op operand with
  | none => true
  | some m => operand &&& (0x3FFFFFF ^^^ m) != 0 || (op == 0x05 && operand / 16777216 % 4 == 3) ||
      (op == 0x0D && decide (2 ≤ operand / 16777216 % 4)) || (op == 0x0E && decide (2 ≤ operand % 4))

/-- DEST written, unless drop-final is set (R69). -/
def PassRun.dest (r : PassRun) (d : Nat) : PassRun :=
  if r.drop.isSome then r else { r with sp := spSet r.sp SP.DEST d }

def PassRun.put (r : PassRun) (f : SpField) (x : Nat) : PassRun := { r with sp := spSet r.sp f x }

/-- Operations whose word the digest covers (R122). -/
def digestOp (op : Nat) : Bool := decide (op ∈ [0x06, 0x07, 0x08, 0x0D, 0x0E])

/-- A TOLL operation: a metering, or in a shadow the colour its copy received (R121, R147). -/
def State.tollOp (s : State) (shadow : Bool) (k : Nat) (r : PassRun) : State × PassRun :=
  if shadow then
    let c := match r.tollIn with
      | (k', c) :: _ => if k' = k then c else 0
      | [] => 0
    (s, { r.put SP.COLOUR c.toNat with tollIn := r.tollIn.drop 1, tolls := r.tolls ++ [(k, c)] })
  else
    let (s, c) := s.meter k (spGet r.sp SP.PKT_LEN) (spGet r.sp SP.COLOUR)
    (s, { r.put SP.COLOUR c with tolls := r.tolls ++ [(k, BitVec.ofNat 2 c)] })

/-- A CIPHER operation with point INLINE (R121, R383). -/
def State.inlineOp (s : State) (shadow : Bool) (k : Nat) (f : Bytes) (r : PassRun) : PassRun :=
  if shadow then
    match r.inlineIn with
    | (k', v) :: rest =>
      if k' = k then { r with carry := setFld r.carry 96 32 v.toNat, inlineIn := rest }
      else { r with carry := setFld r.carry 96 32 0, inlineIn := rest, mismatch := true }
    | [] => { r with carry := setFld r.carry 96 32 0, mismatch := true }
  else
    let x := s.inline k r.sp f
    let v := x.carry k
    { r with carry := setFld r.carry 96 32 v.toNat, inlines := r.inlines ++ [(k, v)], commits := r.commits ++ [(k, x)] }

/-- One operation of an action entry, in stage `n` under action `a` (Table 3-4). -/
def State.passOp (s : State) (shadow : Bool) (n a : Nat) (result : BitVec 256) (f : Bytes) (r : PassRun) (w : Nat) :
    State × PassRun :=
  let op := w / 67108864
  let x := w % 67108864
  if badOp op x then (s, { r with bad := r.bad ++ [(a, n)] }) else
  let r := if digestOp op then { r with opWords := r.opWords ++ [BitVec.ofNat 32 w] } else r
  match op with
  | 0x01 => (s, (r.put SP.LEAF_QUEUE x).dest 0)
  | 0x02 => (s, r.put SP.NEXTHOP x)
  | 0x03 => (s, if r.drop.isSome then r else { r.put SP.DEST 5 with drop := some x })
  | 0x04 => (s, r.put SP.TENANT (if x / 65536 = 1 then fld result (x % 8 * 32) 16 else x))
  | 0x05 => (s, r.put (match x / 16777216 with | 0 => SP.PCP | 1 => SP.DSCP | _ => SP.ECN) (x % 64))
  | 0x06 => (s, { r with counts := r.counts ++ [(x, spGet r.sp SP.PKT_LEN)] })
  | 0x07 => s.tollOp shadow x r
  | 0x08 => (s, { r.put SP.MIRROR 1 with mirror := some x })
  | 0x09 => (s, (r.dest 2).put SP.ENG_CLASS x)
  | 0x0A => (s, { r.dest 1 with reparse := x == 1 })
  | 0x0B => (s, r.dest 3)
  | 0x0C => (s, r.dest 4)
  | 0x0D =>
    if x / 16777216 = 0 then (s, { r with egress := some (x % 1048576) }) else (s, s.inlineOp shadow (x % 1048576) f r)
  | 0x0E => (s, { r with learns := r.learns ++ [(x % 2, if x % 2 = 0 then r.flowKey else r.stnKey, x / 4 == 1)] })
  | 0x0F => (s, { r with carry := setFld r.carry (x / 8388608 * 32 + x / 65536 % 2 * 16) 16 (x % 65536) })
  | 0x10 => (s, { r with carry := setFld r.carry (x / 8388608 * 32) 32 (fld result (x % 8 * 32) 32) })
  | 0x11 => (s, if n < x then { r with skip := max r.skip x } else r)
  | _ => (s, r)

/-- The four operations of an action entry, in order (R68). -/
def State.passOps (s : State) (shadow : Bool) (n a : Nat) (result : BitVec 256) (f : Bytes) (r : PassRun) :
    List Nat → State × PassRun
  | [] => (s, r)
  | w :: rest =>
    let (s, r) := s.passOp shadow n a result f r w
    s.passOps shadow n a result f r rest

/-- The action entry taken, its operations in order; index 0 is the empty action (R64). -/
def State.actionWords (s : State) (a : Nat) : List Nat :=
  if a = 0 then [] else (List.range 4).map (fun k => fld (s.actionAt a) (32 * k) 32)

/-- One stage of a run (R64 to R68): `i` the instance that runs it, `g` the slot. -/
def State.stage (s : State) (shadow : Bool) (i g : Nat) (bad : List (Fin 24)) (f : Bytes) (n : Nat) (r : PassRun) :
    State × PassRun :=
  let cfg := s.stageCfg g n
  let kind := fld cfg 59 4
  if n < r.skip ∨ !bit cfg 63 ∨ 8 < kind then (s, r) else
  let key := BitVec.ofNat 512 ((s.stageKey g (fld cfg 53 6) r (f.take 256)).toNat % 2 ^ keyBitsOf kind)
  let r := if kind = 1 then { r with flowKey := some (key.setWidth 320) }
    else if kind = 2 then { r with stnKey := some (key.setWidth 320) } else r
  let (s, x, r) :=
    if kind = 0 then (s, Found.miss, r)
    else if shadow then s.shadowLookup i g kind cfg key r
    else s.liveLookup i g kind cfg key (bad.any (fun b => b.val == n)) r
  let s := if shadow then s else s.bump (if x.hit then R.CWAY_STAGE_HIT_CNT i n else R.CWAY_STAGE_MISS_CNT i n)
  let r := if x.hit then { r with hits := r.hits + at' 1 n } else r
  let a := if x.hit then x.action else fld cfg 0 17
  s.passOps shadow n a (if x.hit then x.result else 0) f r (s.actionWords a)

/-- The stages from a list of stage numbers, in order (R62). -/
def State.stages (s : State) (shadow : Bool) (i g : Nat) (bad : List (Fin 24)) (f : Bytes) (r : PassRun) :
    List Nat → State × PassRun
  | [] => (s, r)
  | n :: rest =>
    let (s, r) := s.stage shadow i g bad f n r
    s.stages shadow i g bad f r rest

/-- A run through all 24 stages under the slot whose waymark the packet carries (R75); a physical fault of the instance
flips the Signpost that leaves stage 23 by `flip`. An echo left unused sets the key-mismatch flag (R120). -/
def State.runPass (s : State) (shadow : Bool) (i : Nat) (bad : List (Fin 24)) (flip : Word) (f : Bytes) (r : PassRun) :
    State × PassRun :=
  let (s, r) := match s.slotOf (spGet r.sp SP.WAYMARK) with
    | some g => s.stages shadow i g bad f r (List.range 24)
    | none => (s, r)
  (s, { r with sp := r.sp ^^^ flip.setWidth 512, mismatch := r.mismatch || (shadow && !r.echoIn.isEmpty) })

/-- The result digest of a pass (R122). -/
def PassRun.digest (r : PassRun) : Word :=
  crc32c (bvBytes (spSet r.sp SP.CWAY 0) ++ r.opWords.flatMap bvBytes ++
    r.learns.flatMap (fun _ => leBytes 16 (fld r.carry 128 128)) ++ leBytes 1 (b2n r.mismatch))

end Sys2Proof.Machine
end

