-- ==== Sys2Proof/Machine/Cway.lean ====
section
/-!
DEFINITION. Machine/Cway.lean: what a carriageway does at the end of a pass, and the rule generations (R63, R72 to R87).
-/
namespace Sys2Proof.Machine
open Sys2Proof

def State.learnQ (s : State) (i : Nat) : List LearnReq := mapGet (fun _ => ([] : List LearnReq)) s.rtbl.learnQ i

def State.setLearnQ (s : State) (i : Nat) (l : List LearnReq) : State :=
  { s with rtbl := { s.rtbl with learnQ := mapSet (fun _ => []) s.rtbl.learnQ i l } }

/-- A learning request taken at the end of a pass (R100, R101, R103). -/
def State.learn (s : State) (i t : Nat) (key : Option (BitVec 320)) (lock : Bool) (carry : BitVec 256) : State :=
  let cfg := s.rd (R.RTBL_LEARN_CFG t)
  if !bit cfg 31 then s else
  match key with
  | none => s.bump (R.RTBL_LEARN_FAIL_CNT i t)
  | some k =>
    if 4096 ≤ (s.learnQ i).length then s.bump (R.RTBL_LEARN_QFULL_CNT i)
    else s.setLearnQ i (s.learnQ i ++ [⟨t, k, BitVec.ofNat 17 (fld cfg 0 17), BitVec.ofNat 128 (fld carry 128 128), lock, none⟩])

def State.pair (s : State) (k : Nat) : DWord × DWord := mapGet (fun _ => (0, 0)) s.rtbl.pairs k

/-- One packet of `len` bytes counted in a counter pair of the instance's region (Table 3-4). -/
def State.countPair (s : State) (i k len : Nat) : State :=
  let x := s.regionOf i * 4194304 + k
  let (p, b) := s.pair x
  { s with rtbl := { s.rtbl with pairs := mapSet (fun _ => (0, 0)) s.rtbl.pairs x (p + 1, b + BitVec.ofNat 64 len) } }

/-- A mirror copy of a packet as its pass leaves it, for leaf queue TM_MIRROR_Q[m] (R145); it counts in RX of its original's
port (R462). -/
def State.mirrorCopy (s : State) (p : Pkt) (m : Nat) : State :=
  let c := { p with
    sp := spSet p.sp SP.LEAF_QUEUE (s.rdf (R.TM_MIRROR_Q m) 0 18)
    linePort := none, origin := none, tsReq := 0, egressSa := none, place := 0 }
  { s.account p.ingress 0 with tm := { s.tm with input := s.tm.input ++ [(c, true)] } }

/-- The INLINE results of a pass commit, and the plaintext replaces the packet's cells (R382). -/
def State.commitInline (s : State) (p : Pkt) (r : PassRun) : State × Pkt :=
  let s := s.each r.commits (fun s c => s.inlineCommit c.1 c.2)
  match r.commits.filterMap (fun c => c.2.bytes) |>.getLast? with
  | none => (s, p)
  | some b => s.recell p b

/-- What DEST decides at the end of stage 23 (Table 3-1). -/
def State.passOut (s : State) (i : Nat) (p : Pkt) (r : PassRun) : State :=
  match spGet p.sp SP.DEST with
  | 0 => ((s.bump (R.CWAY_PASS_CNT i)).leaveGen p.sp).toTm p
  | 1 =>
    if spGet p.sp SP.PASS = 3 then
      (s.raise (0x240 + i) p.evFunc (spGet p.sp SP.LEAF_QUEUE) 0).dropEarly p (R.CWAY_PASS_LIMIT_CNT i) 7 65
    else
      let s := s.bump (R.CWAY_RECIRC_CNT i)
      if r.reparse then s.toUnit 4 { p with reparse := true } else s.againOn i p
  | 2 => (s.bump (R.CWAY_PASS_CNT i)).toClass (spGet p.sp SP.ENG_CLASS) p i
  | 3 =>
    let s := (s.bump (R.CWAY_PASS_CNT i)).leaveGen p.sp
    { s with rte := { s.rte with input := s.rte.input ++ [p] } }
  | 4 =>
    let s := (s.bump (R.CWAY_PASS_CNT i)).leaveGen p.sp
    { s with sce := { s.sce with input := s.sce.input ++ [p] } }
  | d =>
    let s := if d = 5 then s.followVerdict p else s
    match r.drop with
    | some x => if d = 5 then s.dropEarly p (R.CWAY_ACT_DROP_CNT i x) 7 x else s.dropEarly p (R.CWAY_NO_DEST_CNT i) 7 64
    | none => s.dropEarly p (R.CWAY_NO_DEST_CNT i) 7 64

/-- The longest pass seen: how long a pass takes is a free value of at most 3,200 cycles (R85). -/
def State.passTime (s : State) (i : Nat) : State := s.drew.raiseTo (R.CWAY_LAT_MAX i) (s.fresh.toNat % 3201)

/-- The cycles a full buffer paused its instance: a free value, counted when the pause ends (R84). -/
def State.pauseEnd (s : State) (i : Nat) (paused : Bool) : State :=
  if paused then s.drew.bumpN (R.CWAY_RETAIN_STALL_CNT i) s.fresh.toNat else s

/-- The result of a pass leaves stage 23: its descriptor is free, its copy goes to the Shoulder, its operations take effect,
and DEST is acted on (R63, R83, R119, R122). -/
def State.endPass (s : State) (i : Nat) (h : Held) (rest : List Held) (r : PassRun) : State :=
  let paused := s.paused i
  let s := (s.updCinst i (fun c => { c with retain := rest })).passTime i
  let s := if h.copied then { s with shld := { s.shld with
      copies := s.shld.copies ++ [⟨h.pkt, i, r.echoes, r.tolls, r.inlines, r.digest, 0, h.void, 0, 0⟩] } } else s
  let s := s.each r.bad (fun s b => (s.bump (R.CWAY_BAD_OP_CNT i)).raise (0x24A + i) h.pkt.evFunc b.1 b.2)
  let s := s.each r.counts (fun s x => s.countPair i x.1 x.2)
  let s := s.each r.learns (fun s x => s.learn i x.1 x.2.1 x.2.2 r.carry)
  let p := { h.pkt with sp := r.sp, egressSa := r.egress }
  let (s, p) := s.commitInline p r
  let s := s.trace 1 p.sp p.bytes i 0xFF 0 r.hits
  let s := match r.mirror with
    | some m => s.mirrorCopy p m
    | none => s
  ((s.passOut i p r).pauseEnd i paused).startPasses i

/-- CARRIAGEWAY_PASS: the oldest pass of instance `i` runs and ends. -/
def execCarriagewayPass (i : Fin 5) (flip : Word) (bad : List (Fin 24)) (s : State) : Res :=
  let i := i.val
  if !s.instRuns i then .next s else
  match (s.cinst i).retain with
  | [] => .next s
  | h :: rest =>
    let (s, r) := s.runPass false i bad flip h.pkt.bytes (.start h.pkt.sp [] [] [])
    .next (s.endPass i h rest r)

/-- The staged policy classifier entry (Table 3-10). -/
def State.tcamStaged (s : State) : TcamEntry :=
  TcamEntry.ofBytes ((List.range 34).flatMap (fun k => leBytes 4 (s.rd (R.CWAY_TCAM_STAGE k)).toNat))

/-- TCAM_COMMIT (R72, R73): the staged entry goes to the index written; reserved bits of the index are ignored. -/
def execTcamCommit (v : Word) (s : State) : Res :=
  if s.blockHeld 6 then .next s else .next (s.tcamWrite (fld v 0 14) s.tcamStaged).1

/-- The slot in a state, if one is. -/
def State.genIn (s : State) (st : GenSt) : Option Nat := [0, 1].find? (fun g => (s.gen g).st == st)

/-- Records of a 2-byte index and a 136-byte entry (RULESET_LOAD). -/
def tcamRecords : Nat → Bytes → List (Nat × TcamEntry)
  | 0, _ => []
  | n + 1, b => (leAt b 0 2 % 16384, TcamEntry.ofBytes (slice b 2 136)) :: tcamRecords n (b.drop 138)

/-- Stage programs of an image written into slot `g`; reserved bits stay 0 (Table 3-13). -/
def State.loadStages (s : State) (g : Nat) (b : Bytes) : State :=
  s.each (List.range 24) (fun s n => { s with cway := { s.cway with
    stage := mapSet (fun _ => 0) s.cway.stage (g * 24 + n) (BitVec.ofNat 64 (leAt b (8 * n) 8) &&& 0xFFFFFF000001FFFF) } })

/-- Key templates of an image written into slot `g`. -/
def State.loadTemplates (s : State) (g : Nat) (b : Bytes) : State :=
  s.each (List.range 512) (fun s n => { s with cway := { s.cway with
    tpl := mapSet (fun _ => tplReset) s.cway.tpl (g * 512 + n) (BitVec.ofNat 32 (leAt b (4 * n) 4)) } })

/-- RULESET_LOAD (code 0x30, R79, R281): begins loading a FREE slot, or goes on with the LOADING one. -/
def execRulesetLoad (ch : BitVec 13) (seq : BitVec 4) (s : State) : Res :=
  .next (s.gcs ch seq 0x30 (fun s c =>
    let b := c.args
    let begin_ := bit (byteAt b 0) 0
    let image := bit (byteAt b 0) 1
    let n := leAt b 4 4
    let at_ := if image then 2248 else 8
    if c.version = 1 ∧ (image ∨ 1 < n) then (s, .no 0x1084)
    else if b.length < at_ + n * 138 ∨ (byteAt b 0 &&& 0xFC != 0) ∨ leAt b 1 3 ≠ 0 ∨
        (List.range n).any (fun k => decide (16384 ≤ leAt b (at_ + k * 138) 2)) then (s, .badArg)
    else match (if begin_ then s.genIn .free else s.genIn .loading) with
    | none => (s, .no (if begin_ then 0x3010 else 0x3011))
    | some g =>
      let recs := tcamRecords n (b.drop at_)
      match recs.find? (fun r => (s.tcamBlocks r.1 r.2).isSome) with
      | some r => ((s.tcamWrite r.1 r.2).1, .no 0x2021)
      | none =>
        let s := s.setGen g { s.gen g with st := .loading }
        let s := if image then (s.loadStages g (b.drop 8)).loadTemplates g (b.drop 200) else s
        (s.each recs (fun s r => (s.tcamWrite r.1 r.2).1), .ok g)))

/-- A commit refused, counted and raised (R79, Table 3-9): the status and the waymark it names. -/
def State.commitRefused (s : State) : State × Status :=
  let (st, wm) : Status × Nat := match s.genIn .draining with
    | some g => (0x3010, (s.gen g).waymark.toNat)
    | none => (0x3011, (s.gen s.liveSlot).waymark.toNat)
  ((s.bump R.CWAY_SWAP_BUSY_CNT).raise 0x251 noFunc wm st.toNat, st)

/-- The LOADING slot becomes LIVE and the other DRAINING, or FREE at once (R76, R78). -/
def State.commitGen (s : State) (g : Nat) : State × Nat :=
  let o := s.liveSlot
  let old := s.gen o
  let wm := old.waymark + 1
  let s := (s.setGen g ⟨.live, wm, 0⟩).bump R.CWAY_SWAP_CNT
  if old.inflight = 0 then ((s.setGen o { old with st := .free }).raise 0x250 noFunc old.waymark.toNat o, wm.toNat)
  else (s.setGen o { old with st := .draining }, wm.toNat)

/-- What measurement slot M09 takes of a rule set: stage programs, key templates and policy classifier entries. -/
def State.ruleSetBytes (s : State) (g : Nat) : Bytes :=
  (List.range 24).flatMap (fun n => bvBytes (s.stageCfg g n)) ++
  (List.range 512).flatMap (fun n => bvBytes (mapGet (fun _ => tplReset) s.cway.tpl (g * 512 + n))) ++
  (s.cway.tcam.filter (fun e => e.2.inGen g)).flatMap (fun e => e.2.bytes)

/-- RULESET_COMMIT (code 0x31, R76, R78, R79), measured into M09. -/
def execRulesetCommit (ch : BitVec 13) (seq : BitVec 4) (s : State) : Res :=
  .next (s.gcs ch seq 0x31 (fun s c =>
    if c.imm ≠ 0 then (s, .badArg) else
    match s.genIn .loading with
    | none => let (s, st) := s.commitRefused
              (s, .no st)
    | some g => let (s, wm) := s.commitGen g
                (s.extend 9 none none (Config.sha384 (s.ruleSetBytes g)), .ok wm)))

/-- RULESET_DISCARD (code 0x32, R76, R79). -/
def execRulesetDiscard (ch : BitVec 13) (seq : BitVec 4) (s : State) : Res :=
  .next (s.gcs ch seq 0x32 (fun s c =>
    if c.imm ≠ 0 then (s, .badArg) else
    match s.genIn .loading with
    | none => (s, .no 0x3011)
    | some g => (s.setGen g { s.gen g with st := .free }, .ok 0)))

end Sys2Proof.Machine
end

