-- ==== Sys2Proof/Machine/Rtbl.lean ====
section
/-!
DEFINITION. Machine/Rtbl.lean: learning, station copies, aging, the table-access ring and its commands (R88 to R116).
-/
namespace Sys2Proof.Machine
open Sys2Proof

/-- Whether the table engines run. -/
def State.tablesRun (s : State) : Bool := !s.blockHeld 8 && bit s.clk.running 2

/-- CONTROL of an entry (Table 4-4). -/
def emControl (lock sw copied : Bool) (action : Nat) : Word :=
  BitVec.ofNat 32 (at' 1 31 + at' (b2n lock) 30 + at' (b2n sw) 29 + at' (b2n copied) 28 + action % 131072)

def State.copyQ (s : State) (i : Nat) : List LearnReq := mapGet (fun _ => ([] : List LearnReq)) s.rtbl.copyQ i

def State.setCopyQ (s : State) (i : Nat) (l : List LearnReq) : State :=
  { s with rtbl := { s.rtbl with copyQ := mapSet (fun _ => []) s.rtbl.copyQ i l } }

/-- The other instances serving a slot. -/
def State.otherServing (s : State) (i : Nat) : List Nat := [0, 1, 2, 3, 4].filter (fun j => j != i && (s.cinst j).role.serves)

/-- One copy sent to a destination, or lost at its full queue (R109); true where it is on its way. -/
def State.sendCopy (s : State) (j : Nat) (q : LearnReq) : State × Bool :=
  let n := (s.copyQ j).length
  if 8192 ≤ n then ((s.bump (R.RTBL_COPY_LOST_CNT j)).raise (0x30A + j) noFunc n 0, false)
  else (s.setCopyQ j (s.copyQ j ++ [q]), true)

/-- Copies sent to a list of destinations. -/
def State.sendCopies (s : State) (q : LearnReq) : List Nat → State × Bool
  | [] => (s, true)
  | j :: rest =>
    let (s, a) := s.sendCopy j q
    let (s, b) := s.sendCopies q rest
    (s, a && b)

/-- A change is not copied into some instance: it is counted as a divergence, once, and its other copies forget it (R107). -/
def State.diverged (s : State) (t : Nat) : Option (Nat × Nat) → State
  | none => s
  | some c =>
    let s := s.each [0, 1, 2, 3, 4] (fun s j =>
      s.setCopyQ j ((s.copyQ j).map (fun q => if q.src = some c then { q with src := none } else q)))
    s.bump (R.RTBL_DIVERGE_CNT c.1 t)

/-- An insertion or move an instance made from its own traffic: copied, or counted as a divergence (R107, R108). -/
def State.ownChange (s : State) (i : Nat) (q : LearnReq) : State :=
  if !(s.cinst i).role.serves then s else
  if q.table = 1 ∧ bit (s.rd R.RTBL_STN_COPY) 31 then
    let c := some (i, s.rtbl.changeSeq)
    let s := { s with rtbl := { s.rtbl with changeSeq := s.rtbl.changeSeq + 1 } }
    let (s, all) := s.sendCopies { q with src := c } (s.otherServing i)
    if all then s else s.diverged q.table c
  else s.bump (R.RTBL_DIVERGE_CNT i q.table)

/-- A refused insertion by learning (R102). -/
def State.learnRefused (s : State) (i t : Nat) (e : EmEntry) : State :=
  let b := home t e.key
  ((s.bump (R.RTBL_LEARN_FAIL_CNT i t)).raise (0x300 + i) noFunc b t).lev i 6 t (.slot b 0) e

/-- OVF_HIGH where an insertion went to the overflow store. -/
def State.placed (s : State) (i t : Nat) (l : Loc) : State := if l.isOvf then s.ovfHigh i t else s

/-- One learning request applied (R102). -/
def State.learnOne (s : State) (i : Nat) (q : LearnReq) : State :=
  let r := s.regionOf i
  let t := q.table
  match s.emFind r t q.key with
  | none =>
    let e : EmEntry := ⟨q.key, emControl q.lock false false q.action.toNat, s.ageNow, q.result⟩
    match s.emInsert r t e with
    | (s, .error _) => s.learnRefused i t e
    | (s, .ok l) => (((s.bump (R.RTBL_LEARN_CNT i t)).lev i 0 t l e).placed i t l).ownChange i q
  | some (l, e) =>
    if e.lock then s
    else if t = 1 ∧ e.result ≠ q.result then
      let e' : EmEntry := ⟨q.key, emControl false false false q.action.toNat, s.ageNow, q.result⟩
      (((s.emPut r t l e').bump (R.RTBL_MOVE_CNT i)).lev i 1 t l e').ownChange i { q with lock := false }
    else s.emPut r t l { e with stamp := s.ageNow }

/-- LEARN_APPLY: the table engine of instance `i` applies its oldest learning request (R93, R102, R103). -/
def execLearnApply (i : Fin 5) (s : State) : Res :=
  match s.learnQ i.val with
  | [] => .next s
  | q :: rest => if !s.tablesRun then .next s else .next ((s.setLearnQ i.val rest).learnOne i.val q)

/-- One station copy applied (R108); one the tables have no room for leaves its change not copied (R107). -/
def State.copyOne (s : State) (i : Nat) (q : LearnReq) : State :=
  let r := s.regionOf i
  let t := q.table
  match s.emFind r t q.key with
  | none =>
    let e : EmEntry := ⟨q.key, emControl q.lock false true q.action.toNat, s.ageNow, q.result⟩
    match s.emInsert r t e with
    | (s, .error _) => (s.learnRefused i t e).diverged t q.src
    | (s, .ok l) => ((s.bump (R.RTBL_COPY_IN_CNT i)).lev i 5 t l e).placed i t l
  | some (l, e) =>
    let s := s.bump (R.RTBL_COPY_IN_CNT i)
    if e.lock then s
    else
      let e' : EmEntry := ⟨q.key, emControl false false true q.action.toNat, s.ageNow, q.result⟩
      ((s.emPut r t l e').if_ (e.result != q.result) (fun s => s.bump (R.RTBL_MOVE_CNT i))).lev i 5 t l e'

/-- STATION_COPY_APPLY: the table engine of instance `i` applies its oldest copy (R108, R109). A local request that waits is
applied first where both meet in one cycle: the sender orders the two commands. -/
def execStationCopyApply (i : Fin 5) (s : State) : Res :=
  match s.copyQ i.val with
  | [] => .next s
  | q :: rest => if !s.tablesRun then .next s else .next ((s.setCopyQ i.val rest).copyOne i.val q)

/-- AGE_TICK: RTBL_AGE_NOW advances. -/
def execAgeTick (s : State) : Res :=
  if !s.tablesRun then .next s else .next (s.wr R.RTBL_AGE_NOW ((s.rd R.RTBL_AGE_NOW + 1) &&& 0xFFFF))

/-- LIMIT in force (Table 4-17). -/
def State.ageLimit (s : State) (t : Nat) : Nat :=
  let v := s.rdf (R.RTBL_AGE_LIMIT t) 0 16
  if v = 0 then 1 else min v 60000

/-- Whether the sweeper removes an entry (R105). -/
def State.aged (s : State) (t : Nat) (e : EmEntry) : Bool :=
  e.valid && !e.lock && decide (s.ageLimit t < (s.ageNow - e.stamp).toNat)

/-- An entry removed from an instance's table, with its record, and the promotion that follows it (R95, R110). -/
def State.removeEntry (s : State) (i t kind : Nat) (l : Loc) (e : EmEntry) : State :=
  let (s, up) := s.emRemove (s.regionOf i) t l
  let s := s.lev i kind t l e
  match up with
  | none => s
  | some (l', e') => (s.bump (R.RTBL_PROMOTE_CNT i t)).lev i 4 t l' e'

/-- The sweeper removes one aged entry (R105, R107). -/
def State.sweepOne (s : State) (i t : Nat) (l : Loc) (e : EmEntry) : State :=
  let s := s.removeEntry i t 2 l e
  ((s.bump (R.RTBL_AGED_CNT i t)).if_ (s.cinst i).role.serves (fun s => s.bump (R.RTBL_DIVERGE_CNT i t)))

/-- The sweeper at bucket `b`: its aged overflow entries, then its slots (R105). -/
def State.sweepBucket (s : State) (i t b : Nat) : State :=
  let r := s.regionOf i
  let s := s.each (s.ovfOf r t b) (fun s e => if s.aged t e.2.e then s.sweepOne i t (.ovf e.1) e.2.e else s)
  s.each [0, 1, 2, 3] (fun s k =>
    let e := (s.bucket r t b).slot k
    if s.aged t e then s.sweepOne i t (.slot b k) e else s)

def State.sweepAt (s : State) (k : Nat) : Nat := mapGet (fun _ => 0) s.rtbl.sweep k

/-- SWEEPER_VISIT: the sweeper of instance `i` visits the next bucket of a table (R105). A retired instance has no tables. -/
def execSweeperVisit (i : Fin 5) (tbl : Fin 2) (s : State) : Res :=
  let i := i.val
  let t := tbl.val
  if !s.tablesRun ∨ (s.cinst i).role = .suspect then .next s else
  let b := s.sweepAt (i * 2 + t)
  let s := { s with rtbl := { s.rtbl with
    sweep := mapSet (fun _ => 0) s.rtbl.sweep (i * 2 + t) ((b + 1) % bucketsOf t) } }
  .next (if bit (s.rd (R.RTBL_AGE_LIMIT t)) 31 then s.sweepBucket i t b else s)

/-- What a descriptor of class 0x4 names (Table 4-10). -/
def taTable (d : BitVec 512) : Nat := fld d 192 8
def taMask (d : BitVec 512) : Nat := fld d 200 5
def taStart (d : BitVec 512) : Nat := fld d 224 32
def taCount (d : BitVec 512) : Nat := fld d 256 32

/-- The operations a table takes (Table 4-11): 1 READ_KEY to 5 DELETE. -/
def taOps (t : Nat) : List Nat :=
  if t = 1 ∨ t = 2 then [1, 2, 3, 4, 5]
  else if t = 3 ∨ t = 4 ∨ t = 5 ∨ t = 8 ∨ t = 16 then [2, 4]
  else if t = 6 ∨ t = 7 then [1, 2, 4, 5]
  else if t = 17 ∨ t = 18 ∨ t = 19 then [2]
  else []

/-- Entries of a table, as indices count them (Tables 4-1 and 4-11). -/
def taSize (t : Nat) : Nat := match t with
  | 1 => 16777216 | 2 => 1048576 | 3 => 65536 | 4 => 1024 | 5 => 65536 | 6 => 2097152 | 7 => 1048576 | 8 => 16384
  | 16 => 131072 | 17 => 65536 | 18 => 65536 | 19 => 8192 | _ => 0

/-- Bytes of a record written (Table 4-11). -/
def taWriteLen (t : Nat) : Nat := match t with
  | 1 => 64 | 2 => 64 | 3 => 16 | 4 => 32 | 5 => 32 | 6 => 32 | 7 => 32 | 8 => 136 | 16 => 16 | _ => 64

/-- Bytes of a record read. -/
def taReadLen (t : Nat) : Nat := if t = 8 then 144 else taWriteLen t

/-- Instances a mask names. -/
def maskInsts (m : Nat) : List Nat := [0, 1, 2, 3, 4].filter (fun i => m.testBit i)

/-- Table-access operations naming a replaced instance reach instance 4 (Table 5-3). -/
def State.taInst (s : State) (i : Nat) : Nat := if (s.cinst i).role = .suspect ∧ s.shld.st = .serving then 4 else i

/-- Whether the mask of an operation is in range: not empty, and one bit alone for a read (Tables 4-10 and 4-13); tables 3 to 5
ignore it (Table 4-11), and of table 17 it names a slot. -/
def maskOk (t op m : Nat) : Bool :=
  if t = 3 ∨ t = 4 ∨ t = 5 then true
  else if op = 4 ∨ op = 5 then m != 0
  else (maskInsts m).length == 1 && (t != 17 || decide (m < 16))

/-- Whether START and COUNT are in range. -/
def rangeOk (t op start count : Nat) : Bool :=
  if op = 2 then decide (0 < count) && decide (start + count ≤ taSize t)
  else if op = 3 then decide (0 < count) && decide (start + count ≤ bucketsOf (t - 1))
  else if op = 4 then decide (0 < count) && (t == 1 || t == 2 || t == 6 || t == 7 || decide (start + count ≤ taSize t))
  else true

/-- The completion of a table-access operation, counted: NEXT, records, and what READ_KEY adds (R115). -/
def State.taEnd (s : State) (r no : Nat) (st : Status) (bytes next recs word loc : Nat) : State :=
  (s.bump R.RTBL_TA_OP_CNT).endOp r no st bytes
    (leBytes 4 next ++ leBytes 4 recs ++ leBytes 2 word ++ [0, 0] ++ leBytes 4 loc)

/-- The screening of a table-access operation: its table (TBL_BAD_TABLE), its right (R111), its range (Table 4-13). -/
def State.taScreen (s : State) (k : Ring) (d : BitVec 512) (op : Nat) : Option Status :=
  let t := taTable d
  if op ∉ taOps t then some 0x1020
  else if k.func ≠ s.manager ∧ (op = 4 ∨ op = 5 ∨ !bit (s.inst k.func).alloc.tableGrant t) then some 0x2020
  else if !maskOk t op (taMask d) || !rangeOk t op (taStart d) (taCount d) then some 0x1021
  else none

/-- An operation of class 0x4 runs once it has passed its screening. -/
def State.taRun (s : State) (r no op : Nat) (body : State → Ring → RingOp → State) : State :=
  s.runOp r no (0x4000 + op) (decide (op ≤ 3)) (fun s k o =>
    match s.taScreen k o.desc op with
    | some st =>
      let s := if st = 0x2020 then (s.bump R.RTBL_TA_DENIED_CNT).raise 0x312 k.func r 0x2020 else s
      s.taEnd r no st 0 0 0 0 0
    | none => body s k o)

/-- BUCKET_WORD (Table 4-3). -/
def Bucket.word (b : Bucket) : Nat := at' (b2n b.detour) 15 + b.version.toNat

/-- An exact-match entry in the layout of Table 4-3; `word` is BUCKET_WORD, 0 outside slot 0. -/
def EmEntry.bytes (e : EmEntry) (word : Nat) : Bytes :=
  bvBytes e.key ++ bvBytes e.control ++ bvBytes e.stamp ++ leBytes 2 word ++ bvBytes e.result

def Bucket.slotBytes (b : Bucket) (k : Nat) : Bytes := (b.slot k).bytes (if k = 0 then b.word else 0)

/-- A prefix entry in the layout of Table 4-7. -/
def PfxEntry.bytes (p : PfxEntry) (v6 : Bool) : Bytes :=
  bvBytes p.addr ++ leBytes 1 p.len ++ leBytes 1 (b2n v6) ++ [0, 0] ++ bvBytes p.control ++ bvBytes p.result

/-- A follow entry in the layout of Table 2-6. BYTES_SEEN past its 17 bits, where duplicates add up while TOTAL is unknown, is read
modulo 2^17 (DESIGN CHOICE: R58 does not say). -/
def FollowEntry.bytes (e : FollowEntry) : Bytes :=
  bvBytes e.src ++ bvBytes e.dst ++ bvBytes e.ident ++ bvBytes e.proto ++
  leBytes 1 ((match e.st with | .free => 0 | .holding => 1 | .following => 2) + at' (b2n e.dropVerdict) 2 + at' (b2n e.v6) 3) ++
  leBytes 1 e.held.length ++ [0] ++ bvBytes e.srcL4 ++ bvBytes e.dstL4 ++ leBytes 4 (e.bytesSeen % 131072) ++
  leBytes 4 (e.total % 131072) ++ bvBytes e.time ++ [0, 0, 0, 0]

def State.prefixes (s : State) (t : Nat) : List PfxEntry := if t = 6 then s.rtbl.pfx4 else s.rtbl.pfx6

def State.setPrefixes (s : State) (t : Nat) (l : List PfxEntry) : State :=
  if t = 6 then { s with rtbl := { s.rtbl with pfx4 := l } } else { s with rtbl := { s.rtbl with pfx6 := l } }

/-- The record at an index (Table 4-11). -/
def State.taRecord (s : State) (t i x : Nat) : Bytes :=
  match t with
  | 1 => (s.bucket (s.regionOf i) 0 (x / 4)).slotBytes (x % 4)
  | 2 => (s.bucket (s.regionOf i) 1 (x / 4)).slotBytes (x % 4)
  | 3 => bvBytes (s.tenant x)
  | 4 => bvBytes (s.portEntry x)
  | 5 => bvBytes (s.nexthop x)
  | 6 => match s.rtbl.pfx4[x]? with
    | some p => p.bytes false
    | none => List.replicate 32 0
  | 7 => match s.rtbl.pfx6[x]? with
    | some p => p.bytes true
    | none => List.replicate 32 0
  | 8 => (s.tcamAt x).bytes ++ bvBytes (s.tcamHitCnt i x)
  | 16 => bvBytes (s.actionAt x)
  | 17 => (s.follow (i * 65536 + x)).bytes
  | 18 => (s.ovf (s.regionOf i) 0 x).e.bytes 0
  | 19 => (s.ovf (s.regionOf i) 1 x).e.bytes 0
  | _ => []

/-- The one instance or slot a read names. -/
def State.readInst (s : State) (t m : Nat) : Nat :=
  let i := (maskInsts m).headD 0
  if t = 17 then i else s.taInst i

/-- The records of a read are written at address A, and it completes, with the write's own status and the bytes sent where the
write fails (R230). -/
def State.taGive (s : State) (k : Ring) (r : Nat) (o : RingOp) (st : Status) (data : Bytes) (next n word loc : Nat) : State :=
  let (s, sent, bad) := s.hostPut k.func (s.ringPasid k) (BitVec.ofNat 64 (descA o.desc)) data
  s.taEnd r o.no (bad.getD st) sent next n word loc

/-- READ_INDEX (R115). -/
def execTaReadIndex (ring : BitVec 20) (no : Nat) (s : State) : Res :=
  let r := ring.toNat
  .next (s.taRun r no 2 (fun s k o =>
    let d := o.desc
    let t := taTable d
    let n := min (taCount d) (descLen d / taReadLen t)
    let i := s.readInst t (taMask d)
    let data := (List.range n).flatMap (fun x => s.taRecord t i (taStart d + x))
    s.taGive k r o (if n < taCount d then 3 else 0) data (taStart d + n) n 0 0))

/-- A DUMP record (Table 4-12). -/
def State.dumpRecord (s : State) (i t b : Nat) : Bytes :=
  let r := s.regionOf i
  let k := s.bucket r t b
  let o := s.ovfOf r t b
  leBytes 4 b ++ leBytes 2 k.word ++ leBytes 1 o.length ++ leBytes 1 i ++ bvBytes s.now ++
  [0, 1, 2, 3].flatMap (fun x => k.slotBytes x) ++ o.flatMap (fun e => e.2.e.bytes 0)

/-- Dump records that fit in `room` bytes, and how many. -/
def State.dumpFit (s : State) (i t : Nat) : Nat → Nat → Nat → Bytes × Nat
  | 0, _, _ => ([], 0)
  | n + 1, b, room =>
    let x := s.dumpRecord i t b
    if room < x.length then ([], 0)
    else
      let (rest, m) := s.dumpFit i t n (b + 1) (room - x.length)
      (x ++ rest, m + 1)

/-- DUMP (R114, R115). -/
def execTaDump (ring : BitVec 20) (no : Nat) (s : State) : Res :=
  let r := ring.toNat
  .next (s.taRun r no 3 (fun s k o =>
    let d := o.desc
    let i := s.readInst (taTable d) (taMask d)
    let (data, n) := s.dumpFit i (taTable d - 1) (taCount d) (taStart d) (descLen d)
    s.taGive k r o (if n < taCount d then 3 else 0) data (taStart d + n) n 0 0))

/-- The key of an exact-match record: 40 bytes for flow, 8 for station. -/
def taKey (t : Nat) (b : Bytes) : BitVec 320 := BitVec.ofNat 320 (leNat (b.take (keyLen (t - 1))))

/-- A prefix record read from memory (Table 4-7), its reserved bits 0. -/
def pfxOf (b : Bytes) : PfxEntry :=
  ⟨bytesBv 128 (slice b 0 16), leAt b 16 1, BitVec.ofNat 32 (leAt b 20 4) &&& 0x8001FFFF, bytesBv 64 (slice b 24 8)⟩

def pfxWidth (t : Nat) : Nat := if t = 6 then 32 else 128

/-- Whether LEN and ADDR of a prefix record are in range (R99). -/
def PfxEntry.ok (p : PfxEntry) (t : Nat) : Bool :=
  decide (p.len ≤ pfxWidth t) && decide (p.addr.toNat < 2 ^ pfxWidth t) && p.addr.toNat % 2 ^ (pfxWidth t - p.len) == 0

/-- Whether two records name the same prefix. -/
def PfxEntry.same (p q : PfxEntry) : Bool := p.addr == q.addr && p.len == q.len

/-- The order of READ_INDEX: ADDR, then LEN. -/
def PfxEntry.before (p q : PfxEntry) : Bool := decide (p.addr.toNat < q.addr.toNat) || (p.addr == q.addr && decide (p.len < q.len))

/-- A prefix put in its place. -/
def pfxInsert (p : PfxEntry) : List PfxEntry → List PfxEntry
  | [] => [p]
  | q :: rest => if p.before q then p :: q :: rest else q :: pfxInsert p rest

/-- READ_KEY (R115), with the key read from address B. -/
def execTaReadKey (ring : BitVec 20) (no : Nat) (s : State) : Res :=
  let r := ring.toNat
  .next (s.taRun r no 1 (fun s k o =>
    let d := o.desc
    let t := taTable d
    let give := fun (s : State) (rec : Option Bytes) (word loc : Nat) =>
      match rec with
      | none => s.taEnd r no 2 0 0 0 word loc
      | some b =>
        if descLen d < b.length then s.taEnd r no 3 0 0 0 word loc
        else s.taGive k r o 0 b 0 1 word loc
    if t = 6 ∨ t = 7 then
      let p := pfxOf (padTo 32 o.data)
      if !p.ok t then s.taEnd r no 0x1021 0 0 0 0 0
      else give s (((s.prefixes t).find? (fun q => q.same p)).map (fun q => q.bytes (t == 7))) 0 0
    else
      let i := s.readInst t (taMask d)
      let key := taKey t o.data
      let b := s.bucket (s.regionOf i) (t - 1) (home (t - 1) key)
      match s.emFind (s.regionOf i) (t - 1) key with
      | none => give s none b.word 0
      | some (l, e) =>
        let word := match l with
          | .slot _ 0 => b.word
          | _ => 0
        give s (some (e.bytes word)) b.word l.code))

/-- An exact-match entry deleted by software (R113). -/
def State.taRemove (s : State) (t i : Nat) (key : BitVec 320) : State × Status :=
  match s.emFind (s.regionOf i) t key with
  | none => (s, 2)
  | some (l, e) => (s.removeEntry i t 3 l e, 0)

/-- An exact-match entry written by software (R113). -/
def State.taPut (s : State) (t i : Nat) (b : Bytes) : State × Status :=
  let key := taKey (t + 1) b
  let c := BitVec.ofNat 32 (leAt b 40 4)
  if !bit c 31 then s.taRemove t i key else
  let e : EmEntry := ⟨key, emControl (bit c 30) true false (fld c 0 17), s.ageNow, bytesBv 128 (slice b 48 16)⟩
  let r := s.regionOf i
  match s.emFind r t key with
  | some (l, _) => ((s.emPut r t l e).lev i 3 t l e, 1)
  | none =>
    match s.emInsert r t e with
    | (s, .ok l) => ((s.lev i 3 t l e).placed i t l, 0)
    | (s, .error .full) => (s, 0x3020)
    | (s, .error .limit) => (s, 0x3021)

/-- A prefix removed. -/
def State.pfxRemove (s : State) (t : Nat) (p : PfxEntry) : State × Status :=
  let l := s.prefixes t
  if l.any (fun q => q.same p) then ((s.setPrefixes t (l.filter (fun q => !q.same p))).bump R.RTBL_PFX_UPD_CNT, 0) else (s, 2)

/-- A prefix written (R99). -/
def State.pfxPut (s : State) (t : Nat) (p : PfxEntry) : State × Status :=
  if !bit p.control 31 then s.pfxRemove t p else
  let l := s.prefixes t
  if l.any (fun q => q.same p) then
    ((s.setPrefixes t (l.map (fun q => if q.same p then p else q))).bump R.RTBL_PFX_UPD_CNT, 1)
  else if taSize t ≤ l.length then (s.raise 0x311 noFunc l.length (t - 6), 0x3022)
  else ((s.setPrefixes t (pfxInsert p l)).bump R.RTBL_PFX_UPD_CNT, 0)

/-- A direct-indexed entry written into all five instances, its reserved bits 0 (R96, Table 4-5). -/
def State.directPut (s : State) (t x : Nat) (b : Bytes) : State × Status :=
  let s := s.tableWrite
  if t = 3 then
    let v := bytesBv 128 b &&& 0xFFFFFFFFFFFFFFFFFFFFFFFF8001FFFF
    ({ s with rtbl := { s.rtbl with tenant := mapSet (fun _ => 0) s.rtbl.tenant x v } }, cond (bit (s.tenant x) 31) 1 0)
  else if t = 4 then
    let v := setFld (bytesBv 256 b) 17 14 0
    ({ s with rtbl := { s.rtbl with port := mapSet (fun _ => 0) s.rtbl.port x v } }, cond (bit (s.portEntry x) 31) 1 0)
  else
    let v := setFld (setFld (setFld (setFld (bytesBv 256 b) 145 14 0) 120 8 0) 113 7 0) 108 2 0
    ({ s with rtbl := { s.rtbl with nexthop := mapSet (fun _ => 0) s.rtbl.nexthop x v } }, cond (bit (s.nexthop x) 159) 1 0)

/-- One record written: to each instance named, or to all five (Table 4-11). The first instance named that refuses it ends the
write, and the greatest of the instances' statuses is its status (DESIGN CHOICE: R113 speaks of one table). -/
def State.taWriteOne (s : State) (t x : Nat) (insts : List Nat) (b : Bytes) : State × Status :=
  if t = 1 ∨ t = 2 then
    insts.foldl (fun (a : State × Status) i =>
      if 0x1000 ≤ a.2.toNat then a else
      let (s, st) := a.1.taPut (t - 1) i b
      (s, if st.toNat < a.2.toNat then a.2 else st)) (s, 0)
  else if t = 6 ∨ t = 7 then s.pfxPut t (pfxOf b)
  else if t = 8 then
    let old := s.tcamAt x
    let (s, ok) := s.tcamWrite x (TcamEntry.ofBytes b)
    (s, if !ok then 0x2021 else cond (old.inGen 0 || old.inGen 1) 1 0)
  else if t = 16 then
    let old := s.actionAt x
    let s := s.tableWrite
    ({ s with cway := { s.cway with action := mapSet (fun _ => 0) s.cway.action x (bytesBv 128 b) } }, cond (old == 0) 0 1)
  else s.directPut t x b

/-- Records written in order until one is refused: the status, and how many were written. Those before a refused one stay written,
and NEXT is its index (DESIGN CHOICE: R113 does not say). -/
def State.taWriteAll (s : State) (t : Nat) (insts : List Nat) : Nat → Nat → Bytes → Status → Nat → State × Status × Nat
  | 0, _, _, st, done => (s, st, done)
  | n + 1, x, b, st, done =>
    let (s, one) := s.taWriteOne t x insts (padTo (taWriteLen t) b)
    if 0x1000 ≤ one.toNat then (s, one, done)
    else s.taWriteAll t insts n (x + 1) (b.drop (taWriteLen t)) (if st.toNat < one.toNat then one else st) (done + 1)

/-- WRITE (R99, R112, R113), with the records read from address A. -/
def execTaWrite (ring : BitVec 20) (no : Nat) (s : State) : Res :=
  let r := ring.toNat
  .next (s.taRun r no 4 (fun s _ o =>
    let d := o.desc
    let t := taTable d
    let n := taCount d
    let len := n * taWriteLen t
    let recs := padTo len o.data
    if descLen d < len ∨ ((t = 6 ∨ t = 7) ∧
        (List.range n).any (fun k => !(pfxOf (slice recs (k * 32) 32)).ok t)) then s.taEnd r no 0x1021 0 0 0 0 0
    else
      let (s, st, done) := s.taWriteAll t ((maskInsts (taMask d)).map s.taInst).eraseDups n (taStart d) recs 0 0
      s.taEnd r no st len (taStart d + done) done 0 0))

/-- DELETE (R113), with the key read from address B. It is OK where any instance named held the key (DESIGN CHOICE: R113 speaks of
one table). -/
def execTaDelete (ring : BitVec 20) (no : Nat) (s : State) : Res :=
  let r := ring.toNat
  .next (s.taRun r no 5 (fun s _ o =>
    let d := o.desc
    let t := taTable d
    let (s, n) :=
      if t = 6 ∨ t = 7 then
        let (s, st) := s.pfxRemove t (pfxOf (padTo 32 o.data))
        (s, cond (st == 0) 1 0)
      else ((maskInsts (taMask d)).map s.taInst).eraseDups.foldl (fun (a : State × Nat) i =>
        let (s, st) := a.1.taRemove (t - 1) i (taKey t o.data)
        (s, a.2 + cond (st == 0) 1 0)) (s, 0)
    s.taEnd r no (if n = 0 then 2 else 0) 0 0 n 0 0))

/-- The bits of a TABLE_CFG image word that may be 1 (Tables 4-15 to 4-19). -/
def tableImageMask (o : Nat) : Nat :=
  if o = 0 then 0xFFFF
  else if o = 8 ∨ o = 12 then 0x8000FFFF
  else if o = 16 ∨ o = 20 then 0x8001FFFF
  else if o = 24 then 0x80000000
  else if o = 32 ∨ o = 36 then 0x1FFFF
  else 0

/-- TABLE_CFG (code 0x35): the image of RTBL offsets 0x00 to 0x27 applies whole (Table 12-12). -/
def execTableCfg (ch : BitVec 13) (seq : BitVec 4) (s : State) : Res :=
  .next (s.gcs ch seq 0x35 (fun s c =>
    let word := fun o => leAt c.args o 4
    let offs := (List.range 10).map (· * 4)
    if c.args.length < 40 ∨ offs.any (fun o => word o &&& (0xFFFFFFFF ^^^ tableImageMask o) != 0) then (s, .badArg)
    else (s.each (offs.filter (fun o => tableImageMask o != 0)) (fun s o =>
      s.wr (R.RTBL_AGE_TICK + o) (BitVec.ofNat 64 (word o))), .ok 0)))

end Sys2Proof.Machine
end

