-- ==== Sys2Proof/Machine/Rings.lean ====
section
/-!
DEFINITION. Machine/Rings.lean: doorbells, index reads, descriptors, transmit and receive operations, and the Ring Manager's
window (R294 to R323).
-/
namespace Sys2Proof.Machine
open Sys2Proof

/-- Whether ring ID `r` lies in the allocation of function `f`. -/
def State.ownsRing (s : State) (f r : Nat) : Bool :=
  let i := s.inst f
  i.st != .absent && decide (i.alloc.ringBase ≤ r) && decide (r < i.alloc.ringBase + i.alloc.ringCount)

/-- The index read of a ring is sent: bytes 0 to 15 of its index block; the HINT that waits is the one it is compared with (R304).
Where the function makes no requests now, the ring is marked instead. -/
def State.readIndex (s : State) (r : Nat) : State :=
  let k := s.ring r
  match s.hostStop k.func with
  | some _ => s.setRing r { k with marked := true, idx := .none }
  | none => (s.setRing r { k with
      idx := .sent, sentHint := if k.hinted then some k.hint else none, hinted := false }).sendRead
      ⟨k.func, s.ringPasid k, .indexRead r, BitVec.ofNat 64 (ctxIndexAddr k.ctx), 16⟩

/-- The index read of a ring is asked for: it waits where no context can be placed (R304, R321). -/
def State.askIndex (s : State) (r : Nat) : State :=
  match s.useCtx r with
  | (s, true) => s.readIndex r
  | (s, false) =>
    let k := s.ring r
    let s := { s.setRing r { k with idx := .asked } with rings := { (s.setRing r { k with idx := .asked }).rings with
      waiting := s.rings.waiting ++ [(r, k.hint)] } }
    (s.bump R.RING_CTX_WAIT_CNT).raise 0x105 k.func r 0

/-- The first doorbell that waits for a context is served where one has become unpinned (R321). -/
def State.ctxPump (s : State) : State :=
  match s.rings.waiting with
  | [] => s
  | (r, _) :: rest =>
    match s.useCtx r with
    | (_, false) => s
    | (s, true) =>
      let s := { s with rings := { s.rings with waiting := rest } }
      if (s.ring r).idx = .asked then s.readIndex r else s

/-- A doorbell that R302 discards. -/
def State.dbBad (s : State) (f r code : Nat) : State := (s.bump R.RING_DB_BAD_CNT).raise 0x104 f r code

/-- A doorbell accepted for ring `r`: it starts an index read, merges into one not yet sent, or asks for one further read
(R304, R305). -/
def State.dbAccept (s : State) (r : Nat) : State :=
  let k := s.ring r
  let s := (s.bump R.RING_DB_CNT).setRing r { k with doorbells := k.doorbells + 1, lastDb := s.now, hinted := true }
  match k.idx with
  | .none => s.askIndex r
  | .sent =>
    if s.hiu.waitRead.any (fun q => q.owner == .indexRead r) then
      (s.bump R.RING_DB_MERGED_CNT).updRing r (fun k => { k with sentHint := some k.hint, hinted := false })
    else s.updRing r (fun k => { k with idx := .sentMore })
  | .asked | .sentMore => s.bump R.RING_DB_MERGED_CNT

/-- A doorbell word of function `f` (R256, R261, R265, R302). -/
def State.doorbell (s : State) (f : Nat) (v : DWord) : State :=
  let r := fld v 0 20
  let k := s.ring r
  if (s.inst f).st = .absent then s.bump R.FNM_FOREIGN_DB_CNT
  else if v &&& 0xFFFF0000FFF00000 ≠ 0 then s.dbBad f r 0
  else if !s.ownsRing f r then (s.bump R.FNM_FOREIGN_DB_CNT).raise 0x045 f r 0
  else if k.st = .absent then s.dbBad f r 1
  else if k.st = .bmLost ∨ k.st = .destroying ∨ k.st = .frozen then s.dbBad f r 2
  else
    let s := s.setRing r { k with hint := BitVec.ofNat 16 (fld v 32 16) }
    if ctxType k.ctx < 2 ∧ (k.st = .held ∨ (s.inst f).st ≠ .active) then
      (s.updRing r (fun k => { k with marked := true })).updFn f (fun h => { h with dbHeld := h.dbHeld + 1 })
    else s.dbAccept r

/-- DOORBELL: an aligned 64-bit write to the doorbell page of function `f`. -/
def execDoorbell (f : Fin 4104) (v : DWord) (s : State) : Res :=
  .next (s.barWrite f.val (fun s => (s.doorbell f.val v).ctxPump))

/-- The index read has returned `idx`: accepted, or invalid and ignored (R300, R304); the backlog drains into the room a
consumer has made (R318). A further read owed is sent. -/
def State.indexArrived (s : State) (r idx : Nat) : State :=
  let k := s.ring r
  let prod := decide (ctxType k.ctx < 2)
  let bad := decide (k.size < (if prod then idx + 65536 - k.c.toNat else k.p.toNat + 65536 - idx) % 65536)
  let s := s.if_ (k.sentHint.any (fun h => h.toNat != idx)) (fun s => s.bump R.RING_HINT_MISMATCH_CNT)
  let more := k.idx == .sentMore
  let k := { k with idx := .none, sentHint := none }
  let s :=
    if bad then
      ((s.setRing r { k with indexBad := k.indexBad + 1 }).bump R.RING_INDEX_BAD_CNT).raise 0x103 k.func r idx
    else if prod then s.setRing r { k with p := BitVec.ofNat 16 idx }
    else (s.setRing r { k with c := BitVec.ofNat 16 idx }).drainBacklog r
  if more then s.askIndex r else s

/-- The index read has failed: the ring keeps the index it last accepted; a further read owed is sent (R299). -/
def State.indexFailed (s : State) (r : Nat) : State :=
  let k := s.ring r
  let s := s.setRing r { k with idx := .none, sentHint := none }
  if k.idx = .sentMore ∧ k.st ≠ .bmLost ∧ k.st ≠ .frozen then s.askIndex r else s

/-- The class and operation of a descriptor. -/
def descClass (d : BitVec 512) : Nat := descOp d / 4096
def descCode (d : BitVec 512) : Nat := descOp d % 4096

/-- The class a ring accepts beside NOP (R294, Table 13-2). -/
def Ring.accepts (k : Ring) (c : Nat) : Bool := c == 0 || c == (if ctxType k.ctx = 0 then ctxClass k.ctx else 2)

/-- Whether a class has an operation. -/
def opUsed (c o : Nat) : Bool := match c with
  | 0 => o == 0
  | 1 => o == 1 || o == 2
  | 2 => o == 1
  | 3 => (decide (1 ≤ o) && decide (o ≤ 7)) || o == 0x10 || o == 0x11
  | 4 => decide (1 ≤ o) && decide (o ≤ 5)
  | 5 => (decide (1 ≤ o) && decide (o ≤ 4)) || o == 0x10 || o == 0x11
  | _ => false

/-- Whether LENGTH lies within the operation's limits; FRAMES of SEND_PACKED, 1 to 64, with it (DEDUCED, Table 13-9). -/
def lengthOk (d : BitVec 512) : Bool :=
  let n := descLen d
  let within := fun (lo hi : Nat) => decide (lo ≤ n) && decide (n ≤ hi)
  match descClass d, descCode d with
  | 1, 1 => within 60 9600
  | 1, _ => within 64 65536 && decide (1 ≤ fld d 192 16) && decide (fld d 192 16 ≤ 64)
  | 2, _ => within 64 65536
  | 3, 5 => within 1 16777215
  | 3, 6 | 3, 7 => n == 8
  | 3, 0x10 | 3, 0x11 => n == 0
  | 5, 0x10 | 5, 0x11 => within 1 16777215
  | 5, _ => within 1 4194304
  | _, _ => true

/-- The bits of bytes 24 to 63 that an operation defines (Tables 4-10, 13-9, 14-7, 16-6). -/
def opBits (c o : Nat) : BitVec 320 := match c with
  | 1 => if o = 2 then 0x1FFFF else 0x10000
  | 3 =>
    let rkey : BitVec 320 := if o ∈ [3, 4, 5, 6, 7, 0x11] then 0xFFFFFFFF else 0
    let imm : BitVec 320 := if o = 2 ∨ o = 4 then 0xFFFFFFFF <<< 32 else 0
    let op1 : BitVec 320 := if o ∈ [6, 7, 0x10] then 0xFFFFFFFFFFFFFFFF <<< 64 else 0
    let op2 : BitVec 320 := if o = 6 then 0xFFFFFFFFFFFFFFFF <<< 128 else if o = 0x10 then 0xFFFFFFFF00000007 <<< 128 else 0
    rkey ||| imm ||| op1 ||| op2 ||| (1 <<< 192)
  | 4 => 0xFFFFFFFFFFFFFFFF00001FFF
  | 5 => if 0x10 ≤ o then 0xFFFFFFFF <<< 64 else 0x1FFFFFFFFFFFF
  | _ => 0

/-- Whether the operation names address B. -/
def namesB (c o : Nat) : Bool := match c with
  | 3 => decide (o ∈ [3, 4, 5, 6, 7])
  | 4 => o == 1 || o == 5
  | 5 => decide (o < 0x10)
  | _ => false

/-- The values a field of bytes 24 to 63 may hold where Table 16-6 lists them: DEST_LEN, LEVEL, FORMAT. -/
def opValues (d : BitVec 512) : Bool :=
  let c := descClass d
  let o := descCode d
  if c = 5 ∧ o < 0x10 then
    decide (1 ≤ fld d 192 32) && decide (fld d 192 32 ≤ 16777216) && decide (fld d 224 8 ≤ 9) &&
      decide (fld d 232 8 ≤ (if o ≤ 2 then 2 else 0))
  else true

/-- Whether a reserved field of a descriptor is set (R20, Tables 13-7 and 13-8). -/
def reservedSet (d : BitVec 512) : Bool :=
  let c := descClass d
  let o := descCode d
  fld d 56 4 != 0 || (c != 1 && (bit d 60 || bit d 62)) || (!namesB c o && descB d != 0) ||
  (c == 3 && o == 0x11 && descA d != 0) || (BitVec.ofNat 320 (fld d 192 320) &&& ~~~opBits c o) != 0 || !opValues d

/-- The checks of R306 in their order: the status of the first that fails. -/
def Ring.check (k : Ring) (d : BitVec 512) : Option Status :=
  let c := descClass d
  let o := descCode d
  if 5 < c ∨ !k.accepts c then some 0x1090
  else if !opUsed c o then some 0x1091
  else if !lengthOk d then some 0x1092
  else if reservedSet d then some 0x1093
  else if k.ops.any (fun x => descTag x.desc == descTag d) || (k.buffers ++ k.lent).any (fun b => descTag b == descTag d) then
    some 0x1095
  else none

/-- The shared-store places that completion ring `q` has reserved or holds: no more than there are completions to come or waiting
(R317). -/
def State.places (s : State) (q : Nat) : Nat :=
  let k := s.ring q
  min (max k.reserved k.backlog.length) (s.cqOut q + k.backlog.length)

/-- RING_BACKLOG_USED. -/
def State.backlogUsed (s : State) : Nat :=
  ((s.rings.ring.filter (fun e => e.2.st != .absent && ctxType e.2.ctx == 2)).map (fun e => s.places e.1)).sum

/-- Whether a descriptor of a ring bound to `q` may be fetched (R317, R318). -/
def State.cqTakes (s : State) (q : Nat) : Bool :=
  let k := s.ring q
  let n := s.cqOut q
  k.st != .absent && k.backlog.isEmpty && decide (n < k.free + 256) &&
    (decide (n < k.free) || decide (s.backlogUsed < 262144))

/-- The queue pair a ring serves, as submission or receive ring. -/
def State.qpOfSq (s : State) (r : Nat) : Option (Nat × Qp) :=
  s.rte.qp.find? (fun e => e.2.st != .absent && e.2.sqRing == r)

def State.qpOfRq (s : State) (r : Nat) : Option (Nat × Qp) :=
  s.rte.qp.find? (fun e => e.2.st != .absent && e.2.rq == some r)

/-- Whether a queue pair lets its ring fetch this descriptor (Table 14-2, R334); a ring of no queue pair fetches unless its
class is remote memory access. -/
def State.qpFetches (s : State) (r : Nat) (k : Ring) (d : BitVec 512) : Bool :=
  if ctxType k.ctx = 0 then
    if ctxClass k.ctx ≠ 3 then true else
    match s.qpOfSq r with
    | none => false
    | some (_, q) =>
      let fetching := fun (x : BitVec 512) => descClass x == 3 && decide (descCode x ∈ [5, 6, 7])
      q.st == .error || (q.st == .rts && !(fetching d && decide (128 ≤ (k.ops.filter (fun o => fetching o.desc)).length)))
  else match s.qpOfRq r with
    | none => true
    | some (_, q) => q.st == .rtr || q.st == .rts || q.st == .error

/-- Whether ring `r` has work that it may fetch: ACTIVE, as its instance is, with an unconsumed descriptor, room for its
completion, on a receive ring for one more buffer, and, as one of a queue pair, in a state of it that fetches (R296, R311, R317,
R322). -/
def State.hasWork (s : State) (r : Nat) : Bool :=
  let k := s.ring r
  k.st == .active && (s.inst k.func).st == .active && decide (ctxType k.ctx < 2) && decide (0 < k.fill) &&
    (s.hostStop k.func).isNone && (ctxType k.ctx == 0 || decide (k.outstanding < 64)) && s.cqTakes (ctxCq k.ctx) &&
    s.qpFetches r k 0

/-- Whether ring `r` fetches descriptor `d` now. -/
def State.fetches (s : State) (r : Nat) (d : BitVec 512) : Bool := s.hasWork r && s.qpFetches r (s.ring r) d

/-- The ring whose turn to fetch it is and how many descriptors it may yet fetch in it (R322): deficit round robin in
descriptors over the rings with work. The order of the turns, by ring ID, is DESIGN CHOICE (log entry 103). -/
def State.fetchTurn (s : State) : Option (Nat × Nat) :=
  let work := (s.rings.ring.map (fun e => e.1)).filter (fun r => s.hasWork r)
  let at_ := s.rings.drrAt
  if 0 < s.rings.drrLeft ∧ at_ ∈ work then some (at_, s.rings.drrLeft)
  else match (work.find? (fun r => decide (at_ < r))).or work.head? with
    | some r => some (r, max 1 (ctxWeight (s.ring r).ctx))
    | none => none

/-- What an operation reads from host memory before it runs: address and bytes. A table-access operation that its screening
stops reads nothing. -/
def State.opRead (s : State) (k : Ring) (d : BitVec 512) : Option (Nat × Nat) :=
  let o := descCode d
  match descClass d with
  | 1 => some (descA d, descLen d)
  | 3 => if o ≤ 4 ∧ 0 < descLen d then some (descA d, descLen d) else none
  | 4 =>
    let t := taTable d
    if (s.taScreen k d o).isSome then none
    else if o = 1 ∨ o = 5 then some (descB d, if t = 6 ∨ t = 7 then 32 else keyLen (t - 1))
    else if o = 4 ∧ taCount d * taWriteLen t ≤ descLen d ∧ 0 < taCount d then some (descA d, taCount d * taWriteLen t)
    else none
  | 5 => some (descA d, descLen d)
  | _ => none

/-- The device's C written after a fetch (R298, R301). -/
def State.writeC (s : State) (r : Nat) : State :=
  let k := s.ring r
  s.hostWrite k.func (s.ringPasid k) (BitVec.ofNat 64 (ctxIndexAddr k.ctx + 8)) (leBytes 8 k.c.toNat) false

/-- A descriptor that runs nothing ends with status `st` at its fetch; on the submission ring of a queue pair it completes in
ring order, as an operation that has its verdict (R335). -/
def State.endAtFetch (s : State) (r : Nat) (d : BitVec 512) (st : Status) : State :=
  let k := s.ring r
  if ctxType k.ctx = 0 ∧ ctxClass k.ctx = 3 then
    s.setRing r { k with
      ops := k.ops ++ [{ RingOp.fresh k.nextOp d with verdict := some st }], nextOp := k.nextOp + 1 }
  else s.endFetched r d st

/-- A fetched descriptor: an abort mark for its tag comes first, then the checks, then the operation is outstanding and its
data is read, with FENCE once those before it have completed (R306, R307, R319). -/
def State.fetched (s : State) (r : Nat) (d : BitVec 512) : State :=
  let k := s.ring r
  let tag := BitVec.ofNat 16 (descTag d)
  if tag ∈ k.abortTags then
    (s.setRing r { k with abortTags := k.abortTags.filter (· ≠ tag) }).endAtFetch r d 0x5090
  else match k.check d with
    | some st =>
      (((s.setRing r { k with malformed := k.malformed + 1 }).bump R.RING_MALFORMED_CNT).endAtFetch r d st).raise
        0x102 k.func r st.toNat
    | none =>
      let rd := s.opRead k d
      let o := { RingOp.fresh k.nextOp d with reading := rd.isSome, due := if descFence d then rd else none }
      let s := s.setRing r { k with ops := k.ops ++ [o], nextOp := k.nextOp + 1 }
      match rd with
      | none => s
      | some (a, n) => if descFence d then s.fencePump r else s.readData r k.nextOp a n

/-- One descriptor is fetched: a place is reserved for its completion where the ring might have no room for it, and the device
has its own copy (R301, R317). -/
def State.fetchOne (s : State) (r : Nat) (d : BitVec 512) : State :=
  let q := ctxCq (s.ring r).ctx
  let s := s.if_ (decide ((s.ring q).free ≤ s.cqOut q)) (fun s => s.updRing q (fun k => { k with reserved := k.reserved + 1 }))
  ((s.bump R.RING_DESC_CNT).updRing r (fun k => { k with c := k.c + 1, entries := k.entries + 1 })).fetched r d

/-- The descriptors that one fetch of ring `r` has read are taken in turn, as far as the ring may take them; how many it took. -/
def State.fetchAll (r : Nat) : List (BitVec 512) → State → State × Nat
  | [], s => (s, 0)
  | d :: rest, s =>
    if !s.fetches r d then (s, 0) else
    let (s, n) := State.fetchAll r rest (s.fetchOne r d)
    (s, n + 1)

/-- COALESCE_TIMEOUT: COAL_US after the first entry not yet notified (R316). -/
def execCoalesceTimeout (ring : BitVec 20) (s : State) : Res :=
  let q := ring.toNat
  let k := s.ring q
  .next (if 0 < k.unnotified ∧ bit k.ctx 50 ∧ k.st ≠ .absent then s.notify q else s)

/-- The parse unit of the host port of function `f` (Table 2-1). -/
def State.hostUnit (s : State) (f : Nat) : Nat := 2 + s.fnLink f / 2

/-- One frame of a transmit operation enters the host port's parse unit (R308). -/
def State.sendFrame (s : State) (k : Ring) (r : Nat) (o : RingOp) (f : Bytes) : State :=
  let d := o.desc
  let (s, p) := s.newPkt f (1 + s.fnLink k.func / 2) (s.inst k.func).alloc.portId k.func
  let p := { p with
    origin := if descTerminal d then some (r, o.no) else none
    tsReq := if descTs d then (if bit d 208 then 2 else 1) else 0 }
  (s.takeCells p.cells).toUnit (s.hostUnit k.func) p

/-- The frames of a transmit operation are sent once cells outside the ingress reserve are free for them (R308, R392). A
function without a port ID is not admitted; the completion's status has class 0x2, its other bits left open (R97). -/
def State.sendFrames (s : State) (k : Ring) (r : Nat) (o : RingOp) (fs : List Bytes) : State :=
  if (s.inst k.func).alloc.portId = 0 then
    s.drew.endOp r o.no (BitVec.ofNat 16 (at' 2 12 + fld s.fresh 0 12)) 0 o.txBytes
  else if s.cellsFor false < (fs.map (fun f => ceilDiv f.length 256)).sum then s
  else
    let o := { o with started := true, frames := fs.length, framesLeft := fs.length, bytesDone := descLen o.desc }
    let s := s.updRing r (fun k => k.updOp o.no (fun _ => o))
    let s := s.each fs (fun s f => s.sendFrame k r o f)
    if descTerminal o.desc then s else s.endTx r o

/-- SEND. -/
def execSend (ring : BitVec 20) (no : Nat) (s : State) : Res :=
  let r := ring.toNat
  .next (s.runOp r no 0x1001 false (fun s k o => s.sendFrames k r o [padTo (descLen o.desc) o.data]))

/-- The records of a packed buffer (R308): the frames, or the status of the first fault: a record that overruns, a count that
differs, or a reserved bit of a record header. -/
def unpack : Nat → Bytes → Except Status (List Bytes)
  | 0, b => if b.isEmpty then .ok [] else .error 0x1092
  | n + 1, b =>
    let h := leAt b 0 4
    let len := h % 16384
    if b.length < 4 ∨ len < 60 ∨ 9600 < len ∨ b.length < 4 + len then .error 0x1092
    else if 16384 ≤ h then .error 0x1093
    else match unpack n (b.drop ((4 + len + 7) / 8 * 8)) with
      | .ok l => .ok (slice b 4 len :: l)
      | .error e => .error e

/-- SEND_PACKED. -/
def execSendPacked (ring : BitVec 20) (no : Nat) (s : State) : Res :=
  let r := ring.toNat
  .next (s.runOp r no 0x1002 false (fun s k o =>
    match unpack (fld o.desc 192 16) (padTo (descLen o.desc) o.data) with
    | .error st => s.endOp r o.no st 0 o.txBytes
    | .ok fs => s.sendFrames k r o fs))

/-- Bytes 16 to 31 of a receive completion (Table 13-11). -/
def rxBytes (k : Ring) (p : Pkt) (cut : Bool) : Bytes :=
  let ts := bit k.ctx 49 && spGet p.sp SP.ORIGIN == 0
  bvBytes (cond ts p.entered 0) ++ leBytes 2 (spGet p.sp SP.SRC_PORT) ++ leBytes 2 (spGet p.sp SP.LANE_HASH) ++
  leBytes 2 (spGet p.sp SP.PKT_LEN) ++
  leBytes 1 (spGet p.sp SP.MAL_CLASS + at' (spGet p.sp SP.MAL) 4 + at' (b2n ts) 5 + at' (b2n cut) 6) ++
  leBytes 1 (spGet p.sp SP.L4_TYPE)

/-- The delivery entry of a leaf queue (R311). -/
def State.deliverEntry (s : State) (l : Nat) : Word := mapGet (fun _ => 0) s.rings.deliver l

def State.setDeliver (s : State) (l : Nat) (v : Word) : State :=
  { s with rings := { s.rings with deliver := mapSet (fun _ => 0) s.rings.deliver l v } }

/-- The receive ring of a host-bound packet (R311). -/
def State.rxRing (s : State) (p : Pkt) : Option Nat :=
  let e := s.deliverEntry (spGet p.sp SP.LEAF_QUEUE)
  if bit e 31 then some (fld e 0 20 + spGet p.sp SP.LANE_HASH % 2 ^ fld e 24 3) else none

/-- A packet dropped for want of a buffer (R312). -/
def State.rxNoBuf (s : State) (n r : Nat) (p : Pkt) : State :=
  let s := (s.updRing r (fun k => { k with dropOrBacklog := k.dropOrBacklog + 1 })).dropLate p R.RING_RX_NOBUF_CNT 3 0
  s.raise (0x118 + n) (s.ring r).func r (spGet p.sp SP.LEAF_QUEUE % 65536)

/-- A packet written into the oldest buffer of ring `r` and completed (R313). -/
def State.rxWrite (s : State) (n r : Nat) (p : Pkt) : State :=
  let k := s.ring r
  match k.buffers with
  | [] => s.rxNoBuf n r p
  | d :: rest =>
    let len := spGet p.sp SP.PKT_LEN
    let m := min len (descLen d)
    let s := s.setRing r { k with buffers := rest }
    let (s, n, st) := s.hostPut k.func (s.ringPasid k) (BitVec.ofNat 64 (descA d)) (padTo m p.bytes)
    let s := s.complete r d (st.getD (if m < len then 0x4090 else 0)) n (rxBytes k p (decide (m < len)))
    (s.trace 4 p.sp p.bytes 0 0xFF 0 0).endPkt p none

/-- Whether a ring takes packets of its leaf queue now: ACTIVE, its function able to write, and no queue pair's own. -/
def State.rxLive (s : State) (r : Nat) : Bool :=
  let k := s.ring r
  k.st == .active && ctxType k.ctx == 1 && (s.hostStop k.func).isNone && (s.qpOfRq r).isNone

/-- A host-bound packet at the Ring Manager: delivered, dropped, or waiting up to 4 µs for a buffer (R311, R312). `bad`: an
uncorrectable cell is found as it is read (R395). -/
def State.rxOne (s : State) (n : Nat) (p : Pkt) (bad : Bool) : State :=
  match s.rxRing p with
  | none =>
    (s.dropLate p R.RING_RX_UNBOUND_CNT 3 1).raise (0x120 + n) noFunc (spGet p.sp SP.LEAF_QUEUE) 0
  | some r =>
    if bad then s.cellUncorr p
    else if !s.rxLive r then s.rxNoBuf n r p
    else if (s.ring r).buffers.isEmpty || s.rings.rxWait.any (fun e => e.2.1 == r) then
      { s with rings := { s.rings with rxWait := s.rings.rxWait ++ [(n, r, p)] } }
    else s.rxWrite n r p

/-- RX_DELIVER: the next packet that port node `n` has sent to the Ring Manager. -/
def execRxDeliver (n : Fin 16) (bad : Bool) (s : State) : Res :=
  match takeFirst (fun (e : Nat × Pkt) => e.1 == n.val) s.rings.rxIn with
  | none => .next s
  | some ((_, p), rest) =>
    let t := { s with rings := { s.rings with rxIn := rest } }
    .next (if s.blockHeld 3 then t.heldDropLate 3 p else t.rxOne n.val p bad)

/-- RX_NOBUF_TIMEOUT: the packet that has waited longest for a buffer of the ring is dropped (R312). -/
def execRxNobufTimeout (ring : BitVec 20) (s : State) : Res :=
  match takeFirst (fun (e : Nat × Nat × Pkt) => e.2.1 == ring.toNat) s.rings.rxWait with
  | none => .next s
  | some ((n, r, p), rest) => .next ({ s with rings := { s.rings with rxWait := rest } }.rxNoBuf n r p)

/-- A packet that waited is written into the buffer a ring has gained. -/
def State.rxServe (s : State) (r : Nat) : State :=
  if !s.rxLive r then s else
  match takeFirst (fun (e : Nat × Nat × Pkt) => e.2.1 == r) s.rings.rxWait with
  | none => s
  | some ((n, _, p), rest) => { s with rings := { s.rings with rxWait := rest } }.rxWrite n r p

/-- BUF: the buffer joins those the ring holds (R311); on the receive ring of a queue pair in ERROR it completes with
QP_FLUSHED (Table 14-2). -/
def execBuf (ring : BitVec 20) (no : Nat) (s : State) : Res :=
  let r := ring.toNat
  .next (s.runOp r no 0x2001 false (fun s k o =>
    if (s.qpOfRq r).any (fun e => e.2.st == .error) then s.endOp r o.no 0x50A0 0 [] else
    (s.setRing r { k with ops := k.ops.filter (fun x => x.no != o.no), buffers := k.buffers ++ [o.desc] }).rxServe r))

end Sys2Proof.Machine
end

