-- ==== Sys2Proof/Machine/RteWire.lean ====
section
/-!
DEFINITION. Machine/RteWire.lean: the packets of remote memory access: the multipath header (Table 14-11) and the RoCEv2
headers, to and from one common form.
-/
namespace Sys2Proof.Machine
open Sys2Proof

/-- A packet of either wire format. `kind` is a multipath opcode (Table 14-12); a RoCEv2 packet takes the one of its
operation. `first` and `last` give the place in a RoCEv2 message, `imm` is present where `hasImm`, `ack` is ACK_PSN, every
earlier PSN being received, `code` a NAK code (100: RoCEv2 PSN sequence error). -/
structure RPkt where
  kind : Nat
  first : Bool
  last : Bool
  psn : Nat
  seq : Nat
  offset : Nat
  total : Nat
  va : Nat
  rkey : Nat
  hasImm : Bool
  imm : Nat
  sack : Nat
  code : Nat
  ackreq : Bool
  solicited : Bool
  path : Nat
  partition : Nat
  gen : Nat
  index : Nat
  src : Nat
  payload : Bytes
  deriving DecidableEq, Repr

def RPkt.base : RPkt :=
  ⟨0, true, true, 0, 0, 0, 0, 0, 0, false, 0, 0, 0, false, false, 0, 0, 0, 0, 0, []⟩

/-- The multipath header and payload, without ICRC (Table 14-11). -/
def RPkt.mpBytes (r : RPkt) : Bytes :=
  let acks := r.kind == 0x10 || r.kind == 0x11
  beBytes 1 0x10 ++ beBytes 1 r.kind ++ beBytes 2 (b2n r.ackreq + at' (b2n r.solicited) 1 + at' (b2n r.last) 2) ++
  beBytes 3 r.partition ++ beBytes 1 r.path ++ beBytes 4 (at' r.gen 18 + r.index) ++ beBytes 4 r.src ++
  beBytes 4 r.psn ++ beBytes 4 r.seq ++ beBytes 4 r.offset ++ beBytes 4 r.total ++
  beBytes 8 (if acks then r.sack else r.va) ++ beBytes 4 (if acks then r.code else r.rkey) ++ beBytes 4 r.imm ++ r.payload

/-- Why a received packet is no packet: its drop reason (R355). -/
abbrev RParse := Except Nat RPkt

/-- The reserved bits of Table 14-11, all 0 in a well-formed header; `b` begins with the header. -/
def mpReserved (b : Bytes) : Bool :=
  beAt b 0 1 % 16 == 0 && beAt b 2 2 / 8 == 0 && beAt b 7 1 / 64 == 0 && beAt b 8 4 / 67108864 == 0 && beAt b 12 4 / 67108864 == 0

def mpKinds : List Nat := [1, 2, 3, 4, 5, 6, 7, 8, 9, 0x10, 0x11, 0x12]

/-- A multipath packet read from the UDP payload (Table 14-11, R355). -/
def parseMp (b : Bytes) : RParse :=
  if b.length < 52 ∨ beAt b 0 1 / 16 ≠ 1 ∨ !mpReserved b then .error 14
  else if beAt b (b.length - 4) 4 ≠ (crc32c (b.take (b.length - 4))).toNat then .error 1
  else
    let kind := beAt b 1 1
    if kind ∉ mpKinds then .error 2 else
    .ok { kind := kind, first := beAt b 24 4 == 0, last := bit (BitVec.ofNat 16 (beAt b 2 2)) 2, psn := beAt b 16 4
          seq := beAt b 20 4, offset := beAt b 24 4, total := beAt b 28 4, va := beAt b 32 8, rkey := beAt b 40 4
          hasImm := kind == 2 || kind == 4, imm := beAt b 44 4, sack := beAt b 32 8, code := beAt b 40 4
          ackreq := bit (BitVec.ofNat 16 (beAt b 2 2)) 0, solicited := bit (BitVec.ofNat 16 (beAt b 2 2)) 1
          path := beAt b 7 1 % 64, partition := beAt b 4 3, gen := beAt b 8 4 / 262144, index := beAt b 8 4 % 262144
          src := beAt b 12 4, payload := slice b 48 (b.length - 52) }

/-- The RoCEv2 opcode of a packet of the reliable connection (IBTA; the layouts are PRESUMED from it). -/
def RPkt.roceOp (r : RPkt) : Nat :=
  let pos (base : Nat) (imm : Bool) :=
    if r.first && r.last then base + 4 + b2n imm else if r.first then base else if r.last then base + 2 + b2n imm else base + 1
  match r.kind with
  | 1 => pos 0 false
  | 2 => pos 0 true
  | 3 => pos 6 false
  | 4 => pos 6 true
  | 5 => 0x0C
  | 6 => if r.first && r.last then 0x10 else if r.first then 0x0D else if r.last then 0x0F else 0x0E
  | 7 => 0x13
  | 8 => 0x14
  | 9 => 0x12
  | 0x12 => 0x81
  | _ => 0x11

/-- AETH syndrome: ACK, receiver not ready, or a NAK code. The credit and timer bits are left open: `free`. -/
def RPkt.syndrome (r : RPkt) (free : Nat) : Nat :=
  if r.kind = 0x11 then
    match r.code with
    | 5 => 0x20 + free % 32
    | 100 => 0x60
    | 2 => 0x61
    | 1 => 0x62
    | _ => 0x63
  else free % 32

/-- BTH, extension headers, payload and its padding, without ICRC. -/
def RPkt.roceBytes (r : RPkt) (free : Nat) : Bytes :=
  let op := r.roceOp
  let pad := (4 - r.payload.length % 4) % 4
  let reth := beBytes 8 r.va ++ beBytes 4 r.rkey ++ beBytes 4 r.total
  let ext :=
    if op ∈ [0x06, 0x0A, 0x0C] then reth
    else if op = 0x0B then reth ++ beBytes 4 r.imm
    else if op ∈ [0x03, 0x05, 0x09] then beBytes 4 r.imm
    else if op ∈ [0x0D, 0x0F, 0x10, 0x11] then beBytes 1 (r.syndrome free) ++ beBytes 3 r.seq
    else if op = 0x12 then beBytes 1 (r.syndrome free) ++ beBytes 3 r.seq
    else if op = 0x13 ∨ op = 0x14 then
      beBytes 8 r.va ++ beBytes 4 r.rkey
    else if op = 0x81 then List.replicate 16 0
    else []
  beBytes 1 op ++ beBytes 1 (at' (b2n r.solicited) 7 + at' pad 4) ++ beBytes 2 (r.partition % 65536) ++ [0] ++
  beBytes 3 (at' (r.gen % 256) 16 + r.index % 65536) ++ beBytes 1 (at' (b2n r.ackreq) 7) ++ beBytes 3 (r.psn % 16777216) ++
  ext ++ r.payload ++ List.replicate pad 0

/-- The extension headers' bytes of a RoCEv2 opcode. -/
def roceExt (op : Nat) : Nat :=
  if op ∈ [0x06, 0x0A, 0x0C, 0x81] then 16 else if op = 0x0B then 20
  else if op ∈ [0x03, 0x05, 0x09, 0x0D, 0x0F, 0x10, 0x11, 0x12] then 4
  else if op = 0x13 ∨ op = 0x14 then 12 else 0

/-- The multipath opcode for a RoCEv2 one. -/
def roceKind (op : Nat) : Option Nat :=
  if op ∈ [0x00, 0x01, 0x02, 0x04] then some 1 else if op = 0x03 ∨ op = 0x05 then some 2
  else if op ∈ [0x06, 0x07, 0x08, 0x0A] then some 3 else if op = 0x09 ∨ op = 0x0B then some 4
  else if op = 0x0C then some 5 else if 0x0D ≤ op ∧ op ≤ 0x10 then some 6
  else if op = 0x11 then some 0x10 else if op = 0x12 then some 9 else if op = 0x13 then some 7 else if op = 0x14 then some 8
  else if op = 0x81 then some 0x12 else none

/-- A RoCEv2 packet read from the UDP payload; `icrc` is what its ICRC has to be (Table 14-10). An ACK names the PSN it
acknowledges, a NAK the one it refuses. -/
def parseRoce (icrc : Word) (b : Bytes) : RParse :=
  let op := beAt b 0 1
  if b.length < 16 then .error 14
  else if beAt b (b.length - 4) 4 ≠ icrc.toNat then .error 1
  else match roceKind op with
  | none => .error 2
  | some kind =>
    let x := roceExt op
    let pad := beAt b 1 1 / 16 % 4
    if b.length < 16 + x + pad ∨ beAt b 1 1 % 16 ≠ 0 then .error 14 else
    let reth := op ∈ [0x06, 0x0A, 0x0B, 0x0C]
    let atomic := op == 0x13 || op == 0x14
    let syn := beAt b 12 1
    let psn := beAt b 9 3
    let nak := op == 0x11 && decide (0x20 ≤ syn)
    let code := if syn / 32 = 1 then 5 else if syn = 0x60 then 100 else if syn = 0x61 then 2 else if syn = 0x62 then 1 else 3
    .ok { kind := if nak then 0x11 else kind
          first := decide (op ∈ [0x00, 0x04, 0x05, 0x06, 0x0A, 0x0B, 0x0C, 0x0D, 0x10, 0x11, 0x12, 0x13, 0x14, 0x81])
          last := decide (op ∉ [0x00, 0x01, 0x06, 0x07, 0x0D, 0x0E])
          psn := if op = 0x11 ∧ !nak then (psn + 1) % 16777216 else psn
          seq := 0, offset := 0, total := if reth then beAt b 24 4 else 0
          va := if reth || atomic then beAt b 12 8 else 0, rkey := if reth || atomic then beAt b 20 4 else 0
          hasImm := kind == 2 || kind == 4
          imm := if op = 0x0B then beAt b 28 4 else if op ∈ [0x03, 0x05, 0x09] then beAt b 12 4 else 0
          sack := 0, code := if nak then code else 0
          ackreq := decide (128 ≤ beAt b 8 1), solicited := decide (128 ≤ beAt b 1 1), path := 0
          partition := beAt b 2 2, gen := beAt b 5 1, index := beAt b 6 2, src := 0
          payload := slice b (12 + x) (b.length - 16 - x - pad) }

/-- An IP and UDP datagram in an Ethernet frame (Table 14-10). What the spec leaves open of the headers (the addresses of
the link layer, which routing rewrites, ECN, identification, flags and the hop limit) is taken from `free`. -/
def udpFrame (v6 : Bool) (dscp : Byte) (src dst : BitVec 128) (sport dport : Nat) (free : BitVec 512) (body : Bytes) : Bytes :=
  let len := 8 + body.length
  let tos := fld dscp 0 6 * 4 + fld free 0 2
  let ttl := 1 + fld free 8 8 % 255
  let a := beBytes (cond v6 16 4) src.toNat
  let b := beBytes (cond v6 16 4) dst.toNat
  let udp := beBytes 2 sport ++ beBytes 2 dport ++ beBytes 2 len ++ [0, 0] ++ body
  let sum := inetCsum (a ++ b ++ beBytes 4 len ++ beBytes 4 17 ++ udp)
  let udp := patch udp 6 (beBytes 2 (if sum = 0 then 0xFFFF else sum))
  let ip :=
    if v6 then beBytes 4 (at' 6 28 + at' tos 20 + fld free 16 20) ++ beBytes 2 len ++ [17] ++ beBytes 1 ttl ++ a ++ b
    else
      let h := beBytes 1 0x45 ++ beBytes 1 tos ++ beBytes 2 (20 + len) ++ beBytes 2 (fld free 16 16) ++ beBytes 2 0x4000 ++
        beBytes 1 ttl ++ [17, 0, 0] ++ a ++ b
      patch h 10 (beBytes 2 (inetCsum h))
  beBytes 12 (fld free 64 96) ++ beBytes 2 (cond v6 0x86DD 0x0800) ++ ip ++ udp

end Sys2Proof.Machine
end

