-- ==== Sys2Proof/Machine/RteCore.lean ====
section
/-!
DEFINITION. Machine/RteCore.lean: queue pairs, their contexts and the Lay-by, the requester and the responder (R324 to R353).
-/
namespace Sys2Proof.Machine
open Sys2Proof

def State.qp (s : State) (i : Nat) : Qp := mapGet (fun _ => Qp.absent) s.rte.qp i

def State.setQp (s : State) (i : Nat) (q : Qp) : State :=
  { s with rte := { s.rte with qp := mapSet (fun _ => Qp.absent) s.rte.qp i q } }

def State.updQp (s : State) (i : Nat) (g : Qp → Qp) : State := s.setQp i (g (s.qp i))

def Qp.multipath (q : Qp) : Bool := bit q.flags 0
def Qp.ordered (q : Qp) : Bool := bit q.flags 1
def Qp.v6 (q : Qp) : Bool := bit q.flags 2

/-- The path MTU in bytes (Table 14-4). -/
def Qp.mtuBytes (q : Qp) : Nat := 128 <<< q.mtu.toNat

/-- PSNs count modulo 2^32, or 2^24 in RoCEv2. -/
def Qp.psnMod (q : Qp) : Nat := if q.multipath then 4294967296 else 16777216

/-- How far PSN `a` lies above `b`. -/
def Qp.dist (q : Qp) (a b : Nat) : Nat := (a + q.psnMod - b % q.psnMod) % q.psnMod

def Qp.addPsn (q : Qp) (a n : Nat) : Word := BitVec.ofNat 32 ((a + n) % q.psnMod)

/-- The handle of queue pair `i` (Table 14-1). -/
def Qp.handle (q : Qp) (i : Nat) : Nat := at' q.gen.toNat 18 + i

/-- The packets of a message: at least one. -/
def Qp.packets (q : Qp) (total : Nat) : Nat := max 1 (ceilDiv total q.mtuBytes)

/-- The context of Table 14-4. -/
def Qp.bytes (q : Qp) (i : Nat) : Bytes :=
  leBytes 4 (q.handle i) ++ bvBytes q.st.code ++ bvBytes q.flags ++ bvBytes q.paths ++ bvBytes q.mtu ++
  leBytes 2 q.func.toNat ++ bvBytes q.retry ++ bvBytes q.dscp ++ bvBytes q.pd ++ bvBytes q.partition ++
  leBytes 4 q.sqRing ++ leBytes 4 q.rqRing ++ bvBytes q.remoteQp ++ bvBytes q.localAddr ++ bvBytes q.remoteAddr ++
  bvBytes q.nextPsn ++ bvBytes q.unackPsn ++ bvBytes q.expectPsn ++ bvBytes q.recvSeq ++ bvBytes q.sendSeq ++
  leBytes 4 q.rate.toNat ++ bvBytes q.retryCount ++ bvBytes q.rnrCount ++ leBytes 6 0 ++ bvBytes q.pathSuspend ++
  bvBytes q.timerStart ++ leBytes 1 q.outReads ++ leBytes 15 0 ++ bvBytes q.rxBitmap

def State.tracker (s : State) (k : Nat) : Option Tracker := mapGet (fun _ => none) s.rte.tracker k

def State.setTracker (s : State) (k : Nat) (t : Option Tracker) : State :=
  { s with rte := { s.rte with tracker := mapSet (fun _ => none) s.rte.tracker k t } }

/-- The open trackers of queue pair `i`. -/
def State.trackersOf (s : State) (i : Nat) : List (Nat × Tracker) :=
  s.rte.tracker.filterMap (fun e => e.2.bind (fun t => if t.qp = i then some (e.1, t) else none))

/-- The context written back to host memory (R329). -/
def State.writeBack (s : State) (i : Nat) : State :=
  let q := s.qp i
  let f := q.func.toNat
  if (s.hostStop f).isSome then s else (s.hostWrite f none q.qpcAddr (q.bytes i) false).bump R.RTE_CTX_WRITEBACK_CNT

/-- What pins a context (R330): an operation outstanding counts from its fetch (R307). -/
def State.qpPinned (s : State) (i : Nat) : Bool :=
  let q := s.qp i
  !q.ops.isEmpty || (decide (q.st ≠ .absent) && !(s.ring q.sqRing).ops.isEmpty) || q.timerOn || !(s.trackersOf i).isEmpty || s.rte.layby.any (fun l => l.qp == i)

def State.setQpcCache (s : State) (l : List Nat) : State := { s with rte := { s.rte with cached := l } }

/-- Whether the context of queue pair `i` can be written back now. -/
def State.canWriteBack (s : State) (i : Nat) : Bool :=
  let q := s.qp i
  (s.writeStop q.func.toNat none q.qpcAddr (q.bytes i)).isNone

/-- Room for one more context: free, or made by evicting the unpinned one used longest ago of those that can be written back, after
its write-back (R330). -/
def State.qpcRoom (s : State) : State × Bool :=
  if s.rte.cached.length + s.rte.fetching.length < 16384 then (s, true) else
  match s.rte.cached.reverse.find? (fun i => !s.qpPinned i && s.canWriteBack i) with
  | some i => ((s.writeBack i).setQpcCache (s.rte.cached.filter (· ≠ i)), true)
  | none => (s, false)

/-- The context of queue pair `i` is used by its own work: it comes to the head of the cache, read from host memory where it is not
there (R330). Where every cached context is pinned, the work is done without a place, and this read does not fail (DESIGN CHOICE,
log entry 104). -/
def State.useQpc (s : State) (i : Nat) : State :=
  if i ∈ s.rte.cached then s.setQpcCache (i :: s.rte.cached.filter (· ≠ i)) else
  let q := s.qp i
  let s := (s.bump R.RTE_CTX_MISS_CNT).if_ (s.canRead q.func.toNat) (fun s =>
    s.readNow q.func.toNat none q.qpcAddr 256 (.cpl .ok))
  match s.qpcRoom with
  | (s, true) => s.setQpcCache (i :: s.rte.cached)
  | (s, false) => s

/-- Packets that wait for cells outside the ingress reserve enter parse unit 4 in their order (R392). -/
def State.rtePump (s : State) : Nat → State
  | 0 => s
  | fuel + 1 =>
    match s.rte.waitTx with
    | [] => s
    | p :: rest =>
      if s.cellsFor false < p.cells then s else
      (({ s with rte := { s.rte with waitTx := rest } }.takeCells p.cells).toUnit 4 p).rtePump fuel

/-- A packet leaves the RTE: ORIGIN 4, SRC_PORT 10 (Table 4-6). -/
def State.rteOut (s : State) (frame : Bytes) (func : Nat) : State :=
  let (s, p) := s.newPkt frame 4 10 func
  let s := { s with rte := { s.rte with waitTx := s.rte.waitTx ++ [p] } }
  (s.bump R.RTE_TX_PKT_CNT).rtePump s.rte.waitTx.length

/-- The frame of a packet in either format, with its ICRC (Table 14-10, Table 14-11). -/
def State.rteFrame (s : State) (mp v6 : Bool) (dscp : Byte) (src dst : BitVec 128) (sport : Nat) (r : RPkt) : Bytes :=
  if mp then
    let b := r.mpBytes
    udpFrame v6 dscp src dst sport (s.rdf (R.PARSE_L4_PORT 3) 0 16) s.fresh (b ++ beBytes 4 (crc32c b).toNat)
  else
    let b := r.roceBytes (fld s.fresh 200 5)
    let f := udpFrame v6 dscp src dst sport (s.rdf (R.PARSE_L4_PORT 2) 0 16) s.fresh
    f (b ++ beBytes 4 (Config.roceIcrc ((f (b ++ [0, 0, 0, 0])).drop 14 |>.dropLast |>.dropLast |>.dropLast |>.dropLast)).toNat)

/-- A packet sent by queue pair `i` to its peer over path `path`. The spec names no path for what a responder sends: that
path is a free value. -/
def State.rteSend (s : State) (i path : Nat) (r : RPkt) : State :=
  let q := s.qp i
  let path := if !q.multipath then 0 else if r.kind ∈ [6, 9, 0x10, 0x11, 0x12] then fld s.fresh 480 6 % max 1 q.paths.toNat
    else path
  let h := q.remoteQp.toNat
  let r := { r with
    path := path, partition := q.partition.toNat % 16777216, gen := h / 262144 % 256, index := h % 262144, src := q.handle i }
  let f := s.rteFrame q.multipath q.v6 q.dscp q.localAddr q.remoteAddr (49152 + (i * 64 + path) % 16384) r
  s.drew.rteOut f q.func.toNat

/-- A packet the RTE drops, with its reason (R355). -/
def State.rteDrop (s : State) (p : Pkt) (r : Nat) : State := s.dropLate p (R.RTE_DROP_CNT r) 12 r

/-- A packet the RTE consumes. -/
def State.rteTake (s : State) (p : Pkt) : State := (s.bump R.RTE_RX_PKT_CNT).endPkt p none

/-- Bytes 16 to 31 of a requester completion (Table 14-8). -/
def ROp.cplBytes (o : ROp) (nak : Nat) (st : Status) : Bytes :=
  leBytes 4 (if o.kind = 0x10 ∧ st = 0 then o.rkey.toNat else 0) ++ bvBytes o.first ++ leBytes 1 nak ++
    leBytes 1 o.retries ++ leBytes 6 0

/-- The bytes of an operation that have been acknowledged (R353). -/
def Qp.ackedBytes (q : Qp) (o : ROp) : Nat :=
  if o.sent = 0 then 0
  else if o.kind = 5 then o.got
  else if 5 < o.kind then 0
  else
    let d := q.dist q.unackPsn.toNat o.first.toNat
    let n := if d < q.psnMod / 2 then min d o.count else 0
    let beyond := ((List.range o.sent).filter (fun k => decide (n ≤ k) &&
      decide (q.addPsn o.first.toNat k ∈ q.sacked))).length
    min o.total ((n + beyond) * q.mtuBytes)

/-- A requester operation leaves the queue pair and its completion is committed. -/
def State.endROp (s : State) (i : Nat) (o : ROp) (st : Status) (bytes nak : Nat) : State :=
  let q := s.qp i
  let reads := if 5 ≤ o.kind ∧ o.kind ≤ 8 ∧ 0 < o.sent then 1 else 0
  (s.setQp i { q with ops := q.ops.filter (fun x => x.no != o.no), outReads := q.outReads - reads }).endOp
    q.sqRing o.no st bytes (o.cplBytes nak st)

/-- Whether a requester operation has finished (R335). -/
def Qp.finished (q : Qp) (o : ROp) : Bool :=
  if o.kind ≤ 4 then
    o.sent == o.count && decide (o.count ≤ q.dist q.unackPsn.toNat o.first.toNat) &&
      decide (q.dist q.unackPsn.toNat o.first.toNat < q.psnMod / 2)
  else o.done

/-- Finished operations complete in ring order (R335). `fuel` bounds the operations. -/
def State.completeOps (s : State) (i : Nat) : Nat → State
  | 0 => s
  | fuel + 1 =>
    let q := s.qp i
    match q.ops with
    | [] => s
    | o :: _ =>
      if !q.finished o then s else
      (s.endROp i o o.status (if o.status = 0 ∧ o.kind < 0x10 then o.total else 0) 0).completeOps i fuel

/-- The packet number `k` of an operation (R339, Table 14-11). -/
def Qp.opPacket (q : Qp) (o : ROp) (k : Nat) : RPkt :=
  let m := q.mtuBytes
  let off := k * m
  let one := decide (5 ≤ o.kind)
  let last := one || k + 1 == o.count
  let ops := if q.multipath || o.kind == 8 then beBytes 8 o.op1.toNat ++ beBytes 8 o.op2.toNat
    else beBytes 8 o.op2.toNat ++ beBytes 8 o.op1.toNat
  { RPkt.base with
    kind := o.kind, first := one || k == 0, last := last, psn := (q.addPsn o.first.toNat k).toNat, seq := o.seq.toNat
    offset := if one then 0 else off, total := o.total, va := o.va.toNat, rkey := o.rkey.toNat
    hasImm := o.kind == 2 || o.kind == 4, imm := o.imm.toNat, ackreq := last
    solicited := o.solicited && (q.multipath || last)
    payload := if o.kind = 7 ∨ o.kind = 8 then ops else if one then [] else slice o.data off m }

/-- The first path from `p` on, in turn, that is not suspended (R339). -/
def Qp.pickPath (q : Qp) (p : Nat) : Nat :=
  let n := max 1 q.paths.toNat
  (((List.range n).map (fun k => (p + k) % n)).find? (fun x => !bit q.pathSuspend x)).getD (p % n)

/-- Packet `k` of operation `o` is sent, or sent again on the path after the one that last carried it (R339, R346). -/
def State.sendOpPacket (s : State) (i : Nat) (o : ROp) (k : Nat) (again : Bool) : State :=
  let q := s.qp i
  let r := q.opPacket o k
  let psn := BitVec.ofNat 32 r.psn
  let prev := (q.lastPath.find? (fun e => e.1 == psn)).map (fun e => e.2)
  let path := q.pickPath (match again, prev with
    | true, some p => p + 1
    | _, _ => q.nextPath)
  let q := { q with
    lastPath := (psn, path) :: q.lastPath.filter (fun e => e.1 != psn)
    nextPath := if again then q.nextPath else (path + 1) % max 1 q.paths.toNat }
  ((s.setQp i q).if_ again (fun s => s.bump R.RTE_RETX_PKT_CNT)).rteSend i path r

/-- The packets of its own an operation sends: one for reads and atomics. -/
def ROp.toSend (o : ROp) : Nat := if o.kind ≤ 4 then o.count else if o.kind ≤ 8 then 1 else 0

def Qp.updOp (q : Qp) (o : ROp) : Qp := { q with ops := q.ops.map (fun x => if x.no = o.no then o else x) }

/-- Operations send in ring order as far as the window of 1,024 PSNs lets them (R342); a READ takes a PSN for each response
(R339). The timer starts with the first unacknowledged packet (R346). -/
def State.pumpQp (s : State) (i : Nat) : Nat → State
  | 0 => s
  | fuel + 1 =>
    let q := s.qp i
    if q.st ≠ .rts ∨ q.rnrPsn.isSome then s else
    match q.ops.find? (fun o => decide (o.sent < o.toSend)) with
    | none => s
    | some o =>
      let out := q.dist q.nextPsn.toNat q.unackPsn.toNat
      let need := if o.kind = 5 then o.count else 1
      if out ≠ 0 ∧ 1024 < out + need then s else
      let o := { o with first := if o.sent = 0 then q.nextPsn else o.first, sent := o.sent + 1 }
      let q := { q.updOp o with
        nextPsn := q.addPsn q.nextPsn.toNat need
        outReads := if 5 ≤ o.kind then q.outReads + 1 else q.outReads
        timerOn := true, timerStart := if out = 0 then s.now else q.timerStart }
      ((s.setQp i q).sendOpPacket i o (o.sent - 1) false).pumpQp i fuel

/-- As many packets as a window can hold. -/
def pumpFuel : Nat := 2048

/-- The operation whose PSNs a PSN is one of. -/
def Qp.opAt (q : Qp) (psn : Nat) : Option ROp :=
  q.ops.find? (fun o => decide (0 < o.sent) && decide (o.kind ≤ 8) && decide (q.dist psn o.first.toNat < o.count))

/-- Whether a PSN lies from UNACK_PSN on among those sent. -/
def Qp.inWindow (q : Qp) (psn : Nat) : Bool :=
  decide (q.dist psn q.unackPsn.toNat < q.dist q.nextPsn.toNat q.unackPsn.toNat)

/-- Whether a PSN of the requester is still unacknowledged. -/
def Qp.isOut (q : Qp) (psn : Nat) : Bool := q.inWindow psn && decide (BitVec.ofNat 32 psn ∉ q.sacked)

/-- The PSNs that an ACK or NAK acknowledges: those before `ack` and those in `more`, but for the PSNs of reads and atomics, whose
responses acknowledge themselves (R339, R341; DEDUCED, log entry 106). -/
def Qp.covered (q : Qp) (ack : Nat) (more : List Nat) : List Nat :=
  let d := q.dist ack q.unackPsn.toNat
  let d := if q.dist q.nextPsn.toNat q.unackPsn.toNat < d then 0 else d
  (((List.range d).map (fun k => (q.addPsn q.unackPsn.toNat k).toNat)) ++ more).filter
    (fun p => !(q.opAt p).any (fun o => decide (5 ≤ o.kind)))

/-- Whether the request of a read or atomic whose first PSN is `psn` is to be sent again: an answer to it is missing. -/
def Qp.unanswered (q : Qp) (psn : Nat) : Bool :=
  q.ops.any (fun o => decide (5 ≤ o.kind) && decide (o.kind ≤ 8) && decide (0 < o.sent) && o.first.toNat == psn &&
    (List.range o.count).any (fun k => q.isOut (q.addPsn psn k).toNat))

/-- The oldest unacknowledged PSN moves over those marked received. -/
def Qp.slide (q : Qp) : Nat → Qp
  | 0 => q
  | fuel + 1 =>
    if q.unackPsn ∈ q.sacked then
      { q with unackPsn := q.addPsn q.unackPsn.toNat 1, sacked := q.sacked.filter (· ≠ q.unackPsn) }.slide fuel
    else q

/-- The PSNs `psns` are acknowledged: UNACK_PSN moves over those received in turn, and what waited for it goes on (R341, R342,
R346). -/
def State.acked (s : State) (i : Nat) (psns : List Nat) : State :=
  let q := s.qp i
  let l := (q.sacked ++ (psns.filter q.isOut).map (fun p => BitVec.ofNat 32 p)).eraseDups
  let q' := { q with sacked := l }.slide (l.length + 1)
  let moved := q'.unackPsn != q.unackPsn
  let q' := if moved then { q' with
      retryCount := 0, rnrCount := 0, timerStart := s.now, timerOn := q'.unackPsn != q'.nextPsn
      lastPath := q'.lastPath.filter (fun e =>
        decide (q'.dist e.1.toNat q'.unackPsn.toNat < q'.psnMod / 2) || q'.unanswered e.1.toNat) } else q'
  ((s.setQp i q').completeOps i (q'.ops.length + 1)).pumpQp i pumpFuel

/-- An ACK or NAK at the requester acknowledges what it covers. -/
def State.ackedTo (s : State) (i ack : Nat) (more : List Nat) : State := s.acked i ((s.qp i).covered ack more)

/-- Bytes 16 to 31 of a queue pair's receive completion (Table 14-9). -/
def Qp.rxBytes (q : Qp) (m : RMsg) : Bytes :=
  bvBytes (cond m.immValid m.imm 0) ++ bvBytes m.seq ++ bvBytes q.remoteQp ++
    leBytes 1 (b2n m.immValid + at' (b2n m.writeImm) 1 + at' (b2n m.solicited) 2) ++ leBytes 3 0

/-- The completion of a message's receive buffer, unless it has completed already. -/
def State.rxDone (s : State) (i : Nat) (m : RMsg) (st : Status) (bytes : Nat) : State :=
  let q := s.qp i
  let k := s.ring q.rqRing
  if m.buf ∉ k.lent then s else
  (s.setRing q.rqRing { k with lent := k.lent.filter (· ≠ m.buf) }).complete q.rqRing m.buf st bytes (q.rxBytes m)

/-- Data of a message written into its buffer, unless an abort has taken the buffer away; the status where the write fails. -/
def State.rxPut (s : State) (i : Nat) (m : RMsg) (off : Nat) (b : Bytes) : State × Option Status :=
  let q := s.qp i
  let k := s.ring q.rqRing
  if m.buf ∉ k.lent then (s, none) else
  let (s, _, st) := s.hostPut q.func.toNat (s.ringPasid k) (BitVec.ofNat 64 (descA m.buf + off)) b
  (s, st)

/-- Whole messages at the head leave, RECV_SEQ with them; with ORDERED their completions are committed then (R336). -/
def State.popMsgs (s : State) (i : Nat) : Nat → State
  | 0 => s
  | fuel + 1 =>
    let q := s.qp i
    match q.msgs with
    | [] => s
    | m :: rest =>
      if !m.whole then s else
      ((s.if_ q.ordered (fun s => s.rxDone i m m.status m.counted)).setQp i
        { q with msgs := rest, recvSeq := q.recvSeq + 1 }).popMsgs i fuel

/-- A buffer-consuming message is whole: its completion is committed, or with ORDERED held for its turn (R336, R337). -/
def State.msgWhole (s : State) (i : Nat) (m : RMsg) : State :=
  let q := s.qp i
  let m := { m with whole := true }
  let s := s.setQp i { q with msgs := q.msgs.map (fun x => if x.seq = m.seq then m else x) }
  (s.if_ (!q.ordered) (fun s => s.rxDone i m m.status m.counted)).popMsgs i (q.msgs.length + 1)

/-- Each queue pair operation and held buffer completes, and the queue pair is in ERROR (Table 14-2, R350): the operation
`no`, if any, with status `st`, the others with QP_FLUSHED. -/
def State.qpFail (s : State) (i : Nat) (no : Option Nat) (st : Status) (nak : Nat) : State :=
  let q := s.qp i
  let s := s.setQp i { q with st := .error, timerOn := false, rnrPsn := none, msgs := [], rxMsg := none, unacked := 0 }
  let s := s.each (s.ring q.sqRing).ops (fun s o =>
    match q.ops.find? (fun x => x.no == o.no) with
    | some x =>
      if no = some o.no then s.endROp i x st (if st = 0x5090 ∨ st = 0x5070 then q.ackedBytes x else 0) nak
      else s.endROp i x 0x50A0 0 0
    | none => s.endUnrun q.sqRing o.no (if no = some o.no then st else 0x50A0))
  let s := s.each q.msgs (fun s m =>
    s.rxDone i m (if m.status = 0 then 0x50A0 else m.status) 0)
  match q.rq with
  | none => s
  | some rq => (s.updRing rq (fun k => { k with buffers := [] })).each (s.ring rq).buffers (fun s b => s.complete rq b 0x50A0 0 [])

/-- QP_ERROR (Table 14-15). -/
def State.qpErrorEvent (s : State) (i : Nat) (st : Status) : State := s.raise 0x600 (s.qp i).func.toNat i st.toNat

/-- The status a NAK code maps to (Table 14-14). -/
def nakStatus (code : Nat) : Status := match code with
  | 1 => 0x20A0
  | 2 => 0x40A3
  | 4 => 0x40A2
  | _ => 0x40A4

/-- A fatal end of the requester: the oldest operation takes the status (R346, R348, R350, R351). -/
def State.qpFatal (s : State) (i : Nat) (st : Status) (nak : Nat) : State :=
  (s.qpFail i ((s.qp i).ops.head?.map (fun o => o.no)) st nak).qpErrorEvent i st

/-- SACK: bit k marks PSN ACK_PSN + 1 + k (Table 14-11). -/
def Qp.sackBits (q : Qp) : Nat := fld q.rxBitmap 1 64

/-- The PSNs a SACK marks. -/
def Qp.sackPsns (q : Qp) (ack sack : Nat) : List Nat :=
  ((List.range 64).filter (fun k => sack.testBit k)).map (fun k => (q.addPsn ack (k + 1)).toNat)

/-- An acknowledgement sent (R341). -/
def State.sendAck (s : State) (i path : Nat) : State :=
  let q := s.qp i
  let e := q.expectPsn.toNat
  let s := s.setQp i { q with unacked := 0 }
  s.rteSend i path { RPkt.base with
    kind := 0x10, last := false, psn := if q.multipath then e else (q.addPsn e (q.psnMod - 1)).toNat, seq := q.recvSeq.toNat, sack := q.sackBits }

/-- A NAK sent with a code (R341, R350). -/
def State.sendNak (s : State) (i path code : Nat) : State :=
  let q := s.qp i
  (s.bump R.RTE_NAK_TX_CNT).rteSend i path { RPkt.base with
    kind := 0x11, last := false, psn := q.expectPsn.toNat, seq := q.recvSeq.toNat, sack := q.sackBits, code := code }

/-- A NAK that ends the responder's queue pair: the packet is dropped, its buffers are flushed (R350). -/
def State.rxFatal (s : State) (i : Nat) (p : Pkt) (r : RPkt) (code reason : Nat) (st : Status) : State :=
  (((s.rteDrop p reason).sendNak i r.path code).qpFail i none st 0).qpErrorEvent i st

/-- A remote access violation (R332, R350). -/
def State.violation (s : State) (i : Nat) (p : Pkt) (r : RPkt) (why : Nat) : State :=
  (s.raise 0x601 (s.qp i).func.toNat i why).rxFatal i p r 1 10 0x20A0

/-- A message that no buffer can take: NAK code 2 (R336). Its packet is counted as malformed (DEDUCED: R355 lists no other
reason for it). -/
def State.invalid (s : State) (i : Nat) (p : Pkt) (r : RPkt) : State := s.rxFatal i p r 2 14 0x40A3

/-- Receiver not ready (R348). -/
def State.notReady (s : State) (i : Nat) (p : Pkt) (r : RPkt) : State := (s.rteDrop p 11).sendNak i r.path 5

def State.mr (s : State) (k : Nat) : Mr := mapGet (fun _ => Mr.empty) s.rte.mr k

def State.setMr (s : State) (k : Nat) (v : Mr) : State :=
  { s with rte := { s.rte with mr := mapSet (fun _ => Mr.empty) s.rte.mr k v } }

/-- The number of the first check of R332 that fails for a range and a right: 0 remote read, 1 write, 2 atomic. -/
def State.mrCheck (s : State) (q : Qp) (key va total right : Nat) : Option Nat :=
  let m := s.mr (key / 256)
  if !m.valid then some 1
  else if m.gen.toNat ≠ key % 256 then some 2
  else if m.func ≠ q.func ∨ m.pd ≠ q.pd then some 3
  else if !bit m.access right then some 4
  else if va < m.base.toNat ∨ m.base.toNat + m.len.toNat < va + total then some 5
  else none

/-- A write into a region, with the function's routing ID and the region's PASID (R332); the status where it fails. -/
def State.mrWrite (s : State) (q : Qp) (key va : Nat) (b : Bytes) : State × Option Status :=
  let (s, _, st) := s.hostPut q.func.toNat (s.pasidOf q.func.toNat (s.mr (key / 256)).pasid) (BitVec.ofNat 64 va) b
  (s, st)

/-- A read of a region by the responder, ending as `e` says. What an IDE stream or a link that fails under it does besides comes
with its own command. -/
def State.mrRead (s : State) (q : Qp) (key va n : Nat) (e : ReadEnd) : State :=
  s.readNow q.func.toNat (s.pasidOf q.func.toNat (s.mr (key / 256)).pasid) (BitVec.ofNat 64 va) n e

/-- Host memory that a request needs cannot be read or written: NAK code 3, remote operational error, and the queue pair enters
ERROR; the buffer of message `seq` completes with the host request's status (R230, R350; DESIGN CHOICE, log entry 105: chapter 14
names no answer to a failed placement). -/
def State.hostFailed (s : State) (i : Nat) (r : RPkt) (seq : Option Word) (st : Status) : State :=
  let s := s.updQp i (fun q => { q with msgs := q.msgs.map (fun m => if some m.seq = seq then { m with status := st } else m) })
  ((s.sendNak i r.path 3).qpFail i none 0x40A4 0).qpErrorEvent i 0x40A4

/-- The trailing ones of a number, at most `n`. -/
def trailingOnes : Nat → Nat → Nat
  | 0, _ => 0
  | n + 1, m => if m % 2 = 1 then 1 + trailingOnes n (m / 2) else 0

/-- `n` PSNs from `psn` marked as received; EXPECT_PSN moves over the lowest ones (R342). -/
def Qp.mark (q : Qp) (psn n : Nat) : Qp :=
  let d := q.dist psn q.expectPsn.toNat
  if d = 0 then
    let m := q.rxBitmap.toNat >>> n
    let t := trailingOnes 1024 m
    { q with expectPsn := q.addPsn psn (n + t), rxBitmap := BitVec.ofNat 1024 (m >>> t) }
  else { q with rxBitmap := q.rxBitmap ||| BitVec.ofNat 1024 ((2 ^ n - 1) <<< d) }

/-- Buffers are given to messages in the order of RECV_SEQ until the message of sequence `seq` has one (R336); false where
the queue pair holds too few. -/
def State.giveBufs (s : State) (i seq : Nat) : Nat → State × Bool
  | 0 => (s, false)
  | fuel + 1 =>
    let q := s.qp i
    let d := (seq + 4294967296 - q.recvSeq.toNat) % 4294967296
    if d < q.msgs.length then (s, true) else
    match (s.ring q.rqRing).buffers with
    | [] => (s, false)
    | b :: rest =>
      let m : RMsg := ⟨q.recvSeq + BitVec.ofNat 32 q.msgs.length, 0, 0, 0, 0, false, false, false, false, 0, b⟩
      ((s.updRing q.rqRing (fun k => { k with buffers := rest, lent := k.lent ++ [b] })).setQp i { q with msgs := q.msgs ++ [m] }).giveBufs i seq fuel

def Qp.msg (q : Qp) (seq : Nat) : Option RMsg := q.msgs.find? (fun m => m.seq.toNat == seq % 4294967296)

/-- After a packet has been taken: an acknowledgement at once where it asks for one or ACK_COUNT packets wait (R341). -/
def State.ackAfter (s : State) (i : Nat) (r : RPkt) : State :=
  let n := s.rdf R.RTE_CFG 24 8
  let n := if n = 0 then 1 else min n 64
  let s := s.updQp i (fun q => { q with unacked := q.unacked + 1 })
  if r.ackreq ∨ n ≤ (s.qp i).unacked then s.sendAck i r.path else s

/-- The number of an open tracker of queue pair `i`. -/
def State.trackerFor (s : State) (i : Nat) (read : Bool) (first : Word) : Option (Nat × Tracker) :=
  (s.trackersOf i).find? (fun e => e.2.read == read && e.2.first == first)

/-- A message's tracker counts `n` more bytes, opened where it is the first packet; none where none is free (R344). The flag
tells whether the message is whole, its tracker freed. -/
def State.track (s : State) (i : Nat) (read : Bool) (first : Word) (total n : Nat) : Option (State × Bool) :=
  let step := fun (s : State) (k : Nat) (t : Tracker) =>
    let t := { t with counted := t.counted + n, tLast := s.now }
    if total ≤ t.counted then some ((s.setTracker k none).bump R.RTE_TRACKER_DONE_CNT, true)
    else some (s.setTracker k (some t), false)
  match s.trackerFor i read first with
  | some (k, t) => step s k t
  | none =>
    match pickFree (s.rte.tracker.map (fun e => e.1)) 65536 (fld s.fresh 0 16) with
    | some k => step s.drew k ⟨i, read, first, total, 0, s.now, s.now⟩
    | none => none

/-- The data a responder returns for a READ: a response for each packet of it (R339). -/
def State.answerRead (s : State) (i : Nat) (r : RPkt) (mem : Bytes) : State :=
  let q := s.qp i
  let n := q.packets r.total
  let m := q.mtuBytes
  s.each (List.range n) (fun s k => s.rteSend i r.path { RPkt.base with
    kind := 6, first := k == 0, last := k + 1 == n, psn := (q.addPsn r.psn k).toNat, seq := q.recvSeq.toNat
    offset := k * m, total := r.total, va := r.va, rkey := r.rkey, ackreq := q.multipath && k + 1 == n
    payload := slice (padTo r.total mem) (k * m) m })

/-- The answer to an atomic: the original value (R334). -/
def State.answerAtomic (s : State) (i : Nat) (r : RPkt) (old : DWord) : State :=
  s.rteSend i r.path { RPkt.base with
    kind := 9, psn := r.psn, seq := (s.qp i).recvSeq.toNat, total := 8, va := r.va, rkey := r.rkey
    ackreq := (s.qp i).multipath
    payload := beBytes 8 old.toNat }

/-- A duplicate request: acknowledged and counted; a READ is answered again, an atomic with the value saved (R334, R342). -/
def State.duplicate (s : State) (i : Nat) (p : Pkt) (r : RPkt) (e : ReadEnd) (mem : Bytes) : State :=
  let s := (s.rteTake p).bump R.RTE_DUP_PKT_CNT
  let q := s.qp i
  match r.kind with
  | 5 =>
    if (s.mrCheck q r.rkey r.va r.total 0).isSome then s.sendAck i r.path else
    let s := s.mrRead q r.rkey r.va r.total e
    match readStatus e with
    | some st => s.hostFailed i r none st
    | none => s.answerRead i r mem
  | 7 | 8 => match q.atomics.find? (fun a => a.1.toNat == r.psn) with
    | some a => s.answerAtomic i r a.2
    | none => s.sendAck i r.path
  | _ => s.sendAck i r.path

/-- The operands of an atomic packet: compare or addend, and swap (Table 14-11; in RoCEv2 the swap value comes first). -/
def Qp.operands (q : Qp) (r : RPkt) : DWord × DWord :=
  let a := BitVec.ofNat 64 (beAt r.payload 0 8)
  let b := BitVec.ofNat 64 (beAt r.payload 8 8)
  if q.multipath || r.kind == 8 then (a, b) else (b, a)

/-- A new READ or atomic at the responder (R332, R334, R339, R341). Its read of the range ends as `e` says; `mem` is what the range
holds. -/
def State.rxFetch (s : State) (i : Nat) (p : Pkt) (r : RPkt) (e : ReadEnd) (mem : Bytes) : State :=
  let q := s.qp i
  if r.kind ≠ 5 ∧ r.va % 8 ≠ 0 then s.invalid i p r else
  match s.mrCheck q r.rkey r.va (if r.kind = 5 then r.total else 8) (if r.kind = 5 then 0 else 2) with
  | some why => s.violation i p r why
  | none =>
    let s := (s.rteTake p).mrRead q r.rkey r.va (if r.kind = 5 then r.total else 8) e
    match readStatus e with
    | some st => s.hostFailed i r none st
    | none =>
      let s := s.updQp i (fun q => { q.mark r.psn (if r.kind = 5 then q.packets r.total else 1) with seqNak := false })
      let ack := fun (s : State) => if q.multipath then s.ackAfter i r else s
      if r.kind = 5 then ack (s.answerRead i r mem) else
      let old := BitVec.ofNat 64 (leAt mem 0 8)
      let (a, b) := q.operands r
      let new := if r.kind = 7 then (if old = a then b else old) else old + a
      let (s, bad) := if r.kind = 7 ∧ old ≠ a then (s, none) else s.mrWrite q r.rkey r.va (bvBytes new)
      match bad with
      | some st => s.hostFailed i r none st
      | none => ack ((s.updQp i (fun q => { q with
          atomics := ((BitVec.ofNat 32 r.psn, old) :: q.atomics).take 128 })).answerAtomic i r old)

/-- A new WRITE or SEND packet in multipath mode: checked, counted, placed and acknowledged (R336, R343, R344). A message behind
RECV_SEQ, or whole, is one whose tracker has aged: its buffer has gone, and a packet of it still in the window opens a new tracker
(R345; DEDUCED, log entry 106: what of it names the buffer is placed nowhere). -/
def State.mpPlace (s : State) (i : Nat) (p : Pkt) (r : RPkt) : State :=
  let q := s.qp i
  let m := q.mtuBytes
  let uses := r.kind != 3
  let writes := r.kind == 3 || r.kind == 4
  if r.offset % m ≠ 0 ∨ r.payload.length ≠ min m (r.total - r.offset) ∨ (r.total ≠ 0 ∧ r.total ≤ r.offset) then s.rteDrop p 14 else
  match (if writes then s.mrCheck q r.rkey r.va r.total 1 else none) with
  | some why => s.violation i p r why
  | none =>
    if uses ∧ q.rq = none then s.invalid i p r else
    let late := decide (2147483648 ≤ (r.seq + 4294967296 - q.recvSeq.toNat) % 4294967296)
    match (if uses && !late then s.giveBufs i r.seq 66 else (s, true)) with
    | (s, false) => s.notReady i p r
    | (s, true) =>
      let q := s.qp i
      let msg := if uses && !late then (q.msg r.seq).filter (fun m => !m.whole) else none
      let tooLong := uses && !writes && (match msg with | some x => decide (descLen x.buf < r.total) | none => false)
      if tooLong then
        (s.setQp i { q with msgs := q.msgs.map (fun x =>
          if x.seq.toNat = r.seq then { x with status := 0x4090 } else x) }).invalid i p r
      else
        let first := q.addPsn r.psn (q.psnMod - r.offset / m)
        match (if r.total ≤ m then some (s, true) else s.track i false first r.total r.payload.length) with
        | none => (s.rteDrop p 9).raise 0x606 q.func.toNat i (r.psn % 65536)
        | some (s, whole) =>
          let s := s.rteTake p
          let (s, bad) := if writes then s.mrWrite q r.rkey (r.va + r.offset) r.payload
            else match msg with
              | some x => s.rxPut i x r.offset r.payload
              | none => (s, none)
          match bad with
          | some st => s.hostFailed i r (if writes then none else msg.map (fun x => x.seq)) st
          | none =>
            let s := s.updQp i (fun q => q.mark r.psn 1)
            let s := match msg with
              | none => s
              | some x =>
                let x := { x with
                  first := first, total := r.total, counted := x.counted + r.payload.length, imm := BitVec.ofNat 32 r.imm
                  immValid := r.hasImm && whole, writeImm := r.kind == 4, solicited := r.solicited }
                let s := s.updQp i (fun q => { q with msgs := q.msgs.map (fun (y : RMsg) => if y.seq = x.seq then x else y) })
                if whole then s.msgWhole i x else s
            s.ackAfter i r

/-- A request in multipath mode (R342). -/
def State.mpRequest (s : State) (i : Nat) (p : Pkt) (r : RPkt) (e : ReadEnd) (mem : Bytes) : State :=
  let q := s.qp i
  let d := q.dist r.psn q.expectPsn.toNat
  if 2147483648 ≤ d ∨ (d < 1024 ∧ bit q.rxBitmap d) then s.duplicate i p r e mem
  else if 1024 ≤ d ∨ (r.kind = 5 ∧ 0 < d ∧ 1024 < d + q.packets r.total) then s.rteDrop p 6
  else if r.kind ≤ 4 then s.mpPlace i p r
  else if (r.kind ≠ 5 ∧ r.payload.length ≠ 16) ∨ (r.kind = 5 ∧ r.total = 0) then s.rteDrop p 14
  else s.rxFetch i p r e mem

/-- The placement of a RoCEv2 SEND or WRITE packet, in PSN order (Table 14-10). -/
def State.rocePlace (s : State) (i : Nat) (p : Pkt) (r : RPkt) : State :=
  let q := s.qp i
  let writes := r.kind == 3 || r.kind == 4
  let uses := if writes then r.kind == 4 else r.first
  let cur : Option RoceIn :=
    if r.first then (if q.rxMsg.isSome then none else some ⟨writes, BitVec.ofNat 64 r.va, BitVec.ofNat 32 r.rkey, r.total, 0⟩)
    else q.rxMsg.bind (fun c => if c.writing = writes then some c else none)
  match cur with
  | none => s.invalid i p r
  | some c =>
    let m := q.mtuBytes
    let badLen := if r.last then decide (m < r.payload.length) else r.payload.length != m
    match (if writes then s.mrCheck q c.rkey.toNat c.va.toNat c.total 1 else none) with
    | some why => s.violation i p r why
    | none =>
      if badLen ∨ (writes ∧ c.total < c.offset + r.payload.length) ∨ (writes ∧ r.last ∧ c.total ≠ c.offset + r.payload.length) ∨
          (uses ∧ q.rq = none) then s.invalid i p r else
      match (if uses then s.giveBufs i q.recvSeq.toNat 2 else (s, true)) with
      | (s, false) => s.notReady i p r
      | (s, true) =>
        let q := s.qp i
        let msg := if writes && r.kind != 4 then none else q.msgs.head?
        let tooLong := !writes && (match msg with | some x => decide (descLen x.buf < c.offset + r.payload.length) | none => false)
        if tooLong then
          (s.setQp i { q with msgs := q.msgs.map (fun x =>
            if x.seq = q.recvSeq then { x with status := 0x4090 } else x) }).invalid i p r
        else
          let s := s.rteTake p
          let (s, bad) := if writes then s.mrWrite q c.rkey.toNat (c.va.toNat + c.offset) r.payload
            else match msg with
              | some x => s.rxPut i x c.offset r.payload
              | none => (s, none)
          match bad with
          | some st => s.hostFailed i r (if writes then none else some q.recvSeq) st
          | none =>
            let c := { c with offset := c.offset + r.payload.length }
            let s := s.updQp i (fun q => { q.mark r.psn 1 with rxMsg := if r.last then none else some c, seqNak := false })
            let s := match msg with
              | some x =>
                if r.last then s.msgWhole i { x with
                  total := c.offset, counted := c.offset, imm := BitVec.ofNat 32 r.imm, immValid := r.hasImm
                  writeImm := r.kind == 4, solicited := r.solicited }
                else s
              | none => s
            s.ackAfter i r

/-- A request in RoCEv2 mode: in order, a duplicate, or out of order, which draws one NAK (Table 14-10). -/
def State.roceRequest (s : State) (i : Nat) (p : Pkt) (r : RPkt) (e : ReadEnd) (mem : Bytes) : State :=
  let q := s.qp i
  let d := q.dist r.psn q.expectPsn.toNat
  if 8388608 ≤ d then s.duplicate i p r e mem
  else if 0 < d then
    let s := s.rteDrop p 12
    if q.seqNak then s else (s.updQp i (fun q => { q with seqNak := true })).sendNak i r.path 100
  else if r.kind ≤ 4 then s.rocePlace i p r
  else if (r.kind ≠ 5 ∧ r.payload.length ≠ 16) ∨ (r.kind = 5 ∧ r.total = 0) then s.rteDrop p 14
  else s.rxFetch i p r e mem

/-- A response whose data cannot be written fails its operation. -/
def State.respFail (s : State) (i : Nat) (o : ROp) (st : Status) : State :=
  s.updQp i (fun q => q.updOp { o with done := true, status := st })

/-- A READ response or atomic response at the requester (R335, R339, R343). -/
def State.rxResponse (s : State) (i : Nat) (p : Pkt) (r : RPkt) : State :=
  let q := s.qp i
  match q.opAt r.psn with
  | none => (s.rteTake p).bump R.RTE_DUP_PKT_CNT
  | some o =>
    if !q.isOut r.psn then (s.rteTake p).bump R.RTE_DUP_PKT_CNT
    else if !q.multipath ∧ r.psn ≠ q.unackPsn.toNat then s.rteDrop p 12
    else
      let f := q.func.toNat
      let pasid := s.ringPasid (s.ring q.sqRing)
      let k := q.dist r.psn o.first.toNat
      let off := if r.kind = 6 then k * q.mtuBytes else 0
      let want := if r.kind = 6 then min q.mtuBytes (o.total - off) else 8
      if (r.kind = 6) ≠ (o.kind = 5) ∨ r.payload.length ≠ want then s.rteDrop p 14 else
      let tracked := if q.multipath ∧ r.kind = 6 ∧ q.mtuBytes < o.total
        then s.track i true o.first o.total r.payload.length else some (s, false)
      match tracked with
      | none => (s.rteDrop p 9).raise 0x606 f i (r.psn % 65536)
      | some (s, _) =>
        let s := s.rteTake p
        let data := if r.kind = 6 then r.payload else leBytes 8 (beAt r.payload 0 8)
        let o := { o with got := o.got + data.length, done := decide (o.total ≤ o.got + data.length) }
        let (s, _, bad) := s.hostPut f pasid (o.addrA + BitVec.ofNat 64 off) data
        let s := match bad with
          | some st => s.respFail i o st
          | none => s.updQp i (fun q => q.updOp o)
        s.acked i [r.psn]

/-- Every unacknowledged PSN not marked received is sent again: in RoCEv2 all from UNACK_PSN on; a READ's request is sent
again where any of its responses is missing (R346). -/
def State.resend (s : State) (i : Nat) : State :=
  let q := s.qp i
  s.each q.ops (fun s o =>
    if o.kind ≤ 4 then
      s.each ((List.range o.sent).filter (fun k =>
        let psn := (q.addPsn o.first.toNat k).toNat
        if q.multipath then q.isOut psn else q.inWindow psn)) (fun s k =>
        s.sendOpPacket i o k true)
    else if o.kind ≤ 8 ∧ 0 < o.sent ∧ q.unanswered o.first.toNat then s.sendOpPacket i o 0 true
    else s)

/-- A NAK at the requester (R346, R348, R350). -/
def State.rxNak (s : State) (i : Nat) (r : RPkt) : State :=
  let s := s.bump R.RTE_NAK_RX_CNT
  let q := s.qp i
  if r.code = 5 then
    let s := s.ackedTo i r.psn (if q.multipath then q.sackPsns r.psn r.sack else [])
    let q := s.qp i
    let n := q.rnrCount.toNat + 1
    let lim := fld q.retry 4 4
    if lim ≠ 15 ∧ lim < n then s.qpFatal i 0x40A1 5
    else s.setQp i { q with rnrCount := BitVec.ofNat 8 n, rnrPsn := some (BitVec.ofNat 32 r.psn), timerOn := false }
  else if r.code = 100 then (s.ackedTo i r.psn []).resend i
  else if r.code = 4 then s.qpFatal i 0x40A2 4
  else (s.ackedTo i r.psn []).qpFatal i (nakStatus r.code) r.code

/-- A product by `n / d` of a rate; the spec does not say how a fraction is rounded, so the rounding is free. -/
def State.scaled (s : State) (x n d : Nat) : Nat := x * n / d + (if x * n % d = 0 then 0 else fld s.fresh 24 1)

/-- A congestion notification at the requester (R349). The send rate over the last 55 µs is a free value. -/
def State.rxCnp (s : State) (i : Nat) : State :=
  let s := s.bump R.RTE_CNP_RX_CNT
  let q := s.qp i
  let half := if q.rate = 0 then fld s.fresh 0 24 else s.scaled q.rate.toNat 1 2
  s.drew.setQp i { q with rate := BitVec.ofNat 24 (max 8000 half) }

/-- The CNP with which a responder answers a packet marked by congestion (R349). -/
def State.cnpFor (s : State) (i : Nat) (p : Pkt) (r : RPkt) : State :=
  let q := s.qp i
  let us := s.rdf R.RTE_CC_CFG 0 16
  let early : Bool := match q.cnpAt with
    | some t => decide (s.now.toNat < t.toNat + us * 1000)
    | none => false
  if !bit (s.rd R.RTE_CC_CFG) 31 ∨ spGet p.sp SP.ECN ≠ 3 ∨ early ∨ r.kind = 0x12 then s else
  ((s.setQp i { q with cnpAt := some s.now }).bump R.RTE_CNP_TX_CNT).rteSend i r.path
    { RPkt.base with kind := 0x12, last := false, psn := 0 }

/-- Whether the partition of a packet is the queue pair's (R338, R340). -/
def Qp.admits (q : Qp) (r : RPkt) : Bool :=
  if q.multipath then r.partition == q.partition.toNat % 16777216
  else r.partition % 32768 == q.partition.toNat % 32768 && (decide (32768 ≤ r.partition % 65536) || bit q.partition 15)

/-- A packet whose context is at hand: its state, its partition, then its work (Table 14-2, R338, R340, R342). A queue pair
whose function can make no host request takes no packet (DESIGN CHOICE). -/
def State.rteProcess (s : State) (i : Nat) (p : Pkt) (r : RPkt) (e : ReadEnd) (mem : Bytes) : State :=
  let q := s.qp i
  if (q.st ≠ .rtr ∧ q.st ≠ .rts) ∨ (s.hostStop q.func.toNat).isSome then s.rteDrop p 4
  else if !q.admits r then (s.rteDrop p 3).raise 0x603 q.func.toNat i 0
  else
    let s := s.cnpFor i p r
    match r.kind with
    | 1 | 2 | 3 | 4 | 5 | 7 | 8 => if q.multipath then s.mpRequest i p r e mem else s.roceRequest i p r e mem
    | 6 | 9 => if q.st = .rts then s.rxResponse i p r else s.rteDrop p 4
    | 0x10 =>
      if q.st = .rts then (s.rteTake p).ackedTo i r.psn (if q.multipath then q.sackPsns r.psn r.sack else [])
      else s.rteDrop p 4
    | 0x11 => if q.st = .rts then (s.rteTake p).rxNak i r else s.rteDrop p 4
    | _ => (s.rteTake p).rxCnp i

end Sys2Proof.Machine
end

