-- ==== Sys2Proof/Machine/Rte.lean ====
section
/-!
DEFINITION. Machine/Rte.lean: the commands of remote memory access (R324 to R355): received packets, the Lay-by, the timers,
the operations, the queue pair commands and the window.
-/
namespace Sys2Proof.Machine
open Sys2Proof

/-- The packets waiting in the Lay-by for queue pair `i`, in order. -/
def State.laybyOf (s : State) (i : Nat) : List LaybyPkt := s.rte.layby.filter (fun l => l.qp == i)

/-- The Lay-by without the packets of queue pair `i`. -/
def State.clearLayby (s : State) (i : Nat) : State :=
  { s with rte := { s.rte with layby := s.rte.layby.filter (fun l => l.qp != i) } }

/-- How many packets the running fetch of queue pair `i` has lost to their deadline. -/
def State.overran (s : State) (i : Nat) : Nat := ((s.rte.overran.find? (fun e => e.1 == i)).map (fun e => e.2)).getD 0

def State.setOverran (s : State) (i n : Nat) : State :=
  { s with rte := { s.rte with
    overran := s.rte.overran.filter (fun e => e.1 != i) ++ (if n = 0 then [] else [(i, n)]) } }

/-- A fetch has ended: it is no longer in progress, and LAYBY_TIMEOUT marks it where it overran (R352 step 6). -/
def State.endFetch (s : State) (i : Nat) : State :=
  let n := s.overran i
  (({ s with rte := { s.rte with fetching := s.rte.fetching.filter (· ≠ i) } }.setOverran i 0).if_ (decide (0 < n))
    (fun s => s.raise 0x604 (s.qp i).func.toNat i n))

/-- A fetch has failed: every waiting packet is dropped (R352 step 4). -/
def State.fetchFailed (s : State) (i : Nat) : State :=
  let l := s.laybyOf i
  (((s.dropOwner (.context i)).clearLayby i).each l (fun s x => s.rteDrop x.pkt 13)).endFetch i

/-- The fetch of a context that packets wait for begins, where there is room for it and none is in progress (R330, R352). -/
def State.beginFetch (s : State) (i : Nat) : State :=
  if i ∈ s.rte.fetching ∨ i ∈ s.rte.cached ∨ (s.laybyOf i).isEmpty then s else
  let f := (s.qp i).func.toNat
  match s.hostStop f with
  | some _ => s.fetchFailed i
  | none =>
    match s.qpcRoom with
    | (s, false) => s
    | (s, true) =>
      ({ s with rte := { s.rte with fetching := s.rte.fetching ++ [i] } }.bump R.RTE_CTX_MISS_CNT).sendRead
        ⟨f, none, .context i, (s.qp i).qpcAddr, 256⟩

/-- Every fetch that packets wait for and that can begin does. -/
def State.beginFetches (s : State) : State :=
  s.each (s.rte.layby.map (fun l => l.qp)).eraseDups (fun s i => s.beginFetch i)

/-- A packet waits for its context (R352 steps 1, 2, 5). -/
def State.toLayby (s : State) (i : Nat) (p : Pkt) : State :=
  if 4096 ≤ s.rte.layby.length then (s.rteDrop p 8).raise 0x605 (s.qp i).func.toNat i 0
  else ({ s with rte := { s.rte with layby := s.rte.layby ++ [LaybyPkt.mk i p s.now] } }.bump R.RTE_LAYBY_WAIT_CNT).beginFetch i

/-- The packet of the RTE's formats that a frame carries: L4_TYPE tells which (Table 2-3), and what lies behind its UDP
header is read. A RoCEv2 packet for DestQP 0 or 1 is reason 2 by itself, handed on or dropped (R327). -/
def rteParse (p : Pkt) : RParse :=
  let l4 := spGet p.sp SP.L4_OFF
  let b := slice p.bytes (l4 + 8) (beAt p.bytes (l4 + 4) 2 - 8)
  match spGet p.sp SP.L4_TYPE with
  | 6 => parseMp b
  | 5 =>
    let l3 := spGet p.sp SP.L3_OFF
    let icrc := Config.roceIcrc (slice p.bytes l3 (l4 + 8 + b.length - 4 - l3))
    parseRoce icrc b
  | _ => .error 0

/-- DestQP of a RoCEv2 packet whose ICRC is right (R326, R327). -/
def rteGsi (p : Pkt) : Option Nat :=
  let l4 := spGet p.sp SP.L4_OFF
  let b := slice p.bytes (l4 + 8) (beAt p.bytes (l4 + 4) 2 - 8)
  let l3 := spGet p.sp SP.L3_OFF
  if spGet p.sp SP.L4_TYPE = 5 ∧ 16 ≤ b.length ∧ beAt b 5 3 < 2 ∧
      beAt b (b.length - 4) 4 = (Config.roceIcrc (slice p.bytes l3 (l4 + 8 + b.length - 4 - l3))).toNat then some (beAt b 5 3)
  else none

/-- A packet for an old generation of its index (R351): dropped; in multipath mode NAK code 4 goes to SRC_QP at the packet's
source, under its own partition. What the spec leaves open of that NAK (path, DSCP, ACK_PSN) is free. -/
def State.stale (s : State) (p : Pkt) (r : RPkt) (mp : Bool) : State :=
  let s := s.rteDrop p 5
  let s := if !mp then s else
    let path := fld s.fresh 480 6
    let nak : RPkt := { RPkt.base with
      kind := 0x11, last := false, psn := fld s.fresh 400 32, code := 4, path := path, partition := r.partition
      gen := r.src / 262144, index := r.src % 262144, src := at' r.gen 18 + r.index }
    let f := s.rteFrame true (spGet p.sp SP.L3_TYPE == 2) (BitVec.ofNat 8 (fld s.fresh 440 6))
      (BitVec.ofNat 128 (spGet p.sp SP.DST_ADDR)) (BitVec.ofNat 128 (spGet p.sp SP.SRC_ADDR))
      (49152 + (r.index * 64 + path) % 16384) nak
    (s.drew.bump R.RTE_NAK_TX_CNT).rteOut f noFunc
  s.raise 0x602 noFunc r.index r.gen

/-- A received packet (R327, R342, R351, R352, R355). The read of the range that a READ or an atomic names ends as `e` says; `mem` is
what host memory holds there. -/
def State.rteReceive (s : State) (p : Pkt) (e : ReadEnd) (mem : Bytes) : State :=
  match rteGsi p with
  | some 1 =>
    if bit (s.rd R.RTE_GSI_CFG) 31 then
      s.toTm { p with sp := spSet p.sp SP.LEAF_QUEUE (s.rdf R.RTE_GSI_CFG 0 18) }
    else s.rteDrop p 2
  | some _ => s.rteDrop p 2
  | none =>
    match rteParse p with
    | .error why => s.rteDrop p why
    | .ok r =>
      let i := r.index
      let q := s.qp i
      if q.gen.toNat ≠ r.gen then s.stale p r (spGet p.sp SP.L4_TYPE == 6)
      else if q.st = .absent ∨ q.multipath ≠ (spGet p.sp SP.L4_TYPE == 6) then s.rteDrop p 4
      else if i ∈ s.rte.cached then (s.useQpc i).rteProcess i p r e mem
      else s.toLayby i p

/-- RTE_PACKET_RECEIVE: the packet longest at the RTE is taken. -/
def execRtePacketReceive (mem : Bytes) (s : State) (e : ReadEnd := .cpl .ok) : Res :=
  match s.rte.input with
  | [] => .next s
  | p :: rest =>
    if s.blockHeld 12 then .next ({ s with rte := { s.rte with input := rest } }.heldDropLate 12 p) else
    let s := ({ s with rte := { s.rte with input := rest } }.rteReceive p e mem).beginFetches
    .next (s.rtePump s.rte.waitTx.length)

/-- The waiting packets of a context that has arrived, in their order, each with what memory holds for it and how the read of that
ends (R352 step 3). -/
def State.runLayby (s : State) (i : Nat) : List LaybyPkt → List (ReadEnd × Bytes) → State
  | [], _ => s
  | l :: rest, mems =>
    let s := match rteParse l.pkt with
      | .ok r =>
        let (e, mem) := mems.headD (.cpl .ok, [])
        s.rteProcess i l.pkt r e mem
      | .error why => s.rteDrop l.pkt why
    s.runLayby i rest mems.tail

/-- The context of queue pair `i` is here, its fetch over: the packets that waited for it are processed (R352 step 3). -/
def State.contextHere (s : State) (i : Nat) (mems : List (ReadEnd × Bytes)) : State :=
  if i ∉ s.rte.fetching ∨ s.reads (.context i) then s else
  let l := s.laybyOf i
  let s := (s.clearLayby i).endFetch i
  let s := if (s.qp i).st = .absent then s else s.setQpcCache (i :: s.rte.cached.filter (· ≠ i))
  let s := (s.runLayby i l mems).beginFetches
  s.rtePump s.rte.waitTx.length

/-- LAYBY_TIMEOUT: the packet of a queue pair that entered the Lay-by first has waited 50 µs (R352 step 4). -/
def execLaybyTimeout (qp : Fin 262144) (s : State) : Res :=
  let i := qp.val
  match takeFirst (fun (l : LaybyPkt) => l.qp == i) s.rte.layby with
  | none => .next s
  | some (l, rest) =>
    let s := { s with rte := { s.rte with layby := rest } }.rteDrop l.pkt 7
    .next (if i ∈ s.rte.fetching then s.setOverran i (s.overran i + 1) else s.raise 0x604 (s.qp i).func.toNat i 1)

/-- ACK_TIMER: ACK_US after the first packet not acknowledged (R341). -/
def execAckTimer (qp : Fin 262144) (s : State) : Res :=
  let q := s.qp qp.val
  if q.unacked = 0 ∨ (q.st ≠ .rtr ∧ q.st ≠ .rts) then .next s else .next (s.sendAck qp.val 0)

/-- The paths that last carried the packets a timeout resends. -/
def Qp.lostPaths (q : Qp) : List Nat :=
  (q.lastPath.filter (fun e => q.isOut e.1.toNat || q.unanswered e.1.toNat)).map (fun e => e.2) |>.eraseDups

/-- Three successive timeouts suspend a path; where every path is suspended, all are released (R347). -/
def State.suspend (s : State) (i : Nat) (lost : List Nat) : State :=
  let q := s.qp i
  let n := fun (p : Nat) => ((q.streak.find? (fun e => e.1 == p)).map (fun e => e.2)).getD 0 + 1
  let out := lost.filter (fun p => n p == 3)
  let susp := out.foldl (fun (v : DWord) p => setBit v p true) q.pathSuspend
  let all := (List.range (max 1 q.paths.toNat)).all (fun p => bit susp p)
  (s.setQp i { q with
    streak := (lost.filter (fun p => n p != 3)).map (fun p => (p, n p)), pathSuspend := if all then 0 else susp }).each out
    (fun s p => s.raise 0x608 q.func.toNat i p)

/-- RETRANSMIT_TIMEOUT: the timer of a queue pair has expired (R346, R347). -/
def execRetransmitTimeout (qp : Fin 262144) (s : State) : Res :=
  let i := qp.val
  let q := s.qp i
  if q.st ≠ .rts ∨ !q.timerOn ∨ q.rnrPsn.isSome then .next s else
  let s := s.bump R.RTE_TIMEOUT_CNT
  let q := { q with ops := q.ops.map (fun o => if 0 < o.sent then { o with retries := o.retries + 1 } else o) }
  let s := s.setQp i q
  if q.retryCount.toNat = fld q.retry 0 4 then .next (s.qpFatal i 0x40A0 0)
  else .next (((s.setQp i { q with retryCount := q.retryCount + 1, timerStart := s.now }).resend i).suspend i q.lostPaths)

/-- PATH_RESUME: 1 ms after a path was suspended (R347). -/
def execPathResume (qp : Fin 262144) (path : Fin 64) (s : State) : Res :=
  .next (s.updQp qp.val (fun q => { q with pathSuspend := setBit q.pathSuspend path.val false }))

/-- RNR_WAIT_EXPIRE: the wait after a receiver-not-ready NAK is over (R348). -/
def execRnrWaitExpire (qp : Fin 262144) (s : State) : Res :=
  let i := qp.val
  let q := s.qp i
  if q.rnrPsn.isNone then .next s
  else .next (((s.setQp i { q with rnrPsn := none, timerOn := q.unackPsn != q.nextPsn, timerStart := s.now }).resend i).pumpQp
    i pumpFuel)

/-- RATE_INCREASE: 55 µs without a CNP (R349): 1.6 Tb/s is 12,800,000 units of 125 kb/s. -/
def execRateIncrease (qp : Fin 262144) (s : State) : Res :=
  let q := s.qp qp.val
  if q.rate = 0 then .next s else
  let n := s.scaled q.rate.toNat 5 4
  .next (s.drew.setQp qp.val { q with rate := BitVec.ofNat 24 (if 12800000 < n then 0 else n) })

/-- TRACKER_AGED: a tracker has gained no byte for TRACKER_AGE_MS (R345). -/
def execTrackerAged (tr : Fin 65536) (s : State) : Res :=
  match s.tracker tr.val with
  | none => .next s
  | some t =>
    let q := s.qp t.qp
    let s := ((s.setTracker tr.val none).bump R.RTE_TRACKER_AGED_CNT).raise 0x607 q.func.toNat t.qp (t.first.toNat % 65536)
    if t.read then
      .next (s.setQp t.qp { q with ops := q.ops.map (fun o => if o.kind = 5 ∧ o.first = t.first then { o with got := 0 } else o) })
    else match q.msgs.find? (fun m => m.first == t.first && decide (0 < m.total) && !m.whole) with
      | none => .next s
      | some m => .next (s.msgWhole t.qp { m with status := 0x40A5 })

/-- A requester operation as its descriptor makes it. What FIRST_PSN holds for one that sends no packet is left open. -/
def State.newROp (s : State) (o : RingOp) : ROp :=
  let d := o.desc
  ⟨o.no, descCode d, BitVec.ofNat 32 (fld s.fresh 0 32), 1, 0, descLen d, BitVec.ofNat 64 (descB d), BitVec.ofNat 32 (fld d 192 32),
    BitVec.ofNat 32 (fld d 224 32), padTo (descLen d) o.data, BitVec.ofNat 64 (descA d), BitVec.ofNat 64 (fld d 256 64),
    BitVec.ofNat 64 (fld d 320 64), bit d 384, 0, 0, false, 0, 0⟩

/-- Operations of queue pair `i` that have their verdict from their fetch join its work when their turn comes, and finished ones
complete in ring order (R306, R335). `fuel` bounds them. -/
def State.beginDone (s : State) (i : Nat) : Nat → State
  | 0 => s
  | fuel + 1 =>
    let r := (s.qp i).sqRing
    match (s.ring r).ops.find? (fun o => !o.started) with
    | none => s.completeOps i ((s.qp i).ops.length + 1)
    | some o => match (if o.reading then none else o.verdict) with
      | none => s.completeOps i ((s.qp i).ops.length + 1)
      | some v =>
        let x := { s.newROp o with kind := 0x12, done := true, status := v }
        (((s.drew.updRing r (fun k => k.updOp o.no (fun o => { o with started := true }))).updQp i (fun q => { q with
          ops := q.ops ++ [x] })).beginDone i fuel)

/-- As many operations as a ring can have outstanding. -/
def State.opFuel (s : State) (i : Nat) : Nat := (s.ring (s.qp i).sqRing).ops.length + 1

/-- Operation `no` of ring `r`, once it may begin, joins its queue pair's work as `g` makes it; in ERROR it is flushed, and
one with a verdict, or whose function makes no host request now, is done at once (Table 14-2, R335). -/
def State.rdmaOp (s : State) (r no op : Nat) (g : State → Qp → Ring → ROp → State × ROp) : State :=
  match s.opReady r no op, s.qpOfSq r with
  | some o, some (i, q) =>
    if q.st = .error then s.endUnrun r no 0x50A0
    else if q.st ≠ .rts then s
    else
      let s := (s.useQpc i).updRing r (fun k => k.updOp no (fun o => { o with started := true }))
      let x := s.newROp o
      let s := s.drew
      let (s, x) := match o.verdict, s.hostStop q.func.toNat with
        | some v, _ => (s, { x with kind := 0x12, done := true, status := v })
        | none, some v => (s, { x with kind := 0x12, done := true, status := v })
        | none, none => g s q (s.ring r) x
      let s := s.updQp i (fun q => { q with ops := q.ops ++ [x] })
      (s.beginDone i (s.opFuel i)).pumpQp i pumpFuel
  | _, _ => s

/-- A message of the requester: its packets, and its sequence where it consumes a buffer (R336, R339). -/
def sendRun (s : State) (q : Qp) (_ : Ring) (x : ROp) : State × ROp :=
  let uses := x.kind != 3
  let s := if uses then match s.rte.qp.find? (fun e => e.2.sqRing == q.sqRing && e.2.st != .absent) with
    | some (i, _) => s.updQp i (fun q => { q with sendSeq := q.sendSeq + 1 })
    | none => s else s
  (s, { x with count := q.packets x.total, seq := cond uses q.sendSeq 0 })

/-- RDMA_SEND. -/
def execRdmaSend (ring : BitVec 20) (no : Nat) (s : State) : Res := .next (s.rdmaOp ring.toNat no 0x3001 sendRun)

/-- RDMA_SEND_IMM. -/
def execRdmaSendImm (ring : BitVec 20) (no : Nat) (s : State) : Res := .next (s.rdmaOp ring.toNat no 0x3002 sendRun)

/-- RDMA_WRITE. -/
def execRdmaWrite (ring : BitVec 20) (no : Nat) (s : State) : Res := .next (s.rdmaOp ring.toNat no 0x3003 sendRun)

/-- RDMA_WRITE_IMM. -/
def execRdmaWriteImm (ring : BitVec 20) (no : Nat) (s : State) : Res := .next (s.rdmaOp ring.toNat no 0x3004 sendRun)

/-- RDMA_READ: a PSN for each response (R339). -/
def execRdmaRead (ring : BitVec 20) (no : Nat) (s : State) : Res :=
  .next (s.rdmaOp ring.toNat no 0x3005 (fun s q _ x => (s, { x with count := q.packets x.total })))

/-- An atomic: 8 bytes, sent only where its remote address is aligned (R334). -/
def atomicRun (s : State) (_ : Qp) (_ : Ring) (x : ROp) : State × ROp :=
  (s, if x.va.toNat % 8 = 0 then x else { x with kind := 0x12, done := true, status := 0x10A0 })

/-- CMP_SWAP. -/
def execCmpSwap (ring : BitVec 20) (no : Nat) (s : State) : Res := .next (s.rdmaOp ring.toNat no 0x3006 (fun s q k x =>
  atomicRun s q k { x with kind := 7 }))

/-- FETCH_ADD. -/
def execFetchAdd (ring : BitVec 20) (no : Nat) (s : State) : Res := .next (s.rdmaOp ring.toNat no 0x3007 (fun s q k x =>
  atomicRun s q k { x with kind := 8 }))

/-- The region entry a registration takes: a free one, which the spec does not name (R331). -/
def State.newMr (s : State) : Option Nat :=
  pickFree ((s.rte.mr.filter (fun e => e.2.valid)).map (fun e => e.1)) 1048576 (fld s.fresh 0 20)

/-- REG_MR: a free entry takes the region under its next generation (R331). A LENGTH outside Table 14-5 is
RING_BAD_LENGTH (DEDUCED). -/
def regMrRun (s : State) (q : Qp) (r : Ring) (x : ROp) : State × ROp :=
  let x := { x with kind := 0x10, done := true }
  if x.op1.toNat = 0 ∨ 1099511627776 < x.op1.toNat then (s, { x with status := 0x1092 })
  else match s.newMr with
  | none => (s, { x with status := 0x30A0 })
  | some k =>
    let gen := if (s.mr k).gen = 255 then 1 else (s.mr k).gen + 1
    (s.drew.setMr k ⟨x.addrA, x.op1, BitVec.ofNat 32 (fld x.op2 32 32), q.func, true, BitVec.ofNat 8 (fld x.op2 0 8), gen,
      BitVec.ofNat 20 (fld r.ctx 288 20)⟩, { x with rkey := BitVec.ofNat 32 (k * 256 + gen.toNat) })

/-- REG_MR. -/
def execRegMr (ring : BitVec 20) (no : Nat) (s : State) : Res := .next (s.rdmaOp ring.toNat no 0x3010 regMrRun)

/-- INVAL_MR clears VALID (R333). A key of an earlier generation names a region already cleared, and clears nothing. -/
def invalMrRun (s : State) (q : Qp) (_ : Ring) (x : ROp) : State × ROp :=
  let x := { x with kind := 0x11, done := true }
  let k := x.rkey.toNat / 256
  let m := s.mr k
  if !m.valid || m.gen.toNat != x.rkey.toNat % 256 then (s, x)
  else if m.func ≠ q.func ∨ m.pd ≠ q.pd then (s, { x with status := 0x20A1 })
  else (s.setMr k { m with valid := false }, x)

/-- INVAL_MR. -/
def execInvalMr (ring : BitVec 20) (no : Nat) (s : State) : Res := .next (s.rdmaOp ring.toNat no 0x3011 invalMrRun)

/-- An abort of operation `no` of a queue pair's submission ring with status `st` (R353): one that has sent packets ends
with the bytes acknowledged and the queue pair enters ERROR; one that has not completes at once, and the sequences given out
after its own move up. -/
def State.rdmaAbort (s : State) (r no : Nat) (st : Status) : State :=
  match s.qpOfSq r with
  | none => s.endUnrun r no st
  | some (i, q) =>
    match q.ops.find? (fun x => x.no == no) with
    | none => s.endUnrun r no st
    | some x =>
      if 0 < x.sent ∧ x.kind ≤ 8 then (s.qpFail i (some no) st 0).qpErrorEvent i st else
      let uses := x.kind == 1 || x.kind == 2 || x.kind == 4
      let ops := q.ops.map (fun y => if uses ∧ no < y.no ∧ y.kind ≤ 4 ∧ y.kind ≠ 3 then { y with seq := y.seq - 1 } else y)
      (s.setQp i { q with ops := ops, sendSeq := if uses then q.sendSeq - 1 else q.sendSeq }).endROp i x st 0 0

/-- The index for a new queue pair: RoCEv2 takes the lowest free one (R326); which free one a multipath queue pair takes the
spec does not say. -/
def State.newQpIndex (s : State) (mp : Bool) : Option Nat :=
  let used := (s.rte.qp.filter (fun e => e.2.st != .absent)).map (fun e => e.1)
  if mp then pickFree used 262144 (fld s.fresh 0 18)
  else
    let k := firstFree used used.length 2
    if k < 65536 then some k else none

/-- The queue pairs of function `f`. -/
def State.qpsOf (s : State) (f : Nat) : List Nat :=
  (s.rte.qp.filter (fun e => e.2.st != .absent && e.2.func.toNat == f)).map (fun e => e.1)

/-- Whether QP_CREATE's arguments lie within their rows (Table 14-3). -/
def State.qpArgsOk (s : State) (ch : Nat) (b : Bytes) : Bool :=
  let f := leAt b 0 2
  let paths := leAt b 3 1
  decide (f < 4104) && (f == ch || ch == s.manager) && decide (leAt b 2 1 < 8) && decide (1 ≤ paths) && decide (paths ≤ 64) &&
  (bit (BitVec.ofNat 8 (leAt b 2 1)) 0 || paths == 1) && decide (leAt b 8 4 < 16777216) && decide (leAt b 12 4 < 1048576) &&
  decide (leAt b 16 4 < 1048576) && leAt b 20 8 % 256 == 0 && leAt b 28 4 == 0

/-- Why a ring cannot serve a new queue pair as submission (`type` 0) or receive ring (1). -/
def State.qpRing (s : State) (f r type : Nat) : Option Status :=
  let k := s.ring r
  if !s.ownsRing f r then some 0x2071
  else if k.st = .absent then some 0x3091
  else if ctxType k.ctx ≠ type ∨ (type = 0 ∧ ctxClass k.ctx ≠ 3) then some 0x1094
  else if (s.qpOfSq r).isSome ∨ (s.qpOfRq r).isSome then some 0x3093
  else none

/-- QP_CREATE (code 0x68, R324 to R326). -/
def execQpCreate (ch : BitVec 13) (seq : BitVec 4) (s : State) : Res :=
  .next (s.gcs ch seq 0x68 (fun s c =>
    let b := padTo 32 c.args
    let f := leAt b 0 2
    let flags := BitVec.ofNat 8 (leAt b 2 1)
    let sq := leAt b 12 4
    let rq := leAt b 16 4
    if !s.qpArgsOk ch.toNat b then (s, .badArg) else
    match s.qpRing f sq 0, (if rq = 0xFFFFF then none else s.qpRing f rq 1) with
    | some st, _ => (s, .no st)
    | none, some st => (s, .no st)
    | none, none =>
      match (if (s.inst f).alloc.qpQuota ≤ (s.qpsOf f).length then none else s.newQpIndex (bit flags 0)) with
      | none => (s, .done 0x3070 7 [])
      | some i =>
        let g := (s.qp i).gen
        let q : Qp := { Qp.absent with
          gen := if g = 255 then 1 else g + 1, st := .reset, func := BitVec.ofNat 13 f, qpcAddr := BitVec.ofNat 64 (leAt b 20 8)
          flags := flags, paths := BitVec.ofNat 8 (leAt b 3 1), retry := 0x77, pd := BitVec.ofNat 32 (leAt b 4 4)
          partition := BitVec.ofNat 32 (leAt b 8 4), sqRing := sq, rqRing := rq }
        let (s, room) := s.drew.qpcRoom
        (((s.setQp i q).if_ room (fun s => s.setQpcCache (i :: s.rte.cached.filter (· ≠ i)))), .ok (q.handle i))))

/-- The queue pair a handle names for a sender: none where it names no present one, and whether another function owns it. -/
def State.qpNamed (s : State) (ch h : Nat) : Option (Nat × Bool) :=
  let i := h % 262144
  let q := s.qp i
  if q.st = .absent ∨ q.gen.toNat ≠ h / 262144 then none
  else some (i, q.func.toNat == ch || ch == s.manager)

/-- A queue pair as in RESET: everything that its work has changed is as at its creation (DESIGN CHOICE). -/
def Qp.cleared (q : Qp) : Qp :=
  { Qp.absent with
    gen := q.gen, st := .reset, func := q.func, qpcAddr := q.qpcAddr, flags := q.flags, paths := q.paths, mtu := q.mtu
    retry := q.retry, dscp := q.dscp, pd := q.pd, partition := q.partition, sqRing := q.sqRing, rqRing := q.rqRing
    remoteQp := q.remoteQp, localAddr := q.localAddr, remoteAddr := q.remoteAddr }

/-- Whether anything of a queue pair is outstanding. -/
def State.qpBusy (s : State) (i : Nat) : Bool :=
  let q := s.qp i
  !(s.ring q.sqRing).ops.isEmpty || q.rq.any (fun r => decide (0 < (s.ring r).outstanding)) ||
    !(s.laybyOf i).isEmpty

/-- Whether an address is one of its version's (Table 4-7). -/
def addrOk (v6 : Bool) (a : Nat) : Bool := v6 || decide (a < 4294967296)

/-- Trackers of queue pair `i` are freed. -/
def State.freeTrackers (s : State) (i : Nat) : State := s.each (s.trackersOf i) (fun s e => s.setTracker e.1 none)

/-- QP_MODIFY (code 0x69, Tables 14-2 and 14-3): the transitions, each with the bytes it names. -/
def State.qpModify (s : State) (i : Nat) (b : Bytes) : State × Reply :=
  let q := s.qp i
  let mtu := leAt b 5 1
  let la := leAt b 20 16
  let ra := leAt b 36 16
  let psnOk := fun (p : Nat) => q.multipath || decide (p < 16777216)
  let done := fun (s : State) => (s.writeBack i, Reply.ok 0)
  match q.st, leAt b 4 1 with
  | .reset, 1 =>
    if mtu = 0 ∨ 5 < mtu then (s, .badArg)
    else done (s.setQp i { q with st := .init, mtu := BitVec.ofNat 8 mtu })
  | .init, 2 =>
    if mtu = 0 ∨ 5 < mtu ∨ 67108864 ≤ leAt b 8 4 ∨ !psnOk (leAt b 12 4) ∨ !addrOk q.v6 la ∨ !addrOk q.v6 ra then (s, .badArg)
    else done (s.setQp i { q with
      st := .rtr, mtu := BitVec.ofNat 8 mtu, remoteQp := BitVec.ofNat 32 (leAt b 8 4)
      expectPsn := BitVec.ofNat 32 (leAt b 12 4), localAddr := BitVec.ofNat 128 la, remoteAddr := BitVec.ofNat 128 ra })
  | .rtr, 3 =>
    if 64 ≤ leAt b 7 1 ∨ !psnOk (leAt b 16 4) then (s, .badArg)
    else done (s.setQp i { q with
      st := .rts, retry := BitVec.ofNat 8 (leAt b 6 1), dscp := BitVec.ofNat 8 (leAt b 7 1)
      nextPsn := BitVec.ofNat 32 (leAt b 16 4), unackPsn := BitVec.ofNat 32 (leAt b 16 4) })
  | .init, 4 | .rtr, 4 | .rts, 4 =>
    let code := BitVec.ofNat 16 (fld s.fresh 0 16)
    done ((s.drew.qpFail i none 0x50A0 0).qpErrorEvent i code)
  | .error, 0 => if s.qpBusy i then (s, .no 0x30A1) else done ((s.freeTrackers i).setQp i q.cleared)
  | _, _ => (s, .no 0x30A1)

/-- QP_MODIFY. -/
def execQpModify (ch : BitVec 13) (seq : BitVec 4) (s : State) : Res :=
  .next (s.gcs ch seq 0x69 (fun s c =>
    let b := padTo 52 c.args
    if 67108864 ≤ leAt b 0 4 ∨ 4 < leAt b 4 1 then (s, .badArg) else
    match s.qpNamed ch.toNat (leAt b 0 4) with
    | none => (s, .no 0x30A1)
    | some (_, false) => (s, .notOwned)
    | some (i, true) => (s.useQpc i).qpModify i b))

/-- QP_DESTROY (code 0x6A): what is outstanding completes, and the index is free for its next generation. -/
def execQpDestroy (ch : BitVec 13) (seq : BitVec 4) (s : State) : Res :=
  .next (s.gcs ch seq 0x6A (fun s c =>
    if 67108864 ≤ c.imm then (s, .badArg) else
    match s.qpNamed ch.toNat c.imm with
    | some (i, true) =>
      let s := (((s.useQpc i).qpFail i none 0x50A0 0).freeTrackers i).writeBack i
      let s := s.setQpcCache (s.rte.cached.filter (· ≠ i))
      (s.setQp i { Qp.absent with gen := (s.qp i).gen }, .ok 0)
    | _ => (s, .notOwned)))

/-- A tracker as the window shows it. -/
def Tracker.bytes (t : Tracker) : Bytes :=
  leBytes 4 (at' 1 31 + at' (b2n t.read) 30 + t.qp) ++ bvBytes t.first ++ leBytes 4 t.total ++ leBytes 4 t.counted ++
    bvBytes t.tFirst ++ bvBytes t.tLast

/-- A region entry as the window shows it (Table 14-5). -/
def Mr.bytes (m : Mr) : Bytes :=
  bvBytes m.base ++ bvBytes m.len ++ bvBytes m.pd ++ leBytes 2 (m.func.toNat + at' (b2n m.valid) 15) ++ bvBytes m.access ++
    bvBytes m.gen ++ leBytes 4 m.pasid.toNat ++ leBytes 4 0

/-- The object that RTE_IND_CTL names (Table 14-19). -/
def State.rteObject (s : State) (kind i : Nat) : Option Bytes :=
  let q := s.qp i
  match kind with
  | 0 => if i < 262144 then some (leBytes 2 (q.func.toNat + at' (b2n (q.st != .absent)) 15) ++ bvBytes q.gen ++ bvBytes q.st.code ++
      leBytes 4 0 ++ bvBytes q.qpcAddr) else none
  | 1 => if i < 262144 then some (if q.st = .absent then List.replicate 256 0 else q.bytes i) else none
  | 2 => if i < 65536 then some (((s.tracker i).map Tracker.bytes).getD (List.replicate 32 0)) else none
  | 3 => if i < 1048576 then some (s.mr i).bytes else none
  | _ => none

/-- RTE_IND_READ: RTE_IND_CTL written with OP 0b01 or 0b10 (Table 14-19). Data registers beyond the object keep their
values. -/
def execRteIndRead (v : Word) (s : State) : Res :=
  if s.blockHeld 12 then .next s else
  let s := s.wr R.RTE_IND_CTL ((v &&& 0xF81FFFFF).setWidth 64)
  match fld v 30 2, s.rteObject (fld v 27 3) (fld v 0 21) with
  | 1, some b => .next ((s.each (List.range (b.length / 4)) (fun s k =>
      s.wr (R.RTE_IND_DATA k) (BitVec.ofNat 64 (leAt b (4 * k) 4)))).wr R.RTE_IND_STATUS 0x80000000)
  | 1, none | 2, _ => .next (s.wr R.RTE_IND_STATUS 0xC0000000)
  | _, _ => .next s

end Sys2Proof.Machine
end

