-- ==== Sys2Proof/Machine/RingCmd.lean ====
section
/-!
DEFINITION. Machine/RingCmd.lean: the ring commands and the Ring Manager's window (R294 to R297, R311, R319, R320, Tables
13-15 to 13-17).
-/
namespace Sys2Proof.Machine
open Sys2Proof

/-- Whether leaf queue `l` lies under the subscriber nodes of function `f` (Tables 6-1, 11-5). -/
def State.ownsLeaf (s : State) (f l : Nat) : Bool :=
  let a := (s.inst f).alloc
  (s.inst f).st != .absent && decide (a.subBase ≤ l / 4) && decide (l / 4 < a.subBase + a.subCount)

/-- The function whose allocation holds ring ID `r`. -/
def State.ringOwner (s : State) (r : Nat) : Option Nat := (s.fnm.inst.find? (fun e => s.ownsRing e.1 r)).map (fun e => e.1)

/-- The function for which a sender creates ring `r`: itself, or for the manager whoever holds the ID (R287). -/
def State.ringFor (s : State) (ch r : Nat) : Option Nat :=
  if s.ownsRing ch r then some ch else if ch = s.manager then s.ringOwner r else none

/-- Whether a context's reserved bits are 0 and its fields within their rows (R278, Table 13-3). -/
def ctxArgsOk (b : Bytes) : Bool :=
  let c := bytesBv 512 b
  let t := ctxType c
  fld c 20 12 == 0 && fld c 51 5 == 0 && (t == 1 || !bit c 49) && (decide (2 ≤ t) || !bit c 50) && fld c 212 12 == 0 &&
  (decide (t < 2) || (decide (ctxVector c < 2048) && decide (fld c 240 16 ≤ 4096))) && fld c 280 8 == 0 &&
  fld c 308 12 == 0 && (t != 1 || (fld c 338 6 == 0 && fld c 347 5 == 0 && decide (ctxSpread c ≤ 4))) && fld c 352 160 == 0

/-- Whether TYPE, LOG2_SIZE, CLASS and the alignments are right (R295). -/
def ctxShapeOk (c : BitVec 512) : Bool :=
  let t := ctxType c
  decide (t < 4) && decide (6 ≤ ctxLog c) && decide (ctxLog c ≤ 15) && ctxBase c % 4096 == 0 && ctxIndexAddr c % 64 == 0 &&
  (t != 0 || decide (ctxClass c ∈ [1, 3, 4, 5])) && (t != 1 || ctxClass c == 2)

/-- Whether the base of a receive group is ring `r` itself (R311). -/
def isGroupBase (c : BitVec 512) (r : Nat) : Bool := ctxType c == 1 && r % 2 ^ ctxSpread c == 0

/-- The check of a whole ring context before anything is written: the ring's function, or the status (R295). -/
def State.ctxCheck (s : State) (ch : Nat) (b : Bytes) : Except Status Nat :=
  let c := bytesBv 512 b
  let r := fld c 0 20
  if !ctxArgsOk b then .error 0x1082
  else if !ctxShapeOk c then .error 0x1094
  else match s.ringFor ch r with
  | none => .error 0x2071
  | some f =>
    let t := ctxType c
    let q := s.ring (ctxCq c)
    if (t < 2 ∧ !s.ownsRing f (ctxCq c)) ∨ (2 ≤ t ∧ s.vectors f ≤ ctxVector c) ∨ (t = 1 ∧ !s.ownsLeaf f (ctxLeaf c)) then
      .error 0x2071
    else if t < 2 ∧ (q.st = .absent ∨ ctxType q.ctx ≠ 2 ∨ q.func ≠ f) then .error 0x1094
    else if (s.ring r).st ≠ .absent then .error 0x3092
    else .ok f

/-- The state a live ring has by its instance's (Table 13-4). -/
def State.ringLive (s : State) (f : Nat) : RingSt := if (s.inst f).st = .active then .active else .held

/-- RING_CREATE (code 0x20). -/
def execRingCreate (ch : BitVec 13) (seq : BitVec 4) (s : State) : Res :=
  .next (s.gcs ch seq 0x20 (fun s c =>
    let b := padTo 64 c.args
    let x := bytesBv 512 b
    let r := fld x 0 20
    match s.ctxCheck ch.toNat b with
    | .error st => (s, .no st)
    | .ok f =>
      let s := s.setRing r { Ring.absent with ctx := x, func := f, st := s.ringLive f, nextOp := (s.ring r).nextOp }
      (s.if_ (isGroupBase x r) (fun s =>
        s.setDeliver (ctxLeaf x) (BitVec.ofNat 32 (at' 1 31 + at' (ctxSpread x) 24 + r))), .ok r)))

/-- Ring `r` is gone: it holds no ring, its context leaves the cache, and an index read of it still out serves nothing. -/
def State.ringGone (s : State) (r : Nat) : State :=
  let k := s.ring r
  let s := (s.setRing r { Ring.absent with nextOp := k.nextOp }).dropOwner (.indexRead r)
  { s with rings := { s.rings with
    cached := s.rings.cached.filter (· ≠ r), waiting := s.rings.waiting.filter (fun e => e.1 != r) } }

/-- NOP_DESCRIPTOR (R307): on a submission ring of a queue pair in its ring order, and on any ring of one in ERROR with QP_FLUSHED
(Table 14-2, R335). -/
def execNopDescriptor (ring : BitVec 20) (no : Nat) (s : State) : Res :=
  let r := ring.toNat
  .next (if (s.qpOfSq r).isSome then s.rdmaOp r no 0 (fun s _ _ x => (s, { x with kind := 0x12, done := true }))
    else s.runOp r no 0 false (fun s _ o =>
      s.endOp r o.no (if (s.qpOfRq r).any (fun e => e.2.st == .error) then 0x50A0 else 0) 0 []))

/-- The delivery entry that a group base wrote is no longer valid (R311). -/
def State.clearDeliver (s : State) (r : Nat) : State :=
  let c := (s.ring r).ctx
  if isGroupBase c r && (s.ring r).st != .absent then
    s.setDeliver (ctxLeaf c) (setBit (s.deliverEntry (ctxLeaf c)) 31 false)
  else s

/-- One outstanding operation ends unfinished with status `st` (R319 step 2, R353). -/
def State.abortOp (s : State) (r : Nat) (o : RingOp) (st : Status) : State :=
  if descClass o.desc = 3 then s.rdmaAbort r o.no st
  else s.drew.endOp r o.no st (cond o.started o.bytesDone 0) (s.endBytes o)

/-- One receive buffer, held or lent to a message, completes unfilled with status `st`. -/
def State.abortBuf (s : State) (r : Nat) (d : BitVec 512) (st : Status) : State :=
  (s.updRing r (fun k => { k with buffers := k.buffers.filter (· ≠ d), lent := k.lent.filter (· ≠ d) })).complete r d st 0 []

/-- Every outstanding operation and buffer of ring `r` ends with status `st`. -/
def State.abortAll (s : State) (r : Nat) (st : Status) : State :=
  let s := s.each (s.ring r).ops (fun s o => if ((s.ring r).op o.no).isSome then s.abortOp r o st else s)
  s.each ((s.ring r).buffers ++ (s.ring r).lent) (fun s d => s.abortBuf r d st)

/-- The ring a command names, for a sender that owns it (R265, Table 13-13). -/
def State.ringNamed (s : State) (ch r : Nat) : Except Status Ring :=
  if (s.ringFor ch r).isNone then .error 0x2071
  else if (s.ring r).st = .absent then .error 0x3091
  else .ok (s.ring r)

/-- Whether a completion ring still serves: rings are bound to it, or it has a backlog (R320). -/
def State.cqInUse (s : State) (r : Nat) : Bool :=
  s.rings.ring.any (fun e => e.2.boundTo r) || !(s.ring r).backlog.isEmpty

/-- RING_DESTROY (code 0x21, R320). Table 13-4 gives no destroy from FROZEN or DESTROYING: RING_IN_USE (DEDUCED). -/
def execRingDestroy (ch : BitVec 13) (seq : BitVec 4) (s : State) : Res :=
  .next (s.gcs ch seq 0x21 (fun s c =>
    if 1048576 ≤ c.imm then (s, .badArg) else
    match s.ringNamed ch.toNat c.imm with
    | .error st => (s, .no st)
    | .ok k =>
      if k.st = .frozen ∨ k.st = .destroying ∨ (2 ≤ ctxType k.ctx ∧ s.cqInUse c.imm) then (s, .no 0x3093) else
      let s := (s.clearDeliver c.imm).updRing c.imm (fun k =>
        { k with st := .destroying, waiter := some (ch.toNat, seq.toNat) })
      ((s.abortAll c.imm 0x5090), .wait)))

/-- RING_DESTROY_DONE: the last outstanding completion has been committed (Table 13-4). -/
def execRingDestroyDone (ring : BitVec 20) (s : State) : Res :=
  let r := ring.toNat
  let k := s.ring r
  if k.st ≠ .destroying ∨ 0 < k.outstanding then .next s
  else .next (((s.ringGone r).ctxPump).finish k.waiter 0 0)

/-- RING_RESTART (code 0x22, R238, R296). -/
def execRingRestart (ch : BitVec 13) (seq : BitVec 4) (s : State) : Res :=
  .next (s.gcs ch seq 0x22 (fun s c =>
    if 1048576 ≤ c.imm then (s, .badArg) else
    match s.ringNamed ch.toNat c.imm with
    | .error st => (s, .no st)
    | .ok k =>
      if k.st ≠ .bmLost then (s, .ok 0)
      else if !(s.fn k.func).bme then (s, .no 0x2060)
      else
        let s := (s.setRing c.imm { k with st := .active, marked := false }).askIndex c.imm
        (s.drainBacklog c.imm, .ok 0)))

/-- RING_ABORT (code 0x23, R319): `tags` are those of the descriptors between the device's C and the P last accepted, which
the Ring Manager reads without consuming them. -/
def execRingAbort (ch : BitVec 13) (seq : BitVec 4) (tags : List (BitVec 16)) (s : State) : Res :=
  .next (s.gcs ch seq 0x23 (fun s c =>
    if 68719476736 ≤ c.imm then (s, .badArg) else
    let r := c.imm % 1048576
    let tag := c.imm / 1048576
    match s.ringNamed ch.toNat r with
    | .error st => (s, .no st)
    | .ok k =>
      match k.ops.find? (fun o => descTag o.desc == tag), (k.buffers ++ k.lent).find? (fun d => descTag d == tag) with
      | some o, _ => ((s.bump R.RING_ABORT_CNT).abortOp r o 0x5090, .ok 0)
      | none, some d => ((s.bump R.RING_ABORT_CNT).abortBuf r d 0x5090, .ok 0)
      | none, none =>
        let waits := ctxType k.ctx < 2 && decide (BitVec.ofNat 16 tag ∈ tags.take k.fill)
        match (if ctxType k.ctx < 2 ∧ 0 < k.fill then s.hostStop k.func else none) with
        | some st => (s, .no st)
        | none =>
          if waits then
            ((s.bump R.RING_ABORT_CNT).setRing r { k with
              abortTags := k.abortTags.filter (· ≠ BitVec.ofNat 16 tag) ++ [BitVec.ofNat 16 tag] }, .ok 1)
          else (s.bump R.RING_ABORT_MISSED_CNT, .no 0x3090)))

/-- LEV_RING_BIND (code 0x24): the event ring that takes the learning events of a carriageway instance (R110, R294). -/
def execLevRingBind (ch : BitVec 13) (seq : BitVec 4) (s : State) : Res :=
  .next (s.gcs ch seq 0x24 (fun s c =>
    let i := fld c.arg 20 3
    let r := fld c.arg 0 20
    let set := fun (v : Option Nat) =>
      { s with rtbl := { s.rtbl with levRing := mapSet (fun _ => none) s.rtbl.levRing i v } }
    if 16777216 ≤ c.imm ∨ 4 < i then (s, .badArg)
    else if bit c.arg 23 then (set none, .ok 0)
    else if (s.ring r).st = .absent then (s, .no 0x3091)
    else if ctxType (s.ring r).ctx ≠ 3 then (s, .badArg)
    else (set (some r), .ok 0)))

/-- The ring state record of Table 13-17. -/
def State.ringRecord (s : State) (r : Nat) : Bytes :=
  let k := s.ring r
  if k.st = .absent then List.replicate 64 0 else
  let t := ctxType k.ctx
  let stopped := decide (t < 2) && !(s.ring (ctxCq k.ctx)).backlog.isEmpty
  let held := if t = 1 then k.buffers.length + k.lent.length else if t = 2 then k.backlog.length else 0
  let out := if t < 2 then k.outstanding else if t = 2 then s.cqOut r else 0
  bvBytes k.p ++ bvBytes k.c ++ bvBytes k.st.code ++
  leBytes 1 (b2n k.marked + at' (b2n (decide (r ∈ s.rings.cached))) 1 + at' (b2n stopped) 2) ++ leBytes 2 held ++
  leBytes 4 out ++ bvBytes k.hint ++ leBytes 2 0 ++ bvBytes k.entries ++ bvBytes k.doorbells ++ bvBytes k.lastDb ++
  bvBytes k.malformed ++ bvBytes k.dropOrBacklog ++ bvBytes k.indexBad

/-- The object that RING_IND_CTL names (Table 13-16). -/
def State.ringObject (s : State) (kind i : Nat) : Option Bytes := match kind with
  | 0 => some (bvBytes (s.ring i).ctx)
  | 1 => some (s.ringRecord i)
  | 2 => if i < 262144 then some (bvBytes (s.deliverEntry i)) else none
  | _ => none

/-- RING_IND_READ: RING_IND_CTL written with OP 0b01. Data registers beyond the object keep their values. -/
def execRingIndRead (v : Word) (s : State) : Res :=
  if s.blockHeld 3 ∨ fld v 30 2 ≠ 1 then .next s else
  let s := s.wr R.RING_IND_CTL ((v &&& 0xF00FFFFF).setWidth 64)
  match s.ringObject (fld v 28 2) (fld v 0 20) with
  | none => .next (s.wr R.RING_IND_STATUS 0xC0000000)
  | some b => .next ((s.each (List.range (b.length / 4)) (fun s k =>
      s.wr (R.RING_IND_DATA k) (BitVec.ofNat 64 (leAt b (4 * k) 4)))).wr R.RING_IND_STATUS 0x80000000)

/-- RING_IND_WRITE: RING_IND_CTL written with OP 0b10: a delivery entry. -/
def execRingIndWrite (v : Word) (s : State) : Res :=
  if s.blockHeld 3 ∨ fld v 30 2 ≠ 2 then .next s else
  let s := s.wr R.RING_IND_CTL ((v &&& 0xF00FFFFF).setWidth 64)
  if fld v 28 2 ≠ 2 ∨ 262144 ≤ fld v 0 20 then .next (s.wr R.RING_IND_STATUS 0xC0000000)
  else .next ((s.setDeliver (fld v 0 20) ((s.rd (R.RING_IND_DATA 0)).setWidth 32 &&& 0x870FFFFF)).wr
    R.RING_IND_STATUS 0x80000000)

end Sys2Proof.Machine
end

