-- ==== Sys2Proof/Machine/SceCore.lean ====
section
/-!
DEFINITION. Machine/SceCore.lean: storage controllers: queues and completions, what a command moves, and back-end commands
over the connections (R356 to R373). Formats and codes that the spec takes from NVM Express 2.0 and NVMe/TCP without
restating them are PRESUMED from those specifications.
-/
namespace Sys2Proof.Machine
open Sys2Proof

def State.ctrl (s : State) (f : Nat) : Ctrl := mapGet (fun _ => Ctrl.reset) s.sce.ctrl f

def State.setCtrl (s : State) (f : Nat) (c : Ctrl) : State :=
  { s with sce := { s.sce with ctrl := mapSet (fun _ => Ctrl.reset) s.sce.ctrl f c } }

def State.updCtrl (s : State) (f : Nat) (g : Ctrl → Ctrl) : State := s.setCtrl f (g (s.ctrl f))

def qKey (f q : Nat) : Nat := f * 2048 + q

def State.nvSq (s : State) (f q : Nat) : NvQueue := mapGet (fun _ => NvQueue.absent) s.sce.sq (qKey f q)

def State.setNvSq (s : State) (f q : Nat) (k : NvQueue) : State :=
  { s with sce := { s.sce with sq := mapSet (fun _ => NvQueue.absent) s.sce.sq (qKey f q) k } }

def State.nvCq (s : State) (f q : Nat) : NvQueue := mapGet (fun _ => NvQueue.absent) s.sce.cq (qKey f q)

def State.setNvCq (s : State) (f q : Nat) (k : NvQueue) : State :=
  { s with sce := { s.sce with cq := mapSet (fun _ => NvQueue.absent) s.sce.cq (qKey f q) k } }

def State.nsEntry (s : State) (n : Nat) : NsEntry := mapGet (fun _ => NsEntry.empty) s.sce.ns n

def State.setNsEntry (s : State) (n : Nat) (e : NsEntry) : State :=
  { s with sce := { s.sce with ns := mapSet (fun _ => NsEntry.empty) s.sce.ns n e } }

/-- The namespace entry that controller `f` has as NSID `n`. -/
def State.attached (s : State) (f n : Nat) : Option Nat :=
  let v := mapGet (fun _ => 0) s.sce.attach (f * 1025 + n)
  if 1 ≤ n ∧ n ≤ 1024 ∧ 0 < v then some (v - 1) else none

def State.setAttached (s : State) (f n : Nat) (v : Nat) : State :=
  { s with sce := { s.sce with attach := mapSet (fun _ => 0) s.sce.attach (f * 1025 + n) v } }

/-- The NSIDs of controller `f`, ascending. -/
def State.nsids (s : State) (f : Nat) : List Nat :=
  (s.sce.attach.filter (fun e => e.1 / 1025 == f && e.1 % 1025 != 0)).map (fun e => e.1 % 1025)

def State.conn (s : State) (k : Nat) : Conn := mapGet (fun _ => Conn.closed) s.sce.conn k

def State.setConn (s : State) (k : Nat) (c : Conn) : State :=
  { s with sce := { s.sce with conn := mapSet (fun _ => Conn.closed) s.sce.conn k c } }

def State.updConn (s : State) (k : Nat) (g : Conn → Conn) : State := s.setConn k (g (s.conn k))

/-- CNTLID (R356). -/
def cntlid (f : Nat) : Nat := f + 1

/-- Whether function `f` is a storage controller (R356). -/
def State.isStorage (s : State) (f : Nat) : Bool := (s.inst f).st != .absent && (s.inst f).persona == 1

/-- Fields of a submission queue entry (NVM Express). -/
def NCmd.op (c : NCmd) : Nat := fld c.sqe 0 8
def NCmd.cid (c : NCmd) : Nat := fld c.sqe 16 16
def NCmd.nsid (c : NCmd) : Nat := fld c.sqe 32 32
def NCmd.dw (c : NCmd) (k : Nat) : Nat := fld c.sqe (32 * k) 32

def State.cmd (s : State) (slot : Nat) : Option NCmd := s.sce.cmds.find? (fun c => c.slot == slot)

def State.updCmd (s : State) (slot : Nat) (g : NCmd → NCmd) : State :=
  { s with sce := { s.sce with cmds := s.sce.cmds.map (fun c => if c.slot = slot then g c else c) } }

/-- The I/O commands of controller `f` in flight. -/
def State.ioOut (s : State) (f : Nat) : List NCmd := s.sce.cmds.filter (fun c => c.func == f && c.sq != 0)

/-- A run of bytes with some fields laid over it. -/
def overlay (b : Bytes) (l : List (Nat × Bytes)) : Bytes := l.foldl (fun b e => patch b e.1 e.2) b

/-- The interrupt of a completion queue (Table 15-2): INTMS masks it only while MSI-X is disabled. -/
def State.nvIntr (s : State) (f q : Nat) : State :=
  let k := s.nvCq f q
  let h := s.fn f
  if !k.ien || (!h.msixEnable && bit (s.ctrl f).intm k.vector) then s
  else if h.msixEnable || h.msiEnable then s.message f k.vector (.nvmeCq f q)
  else if f < 8 then s.toIntx f
  else s

/-- A completion entry written at the tail of completion queue `q`. -/
def State.nvWrite (s : State) (f q : Nat) (e : BitVec 128) : State :=
  let k := s.nvCq f q
  let last := decide (k.size ≤ k.tail + 1)
  let s := s.setNvCq f q { k with tail := if last then 0 else k.tail + 1, phase := k.phase != last }
  (s.hostWrite f none (k.base + BitVec.ofNat 64 (16 * k.tail)) (bvBytes (setBit e 112 k.phase)) false).nvIntr f q

/-- Whether a completion queue has no room. -/
def NvQueue.full (k : NvQueue) : Bool := (k.tail + 1) % max 1 k.size == k.head

/-- A completion entry posted, or kept while the queue is full or the function can make no host request (R237, R481). -/
def State.nvPut (s : State) (f q : Nat) (e : BitVec 128) : State :=
  let k := s.nvCq f q
  if !k.live then s
  else if k.full || !k.waiting.isEmpty || (s.hostStop f).isSome then s.setNvCq f q { k with waiting := k.waiting ++ [e] }
  else s.nvWrite f q e

/-- Kept entries enter as far as there is room. -/
def State.nvDrain (s : State) (f q : Nat) : Nat → State
  | 0 => s
  | fuel + 1 =>
    let k := s.nvCq f q
    match k.waiting with
    | [] => s
    | e :: rest => if k.full || (s.hostStop f).isSome then s else ((s.setNvCq f q { k with waiting := rest }).nvWrite f q e).nvDrain f q fuel

/-- The status field of a completion entry for a status in the layout of R364: DNR, SCT, SC. -/
def cqeStatus (st : Nat) : Nat := st % 2048 + at' (st / 2048 % 2) 14

/-- The kept entries of every completion queue of a controller enter as far as there is room. -/
def State.nvDrainAll (s : State) (f : Nat) : State :=
  s.each (s.sce.cq.filter (fun e => e.1 / 2048 == f)) (fun s e => s.nvDrain f (e.1 % 2048) e.2.waiting.length)

/-- CAP, as every controller reads it (Table 15-2). -/
def nvCap : DWord :=
  BitVec.ofNat 64 (at' 1 59 + at' 4 52 + at' 1 37 + at' 20 24 + at' 1 16 + 16383)

/-- CSTS: RDY, CFS and SHST (Table 15-3). A controller made FATAL by an invalid value has not become ready; whether RDY stays
after an internal error of a READY one the spec leaves open, and the model reads 0 (DESIGN CHOICE, log entry 60). -/
def Ctrl.csts (c : Ctrl) : Word :=
  BitVec.ofNat 32 (at' (b2n c.cfs) 1 + match c.st with
    | .disabled | .fatal => 0
    | .ready => 1
    | .shutting => 0b0101
    | .shutdown => 0b1001)

/-- The 32 bits at offset `o` of the NVMe controller registers of function `f`, as its driver reads them (Table 15-1; the offsets
are PRESUMED from NVM Express). A read has no effect; INTMS and INTMC both read the mask. -/
def State.nvmeRead (s : State) (f o : Nat) : Word :=
  let c := s.ctrl f
  let half := fun (v : DWord) (hi : Bool) => BitVec.ofNat 32 (v.toNat >>> (if hi then 32 else 0))
  match o with
  | 0x00 => half nvCap false
  | 0x04 => half nvCap true
  | 0x08 => 0x00020000
  | 0x0C | 0x10 => c.intm
  | 0x14 => c.cc
  | 0x1C => c.csts
  | 0x24 => c.aqa
  | 0x28 => half c.asq false
  | 0x2C => half c.asq true
  | 0x30 => half c.acq false
  | 0x34 => half c.acq true
  | _ => 0

/-- A command completes: its entry, its counts, and it is no longer in flight. -/
def State.nvEnd0 (s : State) (slot st dw0 : Nat) : State :=
  match s.cmd slot with
  | none => s
  | some c =>
    let s := { s with sce := { s.sce with cmds := s.sce.cmds.filter (fun x => x.slot != slot) } }.bump R.SCE_CMD_CNT
    let q := s.nvSq c.func c.sq
    let e := BitVec.ofNat 128 (dw0 + at' (q.head + at' c.sq 16) 64 + at' (c.cid + at' (cqeStatus st) 17) 96)
    (s.updCtrl c.func (fun x => { x with
      commands := x.commands + 1, errors := if st = 0 then x.errors else x.errors + 1, lastTime := s.now
      readCmds := x.readCmds + BitVec.ofNat 64 (b2n (c.sq != 0 && c.op == 2))
      writeCmds := x.writeCmds + BitVec.ofNat 64 (b2n (c.sq != 0 && c.op == 1)) })).nvPut
        c.func q.cq e

/-- A power state entry finishes once no I/O command is outstanding (R373). -/
def State.psCheck (s : State) (f : Nat) : State :=
  match (s.ctrl f).psEntry with
  | none => s
  | some p =>
    if !(s.ioOut f).isEmpty then s else
    let s := s.updCtrl f (fun c => { c with ps := p, lastOper := if p.toNat < 2 then p else c.lastOper, psEntry := none })
    let s := s.raise 0x686 f (cntlid f) p.toNat
    match s.sce.cmds.find? (fun c => c.func == f && c.sq == 0 && c.op == 9 && c.waiting) with
    | some c => s.nvEnd0 c.slot 0 0
    | none => s

/-- A command completes with a status in the layout of R364 and dword 0; an Abort that waits for it learns the outcome
(R371). -/
def State.nvEnd (s : State) (slot st dw0 : Nat) : State :=
  match s.cmd slot with
  | none => s
  | some c =>
    let s := s.nvEnd0 slot st dw0
    let s := match c.aborter with
      | some a => s.nvEnd0 a 0 (if st % 2048 = 7 then 0 else 1)
      | none => s
    s.psCheck c.func

/-- A command fails with a status the SCE makes itself; the spec leaves its Do Not Retry bit open. -/
def State.nvFail (s : State) (slot code : Nat) : State := s.drew.nvEnd slot (code + at' (fld s.fresh 0 1) 11) 0

/-- An asynchronous event: reported through an outstanding request, or kept until there is one. -/
def State.asyncEvent (s : State) (f : Nat) (w : Word) (keep : Bool) : State :=
  match s.sce.cmds.find? (fun c => c.func == f && c.sq == 0 && c.op == 0x0C && c.waiting) with
  | some c => s.nvEnd c.slot 0 w.toNat
  | none => if keep then s.updCtrl f (fun c => { c with events := c.events.filter (· ≠ w) ++ [w] }) else s

/-- Skips the first `n` bytes of a list of host ranges. -/
def rangesFrom : List (Nat × Nat) → Nat → List (Nat × Nat)
  | [], _ => []
  | (a, l) :: r, n => if n < l then (a + n, l - n) :: r else rangesFrom r (n - l)

/-- Bytes written over host ranges, with the function's routing ID and no PASID (R365), up to a write that fails; true where none
does. -/
def State.scatter (s : State) (f : Nat) : List (Nat × Nat) → Bytes → State × Bool
  | [], _ => (s, true)
  | (a, l) :: r, b =>
    if b.isEmpty then (s, true) else
    let t := s.hostWrite f none (BitVec.ofNat 64 a) (b.take l) true
    if (s.writeStop f none (BitVec.ofNat 64 a) (b.take l)).isSome then (t, false) else t.scatter f r (b.drop l)

/-- The pages of a PRP list as ranges: whole pages, the last one cut. -/
def prpRanges (page : Nat) : Nat → List (BitVec 128) → List (Nat × Nat)
  | _, [] => []
  | len, p :: r => if len = 0 then [] else (fld p 0 64, min page len) :: prpRanges page (len - min page len) r

/-- The data blocks of an SGL, or the status of a descriptor that is not supported (R362). -/
def sglRanges : List (BitVec 128) → Except Nat (List (Nat × Nat))
  | [] => .ok []
  | d :: r =>
    let t := fld d 124 4
    if 3 < t ∨ t = 1 ∨ fld d 120 4 ≠ 0 then .error 0x11
    else match sglRanges r with
      | .error e => .error e
      | .ok l => .ok (if t = 0 then (fld d 0 64, fld d 64 32) :: l else l)

/-- The ranges cut to `len` bytes. -/
def cutRanges : List (Nat × Nat) → Nat → List (Nat × Nat)
  | [], _ => []
  | (a, l) :: r, n => if n = 0 then [] else (a, min l n) :: cutRanges r (n - l)

/-- The host ranges of `len` bytes that a command's data pointer gives (R362). `ptrs` are the entries that its PRP lists or SGL
segments hold in host memory, in order, without those that only lead to a further list. -/
def dptrRanges (sqe : BitVec 512) (page len : Nat) (ptrs : List (BitVec 128)) : Except Nat (List (Nat × Nat)) :=
  if len = 0 then .ok [] else
  let p1 := fld sqe 192 64
  let p2 := fld sqe 256 64
  let n1 := min len (page - p1 % page)
  match fld sqe 14 2 with
  | 0 =>
    if p1 % 4 ≠ 0 then .error 0x13
    else if len ≤ n1 then .ok [(p1, n1)]
    else if len - n1 ≤ page then (if p2 % page = 0 then .ok [(p1, n1), (p2, len - n1)] else .error 0x13)
    else .ok ((p1, n1) :: prpRanges page (len - n1) ptrs)
  | 3 => .error 0x02
  | _ =>
    let d := (BitVec.ofNat 128 (fld sqe 192 128))
    match sglRanges (if fld d 124 4 = 0 then [d] else d :: ptrs) with
    | .error e => .error e
    | .ok l =>
      if l.any (fun r => r.1 % 4 != 0) then .error 0x1E
      else if (l.map (fun r => r.2)).sum < len then .error 0x0F
      else .ok (cutRanges l len)

/-- The memory page size of a controller. -/
def Ctrl.page (c : Ctrl) : Nat := 4096 <<< fld c.cc 7 4

/-- A TCP segment of a back-end connection (Table 15-8); what the spec leaves open of the headers is free. -/
def tcpFrame (c : Conn) (flags : Nat) (seq ack : Nat) (free : BitVec 512) (body : Bytes) : Bytes :=
  let v6 := bit c.flags 3
  let n := cond v6 16 4
  let a := beBytes n c.localAddr.toNat ++ beBytes n c.remoteAddr.toNat
  let t := beBytes 2 c.lport ++ beBytes 2 c.port ++ beBytes 4 seq ++ beBytes 4 ack ++ [0x80] ++ beBytes 1 flags ++
    beBytes 2 (fld free 300 16) ++ [0, 0, 0, 0] ++ [1, 1, 8, 10] ++ beBytes 8 (fld free 320 64) ++ body
  let t := patch t 16 (beBytes 2 (inetCsum (a ++ beBytes 4 t.length ++ beBytes 4 6 ++ t)))
  let ttl := 1 + fld free 8 8 % 255
  let ip :=
    if v6 then beBytes 4 (at' 6 28 + fld free 16 28) ++ beBytes 2 t.length ++ [6] ++ beBytes 1 ttl ++ a
    else
      let h := beBytes 1 0x45 ++ beBytes 1 (fld free 0 8) ++ beBytes 2 (20 + t.length) ++ beBytes 2 (fld free 16 16) ++
        beBytes 2 0x4000 ++ beBytes 1 ttl ++ [6, 0, 0] ++ a
      patch h 10 (beBytes 2 (inetCsum h))
  beBytes 12 (fld free 64 96) ++ beBytes 2 (cond v6 0x86DD 0x0800) ++ ip ++ t

/-- A frame of the SCE waits for cells and enters parse unit 4 with ORIGIN 5, SRC_PORT 11 and the connection's LEAF_QUEUE (Tables
15-6, 15-8, R392). -/
def State.sceOut (s : State) (c : Conn) (frame : Bytes) : State :=
  let (s, p) := s.newPkt frame 5 11 noFunc
  let p := { p with sp := spSet p.sp SP.LEAF_QUEUE c.leaf, egressSa := if bit c.flags 2 then some c.sa else none }
  { s with rte := { s.rte with waitTx := s.rte.waitTx ++ [p] } }.rtePump (s.rte.waitTx.length + 1)

/-- Bytes of a connection's stream sent in segments of at most MSS. `fuel` bounds their number. -/
def State.sceStream (s : State) (k : Nat) : Nat → Bytes → State
  | 0, _ => s
  | fuel + 1, b =>
    if b.isEmpty then s else
    let c := s.conn k
    let n := max 1 c.mss
    let seg := b.take n
    let s := s.drew.sceOut c (tcpFrame c 0x10 c.sndNxt.toNat c.rcvNxt.toNat s.fresh seg)
    (s.setConn k { c with sndNxt := c.sndNxt + BitVec.ofNat 32 seg.length, unacked := c.unacked ++ seg }).sceStream k fuel
      (b.drop n)

/-- A command or data handed to a connection: over its own TCP, or to the queue pairs of the RDMA transport engine. -/
def State.sceTx (s : State) (k : Nat) (pdu : Bytes) : State :=
  if (s.conn k).rdma then s.emit (.backend k pdu) else s.sceStream k pdu.length pdu

/-- An NVMe/TCP PDU: type, header after the common 8 bytes, and data, with the digests FLAGS asks for. -/
def pdu (c : Conn) (type : Nat) (hdr data : Bytes) : Bytes :=
  let hd := bit c.flags 0
  let dd := bit c.flags 1 && !data.isEmpty
  let hl := 8 + hdr.length
  let off := if data.isEmpty then 0 else hl + cond hd 4 0
  let plen := hl + cond hd 4 0 + data.length + cond dd 4 0
  let h := leBytes 1 type ++ leBytes 1 (b2n hd + at' (b2n dd) 1) ++ leBytes 1 hl ++ leBytes 1 off ++ leBytes 4 plen ++ hdr
  h ++ (if hd then leBytes 4 (crc32c h).toNat else []) ++ data ++ (if dd then leBytes 4 (crc32c data).toNat else [])

/-- The first byte and the bytes of a piece of a command. -/
def pieceSpan (c : NCmd) (p : NPiece) (block : Nat) : Nat × Nat :=
  let lba := fld c.sqe 320 64
  ((p.lba.toNat - lba) * block, p.blocks * block)

/-- A back-end command sent for a piece of a host command (R365, Table 15-8). The command identifier at the target and a
remote key are the SCE's own: free. -/
def State.sendPiece (s : State) (c : NCmd) (e : NsEntry) (p : NPiece) : State :=
  let k := s.conn p.conn
  let (off, len) := pieceSpan c p k.blockBytes
  let moves := c.op == 1 || c.op == 2
  let body := if c.op = 1 then slice c.data off len else if c.op = 9 then c.data else []
  let inCap := !k.rdma && !body.isEmpty && decide (body.length ≤ 8192)
  let n := if c.op = 9 then body.length else if moves then len else 0
  let sgl :=
    if n = 0 then List.replicate 16 (0 : Byte)
    else if k.rdma then leBytes 8 (c.slot * 2097152 + off) ++ leBytes 3 n ++ leBytes 4 (fld s.fresh 16 32) ++ [0x40]
    else leBytes 8 0 ++ leBytes 4 n ++ [0, 0, 0] ++ [cond inCap 0x01 0x5A]
  let sqe := overlay (bvBytes c.sqe) ([(1, [0x40]), (2, leBytes 2 (fld s.fresh 0 16)), (4, bvBytes e.backNsid), (24, sgl)] ++
    (if moves ∨ c.op = 8 then
      [(40, leBytes 8 p.lba.toNat), (48, leBytes 2 (p.blocks - 1))] else []))
  s.drew.sceTx p.conn (if k.rdma then sqe else pdu k 0x04 sqe (if inCap then body else []))

/-- Write data for a ready-to-transfer PDU: at most 128 KiB of data per PDU (Table 15-8). -/
def State.sendH2C (s : State) (c : NCmd) (p : NPiece) (off len : Nat) : State :=
  let k := s.conn p.conn
  let (base, _) := pieceSpan c p k.blockBytes
  let b := slice c.data (base + off) len
  s.each (List.range (ceilDiv b.length 131072)) (fun s i =>
    s.drew.sceTx p.conn (pdu k 0x06 (leBytes 4 (fld s.fresh 0 32) ++ leBytes 4 (off + i * 131072) ++
      leBytes 4 (slice b (i * 131072) 131072).length ++ leBytes 4 0) (slice b (i * 131072) 131072)))

/-- An Abort sent to the target of a piece that has not completed (R371, R372). -/
def State.sendAbort (s : State) (p : NPiece) : State :=
  if p.result.isSome then s else
  let k := s.conn p.conn
  let sqe := overlay (List.replicate 64 0) [(0, [0x08, 0x40]), (2, leBytes 2 (fld s.fresh 0 16)), (40, leBytes 4 (fld s.fresh 16 32))]
  s.drew.sceTx p.conn (if k.rdma then sqe else pdu k 0x04 sqe [])

/-- The connection a namespace uses now: its primary if up, else its secondary (R363, R370). -/
def State.nsPath (s : State) (e : NsEntry) : Option Nat :=
  if (s.conn e.primary).up then some e.primary
  else if e.secondary ≠ 0xFFFF ∧ (s.conn e.secondary).up then some e.secondary
  else none

/-- P of R367 in blocks: the back end's MDTS rounded down to a multiple of U. -/
def Conn.pieceBlocks (c : Conn) : Nat :=
  let u := max 1 c.unitBytes
  let n := if c.mdtsBytes < u then c.mdtsBytes else c.mdtsBytes / u * u
  max 1 (n / max 1 c.blockBytes)

/-- U of R366 in bytes, from the back end's power-fail unit. -/
def atomicUnit (pf : Nat) : Nat := if 65536 ≤ pf then 65536 else pf

/-- The pieces of `n` blocks from `lba`, at most `p` each. `fuel` bounds their number. -/
def cutPieces (conn p : Nat) : Nat → Nat → Nat → List NPiece
  | 0, _, _ => []
  | fuel + 1, lba, n => if n = 0 then [] else
      ⟨BitVec.ofNat 64 lba, min p n, conn, false, none⟩ :: cutPieces conn p fuel (lba + min p n) (n - min p n)

/-- A host command goes to the back end in pieces (R367). -/
def State.toBackend (s : State) (c : NCmd) (e : NsEntry) (k : Nat) (blocks : Nat) : State :=
  let n := if blocks = 0 then 1 else blocks
  let ps := if blocks = 0 then [⟨0, 0, k, false, none⟩]
    else cutPieces k (if c.op = 8 then n else (s.conn k).pieceBlocks) n (fld c.sqe 320 64) n
  let s := s.updCmd c.slot (fun x => { x with pieces := ps, data := c.data, ranges := c.ranges, waiting := true })
  let s := s.if_ (decide (1 < ps.length)) (fun s => s.bump R.SCE_SPLIT_CNT)
  s.each ps (fun s p => s.sendPiece c e p)

/-- The Error Information entry of a failed command (NVM Express). -/
def errEntry (n : Nat) (c : NCmd) (st : Nat) : BitVec 512 :=
  bytesBv 512 (leBytes 8 n ++ leBytes 2 c.sq ++ leBytes 2 c.cid ++ leBytes 2 (cqeStatus st * 2) ++ leBytes 2 0xFFFF ++
    leBytes 8 (fld c.sqe 320 64) ++ leBytes 4 c.nsid)

/-- A failed back-end command is counted, logged and raised (R369). -/
def State.backFail (s : State) (c : NCmd) (st : Nat) : State :=
  let s := s.bump R.SCE_CMD_ERR_CNT
  let x := s.ctrl c.func
  let s := s.setCtrl c.func { x with errCount := x.errCount + 1, errLog := (errEntry (x.errCount.toNat + 1) c st :: x.errLog).take 64 }
  s.raise 0x687 c.func ((s.attached c.func c.nsid).getD 0) (0x6000 + st % 4096)

/-- The host command whose every piece has completed completes: with success, or the status of the failing piece of lowest
LBA (R367). -/
def State.nvSettle (s : State) (slot : Nat) : State :=
  match s.cmd slot with
  | none => s
  | some c =>
    if c.pieces.isEmpty ∨ c.pieces.any (fun p => p.result.isNone) then s else
    match c.pieces.find? (fun p => p.result != some 0) with
    | none => s.nvEnd slot 0 0
    | some p => s.nvEnd slot (p.result.getD 0).toNat 0

/-- A piece has a result. -/
def State.setPiece (s : State) (slot i : Nat) (g : NPiece → NPiece) : State :=
  s.updCmd slot (fun c => { c with pieces := c.pieces.mapIdx (fun k p => if k = i then g p else p) })

/-- The commands of a controller are given up: their back-end commands are aborted at the targets, and no completion is
posted for them (R372). -/
def State.abandonCmds (s : State) (f : Nat) : State :=
  let mine := s.sce.cmds.filter (fun c => c.func == f)
  let s := { s with sce := { s.sce with cmds := s.sce.cmds.filter (fun c => c.func != f) } }
  s.each mine (fun s c => s.each c.pieces (fun s p => s.sendAbort p))

/-- The queues of a controller are gone. -/
def State.clearQueues (s : State) (f : Nat) : State :=
  { s with sce := { s.sce with
    sq := s.sce.sq.filter (fun e => e.1 / 2048 != f), cq := s.sce.cq.filter (fun e => e.1 / 2048 != f) } }

/-- A controller leaves every state for DISABLED with its registers at reset (Table 15-3, R372); its counts go on. -/
def State.ctrlReset (s : State) (f : Nat) : State :=
  let x := s.ctrl f
  ((s.abandonCmds f).clearQueues f).setCtrl f { Ctrl.reset with
    ps1Mbps := x.ps1Mbps, changed := x.changed, errLog := x.errLog, errCount := x.errCount, commands := x.commands
    errors := x.errors, readBytes := x.readBytes, writeBytes := x.writeBytes, lastTime := x.lastTime
    readCmds := x.readCmds, writeCmds := x.writeCmds }

/-- A controller becomes READY: its admin queues stand as AQA, ASQ and ACQ give them. -/
def State.ctrlReady (s : State) (f : Nat) : State :=
  let c := s.ctrl f
  let s := s.setNvSq f 0 { NvQueue.absent with live := true, base := c.asq, size := fld c.aqa 0 12 + 1 }
  let s := s.setNvCq f 0 { NvQueue.absent with live := true, base := c.acq, size := fld c.aqa 16 12 + 1, ien := true }
  (s.setCtrl f { c with st := .ready, enWaits := false }).raise 0x680 f (cntlid f) 0

/-- A controller whose enable waits for its instance becomes READY (Table 15-3). -/
def State.ctrlWake (s : State) (f : Nat) : State :=
  if s.isStorage f && (s.ctrl f).enWaits then s.ctrlReady f else s

end Sys2Proof.Machine
end

