-- ==== Sys2Proof/Machine/Sce.lean ====
section
/-!
DEFINITION. Machine/Sce.lean: the commands of storage controller emulation (R356 to R375).
-/
namespace Sys2Proof.Machine
open Sys2Proof

/-- Whether CC, AQA, ASQ and ACQ are valid for an enable (Table 15-3; the admin queue sizes and alignments are PRESUMED from
NVM Express). -/
def Ctrl.enableOk (c : Ctrl) (cc : Word) : Bool :=
  decide (fld cc 7 4 ≤ 4) && fld cc 16 4 == 6 && fld cc 20 4 == 4 && fld cc 4 3 == 0 && fld cc 11 3 == 0 &&
  decide (1 ≤ fld c.aqa 0 12) && decide (1 ≤ fld c.aqa 16 12) && c.asq.toNat % 4096 == 0 && c.acq.toNat % 4096 == 0

/-- CC_ENABLE: CC written with EN 1 while it is 0. In the page of a function that is no controller the offset holds nothing
(R227, R266, R357). -/
def execCcEnable (f : Fin 4104) (v : Word) (s : State) : Res :=
  let f := f.val
  .next (s.barWrite f (fun s =>
    let c := s.ctrl f
    if !s.isStorage f then s.bump R.HIU_BAD_ACCESS_CNT
    else if bit c.cc 0 ∨ !bit v 0 then s else
    let s := s.setCtrl f { c with cc := v }
    if !c.enableOk v then s.updCtrl f (fun c => { c with st := .fatal, cfs := true })
    else if (s.inst f).st = .active then s.ctrlReady f
    else s.updCtrl f (fun c => { c with enWaits := true })))

/-- CC_DISABLE: CC.EN cleared. AQA, ASQ and ACQ keep their values (PRESUMED from NVM Express). -/
def execCcDisable (f : Fin 4104) (s : State) : Res :=
  let f := f.val
  .next (s.barWrite f (fun s =>
    let c := s.ctrl f
    if !s.isStorage f then s.bump R.HIU_BAD_ACCESS_CNT
    else if !bit c.cc 0 then s else
    (s.ctrlReset f).updCtrl f (fun x => { x with aqa := c.aqa, asq := c.asq, acq := c.acq })))

/-- The connections a controller's namespaces use now. -/
def State.ctrlPaths (s : State) (f : Nat) : List Nat :=
  ((s.nsids f).filterMap (fun n => (s.attached f n).bind (fun e => s.nsPath (s.nsEntry e)))).eraseDups

/-- A back-end command of the SCE's own on a connection: opcode, dwords 10 and 11. -/
def State.ownCmd (s : State) (k op cdw10 cdw11 : Nat) : State :=
  let c := s.conn k
  let sqe := overlay (List.replicate 64 0) [(0, leBytes 1 op ++ [0x40]), (2, leBytes 2 (fld s.fresh 0 16)),
    (40, leBytes 4 cdw10), (44, leBytes 4 cdw11)]
  s.drew.sceTx k (if c.rdma then sqe else pdu c 0x04 sqe [])

/-- SHUTDOWN_NOTIFY: CC.SHN written 0b01 or 0b10. Every back-end path is flushed. -/
def execShutdownNotify (f : Fin 4104) (v : Word) (s : State) : Res :=
  let f := f.val
  .next (s.barWrite f (fun s =>
    let c := s.ctrl f
    if !s.isStorage f then s.bump R.HIU_BAD_ACCESS_CNT
    else if c.st ≠ .ready ∨ !bit v 0 ∨ (fld v 14 2 ≠ 1 ∧ fld v 14 2 ≠ 2) then s else
    (s.setCtrl f { c with cc := v, st := .shutting }).each (s.ctrlPaths f) (fun s k => s.ownCmd k 0 0 0)))

/-- SHUTDOWN_COMPLETE: no command outstanding, asynchronous event requests apart, and every path flushed. -/
def execShutdownComplete (f : Fin 4104) (s : State) : Res :=
  let f := f.val
  let busy := s.sce.cmds.any (fun c => c.func == f && !(c.sq == 0 && c.op == 0x0C))
  .next (if (s.ctrl f).st = .shutting ∧ !busy then s.updCtrl f (fun c => { c with st := .shutdown }) else s)

/-- A doorbell that R360 ignores. -/
def State.badNvDb (s : State) (f info : Nat) : State :=
  (s.bump R.SCE_BAD_DB_CNT).asyncEvent f (BitVec.ofNat 32 (at' info 8 + at' 1 16)) false

/-- NVME_DOORBELL: a doorbell of Table 15-1; `off` is its offset in the function control page. From 0x1000 up to the registers
at 0x3C00 the other offsets hold nothing, and in the page of a function that is no controller none does (R227, R357). -/
def execNvmeDoorbell (f : Fin 4104) (off : BitVec 14) (v : Word) (s : State) : Res :=
  let f := f.val
  .next (s.barWrite f (fun s =>
    let o := off.toNat - 0x1000
    let y := o / 8
    if !s.isStorage f ∨ (0x3007 < off.toNat ∧ off.toNat < 0x3C00) then s.bump R.HIU_BAD_ACCESS_CNT
    else if off.toNat < 0x1000 ∨ 0x3007 < off.toNat ∨ o % 4 ≠ 0 then s
    else if o % 8 = 0 then
      let k := s.nvSq f y
      if !k.live then s.badNvDb f 0
      else if k.size ≤ v.toNat then s.badNvDb f 1
      else s.setNvSq f y { k with tail := v.toNat }
    else
      let k := s.nvCq f y
      if !k.live then s.badNvDb f 0
      else if k.size ≤ v.toNat then s.badNvDb f 1
      else (s.setNvCq f y { k with head := v.toNat }).nvDrain f y k.waiting.length))

/-- The commands supported (Table 15-4). -/
def nvSupported (io : Bool) (op : Nat) : Bool :=
  if io then decide (op ∈ [0x00, 0x01, 0x02, 0x08, 0x09])
  else decide (op ∈ [0x00, 0x01, 0x02, 0x04, 0x05, 0x06, 0x08, 0x09, 0x0A, 0x0C])

/-- The slot a fetched command takes: a free one, which the spec does not name (R361, R365). -/
def State.newSlot (s : State) : Nat := (pickFree (s.sce.cmds.map (fun c => c.slot)) 262144 (fld s.fresh 0 18)).getD 0

/-- The command in a slot runs, if it is one of its queue type and opcode that has not begun. -/
def State.nvRun (s : State) (slot : Nat) (io : Bool) (op : Nat) (g : State → NCmd → State) : State :=
  match s.cmd slot with
  | none => s
  | some c => if (c.sq != 0) == io && c.op == op && !c.waiting then g s c else s

/-- A command waits for its end. -/
def State.nvWait (s : State) (slot : Nat) : State := s.updCmd slot (fun c => { c with waiting := true })

/-- The I/O queue identifiers of a controller: 1 to its allocation's NVME_IOQ (R359). -/
def State.qidOk (s : State) (f q : Nat) : Bool := decide (1 ≤ q) && decide (q ≤ (s.inst f).alloc.nvmeIoq)

/-- CREATE_IO_CQ (R359). -/
def execCreateIoCq (slot : Fin 262144) (s : State) : Res :=
  .next (s.nvRun slot.val false 0x05 (fun s c =>
    let q := c.dw 10 % 65536
    let n := c.dw 10 / 65536
    let iv := c.dw 11 / 65536
    if !s.qidOk c.func q ∨ (s.nvCq c.func q).live then s.nvFail c.slot 0x101
    else if n = 0 ∨ 16383 < n then s.nvFail c.slot 0x102
    else if c.dw 11 % 2 = 0 then s.nvFail c.slot 0x002
    else if s.vectors c.func ≤ iv then s.nvFail c.slot 0x108
    else (s.setNvCq c.func q { NvQueue.absent with
      live := true, base := BitVec.ofNat 64 (fld c.sqe 192 64), size := n + 1, vector := iv
      ien := c.dw 11 / 2 % 2 == 1 }).nvEnd c.slot 0 0))

/-- CREATE_IO_SQ (R359). -/
def execCreateIoSq (slot : Fin 262144) (s : State) : Res :=
  .next (s.nvRun slot.val false 0x01 (fun s c =>
    let q := c.dw 10 % 65536
    let n := c.dw 10 / 65536
    let cq := c.dw 11 / 65536
    if !s.qidOk c.func q ∨ (s.nvSq c.func q).live then s.nvFail c.slot 0x101
    else if n = 0 ∨ 16383 < n then s.nvFail c.slot 0x102
    else if !s.qidOk c.func cq then s.nvFail c.slot 0x101
    else if !(s.nvCq c.func cq).live then s.nvFail c.slot 0x100
    else if c.dw 11 % 2 = 0 then s.nvFail c.slot 0x002
    else (s.setNvSq c.func q { NvQueue.absent with
      live := true, base := BitVec.ofNat 64 (fld c.sqe 192 64), size := n + 1, cq := cq }).nvEnd c.slot 0 0))

/-- DELETE_IO_SQ (R359): its commands are aborted, and completed so (PRESUMED from NVM Express). -/
def execDeleteIoSq (slot : Fin 262144) (s : State) : Res :=
  .next (s.nvRun slot.val false 0x00 (fun s c =>
    let q := c.dw 10 % 65536
    if !s.qidOk c.func q ∨ !(s.nvSq c.func q).live then s.nvFail c.slot 0x101
    else
      let mine := s.sce.cmds.filter (fun x => x.func == c.func && x.sq == q)
      let s := s.each mine (fun s x => (s.each x.pieces (fun s p => s.sendAbort p)).nvFail x.slot 0x008)
      (s.setNvSq c.func q NvQueue.absent).nvEnd c.slot 0 0))

/-- DELETE_IO_CQ (R359). -/
def execDeleteIoCq (slot : Fin 262144) (s : State) : Res :=
  .next (s.nvRun slot.val false 0x04 (fun s c =>
    let q := c.dw 10 % 65536
    if !s.qidOk c.func q ∨ !(s.nvCq c.func q).live then s.nvFail c.slot 0x101
    else if s.sce.sq.any (fun e => e.1 / 2048 == c.func && e.2.live && e.2.cq == q && e.1 % 2048 != 0) then s.nvFail c.slot 0x10C
    else (s.setNvCq c.func q NvQueue.absent).nvEnd c.slot 0 0))

/-- The die temperature: the hottest of the die's sensors, in whole kelvins. -/
def State.dieKelvin (s : State) : Nat :=
  273 + ((List.range 16).map (fun i => s.rdf (R.TETHER_TEMP i) 0 15)).foldl max 0 / 16

/-- A log page, and the state after the free values in it; none where it is not supported (Table 15-5). -/
def State.logPage (s : State) (f lid : Nat) : Option (Bytes × State) :=
  let c := s.ctrl f
  match lid with
  | 0x01 => some (padTo 4096 (c.errLog.map bvBytes).flatten, s)
  | 0x02 =>
    let (b, s) := s.freeBytes 512
    some (overlay b [(1, leBytes 2 s.dieKelvin), (32, leBytes 16 (ceilDiv (c.readBytes.toNat / 512) 1000)),
      (48, leBytes 16 (ceilDiv (c.writeBytes.toNat / 512) 1000)), (64, leBytes 16 c.readCmds.toNat),
      (80, leBytes 16 c.writeCmds.toNat), (176, leBytes 16 c.errCount.toNat)], s)
  | 0x03 => some (s.freeBytes 512)
  | 0x04 => some (padTo 4096 ((c.changed.map (fun n => leBytes 4 n)).flatten), s.updCtrl f (fun c => { c with changed := [] }))
  | 0x05 =>
    let (b, s) := s.freeBytes 4096
    let on := fun (io : Bool) (base : Nat) => (List.range 256).map (fun op =>
      (base + 4 * op, if nvSupported io op then [byteAt b (base + 4 * op) ||| 1] else List.replicate 4 (0 : Byte)))
    some (overlay b (on false 0 ++ on true 1024), s)
  | _ => none

/-- A number as upper-case hexadecimal digits. -/
def hexDigits (n x : Nat) : Bytes :=
  (List.range n).map (fun i =>
    let d := x / 16 ^ (n - 1 - i) % 16
    BitVec.ofNat 8 (if d < 10 then 48 + d else 55 + d))

/-- ASCII bytes of a name, filled with spaces. -/
def ascii (n : Nat) (s : String) : Bytes :=
  (s.toList.map (fun (c : Char) => BitVec.ofNat 8 c.toNat) ++ List.replicate n 32).take n

/-- Identify Controller (Table 15-5); every field the spec gives no value for is free. -/
def State.identCtrl (s : State) (f : Nat) : Bytes × State :=
  let (b, s) := s.freeBytes 4096
  let serial := (s.rd R.IDENT_SERIAL).toNat
  let vwc := (s.nsids f).any (fun n => match s.attached f n with
    | some e => (s.conn (s.nsEntry e).primary).vwc || (decide ((s.nsEntry e).secondary ≠ 0xFFFF) && (s.conn (s.nsEntry e).secondary).vwc)
    | none => false)
  let psd := fun (nops : Nat) (lat : Nat) => leBytes 2 0 ++ [0] ++ leBytes 1 (at' nops 1) ++ leBytes 4 lat ++ leBytes 4 lat
  (overlay b [
    (0, leBytes 2 0x1F8A ++ leBytes 2 (s.cfgField 6 2)), (4, hexDigits 16 serial ++ hexDigits 4 f), (24, ascii 40 "Aplizin GL8016 SCE")
    , (64, hexDigits 8 s.kite.fwBuild.toNat), (77, [9]), (78, leBytes 2 (cntlid f)), (80, leBytes 4 0x20000)
    , (256, leBytes 2 0), (258, [3, 3, 0]), (262, [63, 2]), (265, [0]), (512, [0x66, 0x44]), (516, leBytes 4 1024)
    , (520, leBytes 2 0x0C), (525, [setBit (byteAt b 525) 0 vwc]), (526, leBytes 2 0), (528, leBytes 2 0)
    , (536, setFld (bytesBv 32 (slice b 536 4)) 0 2 2 |> bvBytes)
    , (768, padTo 256 (ascii 33 "nqn.2023-06.com.aplizin:gl8016:" |>.take 31 |> (· ++ hexDigits 16 serial)))
    , (2048, psd 0 0), (2080, psd 0 10), (2112, psd 1 1000)], s)

/-- Identify Namespace (R363, R366); what the back end alone knows is free. -/
def State.identNs (s : State) (f n : Nat) : Bytes × State :=
  match s.attached f n with
  | none => (List.replicate 4096 0, s)
  | some e =>
    let c := s.conn (s.nsEntry e).primary
    let (b, s) := s.freeBytes 4096
    let u := atomicUnit c.unitBytes / max 1 c.blockBytes - 1
    let shared := decide (1 < (s.sce.attach.filter (fun x => x.2 == e + 1)).length)
    (overlay b [
      (24, [setBit (byteAt b 24) 1 true]), (30, [setBit (byteAt b 30) 0 shared]), (34, leBytes 2 u), (36, leBytes 2 u)
      , (40, leBytes 2 (c.bounds.getD 1 0)), (42, leBytes 2 (c.bounds.getD 0 0)), (44, leBytes 2 (c.bounds.getD 2 0))
      , (26, [setFld (byteAt b 26) 0 4 0, 0, 0, 0]), (128, leBytes 2 0 ++ leBytes 1 (Nat.log2 c.blockBytes))], s)

/-- ABORT (R371). -/
def execNvmeAbort (slot : Fin 262144) (s : State) : Res :=
  .next (s.nvRun slot.val false 0x08 (fun s c =>
    if 4 ≤ (s.sce.cmds.filter (fun x => x.func == c.func && x.sq == 0 && x.op == 8 && x.waiting)).length then s.nvFail c.slot 0x103
    else match s.sce.cmds.find? (fun x => x.func == c.func && x.sq == c.dw 10 % 65536 && x.cid == c.dw 10 / 65536 && x.slot != c.slot) with
    | none => s.nvEnd c.slot 0 1
    | some x =>
      if x.pieces.isEmpty then (s.nvFail x.slot 0x007).nvEnd c.slot 0 0
      else ((s.each x.pieces (fun s p => s.sendAbort p)).updCmd x.slot (fun x => { x with aborter := some c.slot })).nvWait
        c.slot))

/-- The features supported beside Power Management (Table 15-5). -/
def featureIds : List Nat := [0x01, 0x04, 0x06, 0x07, 0x08, 0x09, 0x0A, 0x0B]

/-- The number of I/O queues as Set Features and Get Features report it, 0's based; an allocation of none has no such number. -/
def State.queueCount (s : State) (f : Nat) : Nat :=
  let n := (s.inst f).alloc.nvmeIoq
  if n = 0 then fld s.fresh 0 32 else n - 1 + at' (n - 1) 16

/-- SET_FEATURES of a feature other than Power Management; Volatile Write Cache is forwarded to every path. -/
def execSetFeatures (slot : Fin 262144) (s : State) : Res :=
  .next (s.nvRun slot.val false 0x09 (fun s c =>
    let id := c.dw 10 % 256
    if id = 2 then s
    else if id ∉ featureIds then s.nvFail c.slot 0x002
    else
      let key := if id = 9 then id + at' (c.dw 11 % 65536) 8 else id
      let s := s.updCtrl c.func (fun x => { x with
        features := mapSet (fun _ => 0) x.features key (BitVec.ofNat 32 (c.dw 11)) })
      if id = 6 then (s.each (s.ctrlPaths c.func) (fun s k => s.ownCmd k 0x09 6 (c.dw 11))).nvEnd c.slot 0 0
      else if id = 7 then s.drew.nvEnd c.slot 0 (s.queueCount c.func)
      else s.nvEnd c.slot 0 0))

/-- SET_FEATURES_POWER_MANAGEMENT (R373): entry begins at once, and a second one waits behind the first. -/
def execSetFeaturesPowerManagement (slot : Fin 262144) (s : State) : Res :=
  .next (s.nvRun slot.val false 0x09 (fun s c =>
    if c.dw 10 % 256 ≠ 2 ∨ (s.ctrl c.func).psEntry.isSome then s
    else if 2 < c.dw 11 % 32 then s.nvFail c.slot 0x002
    else ((s.updCtrl c.func (fun x => { x with psEntry := some (BitVec.ofNat 2 (c.dw 11)) })).nvWait c.slot).psCheck c.func))

/-- GET_FEATURES. -/
def execGetFeatures (slot : Fin 262144) (s : State) : Res :=
  .next (s.nvRun slot.val false 0x0A (fun s c =>
    let id := c.dw 10 % 256
    let x := s.ctrl c.func
    let key := if id = 9 then id + at' (c.dw 11 % 65536) 8 else id
    if id = 2 then s.nvEnd c.slot 0 x.ps.toNat
    else if id = 7 then s.drew.nvEnd c.slot 0 (s.queueCount c.func)
    else if id ∈ featureIds then s.nvEnd c.slot 0 (mapGet (fun _ => 0) x.features key).toNat
    else s.nvFail c.slot 0x002))

/-- ASYNC_EVENT_REQUEST: at most 4 outstanding (Table 15-5). -/
def execAsyncEventRequest (slot : Fin 262144) (s : State) : Res :=
  .next (s.nvRun slot.val false 0x0C (fun s c =>
    let x := s.ctrl c.func
    if 4 ≤ (s.sce.cmds.filter (fun y => y.func == c.func && y.sq == 0 && y.op == 0x0C && y.waiting)).length then
      s.nvFail c.slot 0x105
    else match x.events with
    | w :: rest => (s.setCtrl c.func { x with events := rest }).nvEnd c.slot 0 w.toNat
    | [] => s.nvWait c.slot))

/-- A namespace command finds its entry and its path, or fails (R363, R370). -/
def State.nvPath (s : State) (c : NCmd) (writes : Bool) (g : State → NsEntry → Nat → State) : State :=
  match s.attached c.func c.nsid with
  | none => s.nvFail c.slot 0x00B
  | some n =>
    let e := s.nsEntry n
    if writes && e.readOnly then s.nvFail c.slot 0x020
    else match s.nsPath e with
    | some k => g s e k
    | none => if e.lost then s.nvFail c.slot 0x082 else s.nvEnd c.slot 0x022 0

/-- NVME_FLUSH. -/
def execNvmeFlush (slot : Fin 262144) (s : State) : Res :=
  .next (s.nvRun slot.val true 0x00 (fun s c => s.nvPath c false (fun s e k => s.toBackend c e k 0)))

/-- The blocks of a Read, Write or Write Zeroes: NLB is 0's based. -/
def NCmd.blocks (c : NCmd) : Nat := c.dw 12 % 65536 + 1

/-- WRITE_ZEROES. -/
def execWriteZeroes (slot : Fin 262144) (s : State) : Res :=
  .next (s.nvRun slot.val true 0x08 (fun s c => s.nvPath c true (fun s e k => s.toBackend c e k c.blocks)))

/-- BACKEND_COMPLETION: a piece of a command has completed at the target with a status in the layout of R364; `data` is what
a Read has brought (R365, R367, R369). Where its data cannot be written to the host (R230, R237), the piece has a Data Transfer
Error (PRESUMED from NVM Express). -/
def execBackendCompletion (slot : Fin 262144) (piece : Nat) (status : BitVec 12) (data : Bytes) (s : State) : Res :=
  match s.cmd slot.val with
  | none => .next s
  | some c =>
    match c.pieces[piece]? with
    | none => .next s
    | some p =>
      if p.result.isSome then .next s else
      let (off, len) := pieceSpan c p (s.conn p.conn).blockBytes
      let s := s.setPiece slot.val piece (fun p => { p with result := some (status.setWidth 16) })
      let s :=
        if status ≠ 0 then s.backFail c status.toNat
        else if c.op = 2 then
          let (s, whole) := s.scatter c.func (rangesFrom c.ranges off) (padTo len data)
          if !whole then s.setPiece slot.val piece (fun p => { p with result := some 0x004 })
          else (s.bumpN R.SCE_READ_BYTE_CNT len).updCtrl c.func (fun x =>
            { x with readBytes := x.readBytes + BitVec.ofNat 64 len })
        else if c.op = 1 then
          (s.bumpN R.SCE_WRITE_BYTE_CNT len).updCtrl c.func (fun x => { x with writeBytes := x.writeBytes + BitVec.ofNat 64 len })
        else s
      .next (s.nvSettle slot.val)

/-- A connection tries to connect: a TCP handshake begins, or the RDMA transport engine is asked to. -/
def State.connect (s : State) (k : Nat) : State :=
  let c := { s.conn k with connecting := true, unacked := [], sndNxt := BitVec.ofNat 32 (fld s.fresh 0 32) }
  if c.rdma then (s.setConn k c).emit (.backend k [])
  else
    let s := s.drew.setConn k { c with sndNxt := c.sndNxt + 1 }
    s.drew.sceOut c (tcpFrame c 0x02 c.sndNxt.toNat 0 s.fresh [])

/-- The outstanding pieces of a command on a connection that has gone down: sent again once on the namespace's other
connection if that is up, else failed (R370). The flag tells whether it was resent. -/
def State.failOver (s : State) (k : Nat) (c : NCmd) : State × Bool :=
  let n := (s.attached c.func c.nsid).getD 0
  let e := s.nsEntry n
  let other := if e.primary = k then e.secondary else e.primary
  let lostP := fun (p : NPiece) => p.conn == k && p.result.isNone
  if !c.pieces.any lostP then (s, false)
  else if (s.conn other).up ∧ other ≠ 0xFFFF ∧ !c.pieces.any (fun p => lostP p && p.resent) then
    let ps := c.pieces.map (fun p => if lostP p then { p with conn := other, resent := true } else p)
    let s := s.updCmd c.slot (fun x => { x with pieces := ps })
    (s.each (ps.filter (fun p => p.conn == other && p.resent && p.result.isNone)) (fun s p => s.sendPiece c e p), true)
  else
    ((s.updCmd c.slot (fun x => { x with pieces := x.pieces.map (fun p =>
      if lostP p then { p with result := some 0x022 } else p) })).nvSettle c.slot, false)

/-- A connection goes down (R370, Table 15-10). -/
def State.connDown (s : State) (k why : Nat) : State :=
  let s := (s.updConn k (fun c => { c with up := false, connecting := false, unacked := [], timeouts := 0 })).raise 0x683 noFunc k why
  let (s, moved) := s.sce.cmds.foldl (fun (a : State × List Nat) c =>
    let (s, r) := a.1.failOver k c
    (s, if r then a.2 ++ [(s.attached c.func c.nsid).getD 0] else a.2)) (s, [])
  let s := s.bumpN R.SCE_FAILOVER_CNT moved.length
  s.each moved.eraseDups (fun s n => s.raise 0x684 noFunc n (moved.filter (· == n)).length)

/-- BACKEND_DOWN: `why` as in Table 15-10. -/
def execBackendDown (conn : Fin 4096) (why : Fin 4) (s : State) : Res :=
  .next (if (s.conn conn.val).up then s.connDown conn.val why.val else s)

/-- BACKEND_UP: a Connect has ended: refused by the target with `status`, refused by the SCE for what the target reports, or
up (R364). -/
def execBackendUp (conn : Fin 4096) (status : BitVec 12) (mdts block unit : Nat) (bounds : List Nat) (vwc : Bool) (s : State) :
    Res :=
  let k := conn.val
  let c := s.conn k
  if !c.opened ∨ c.up ∨ !c.connecting then .next s else
  let fail := fun (st : Status) =>
    if c.waiter.isSome then (s.setConn k Conn.closed).finish c.waiter st 0
    else s.setConn k { c with connecting := false }
  if status ≠ 0 then .next (fail (BitVec.ofNat 16 (0x6000 + status.toNat)))
  else if mdts < 65536 ∨ (block ≠ 512 ∧ block ≠ 4096) then .next (fail 0x30B0)
  else
    let s := s.setConn k { c with
      up := true, connecting := false, timeouts := 0, mdtsBytes := mdts, blockBytes := block, unitBytes := atomicUnit unit
      bounds := bounds, vwc := vwc, waiter := none }
    let s := { s with sce := { s.sce with ns := s.sce.ns.map (fun (e : Nat × NsEntry) =>
      if e.2.primary = k ∨ e.2.secondary = k then (e.1, { e.2 with lost := false }) else e) } }
    .next ((s.raise 0x682 noFunc k 0).finish c.waiter 0 0)

/-- RECONNECT_TIMER (R370). -/
def execReconnectTimer (conn : Fin 4096) (s : State) : Res :=
  let c := s.conn conn.val
  .next (if c.opened ∧ !c.up then s.connect conn.val else s)

/-- CTRL_LOSS_TIMEOUT: a namespace has had no connection up for CTRL_LOSS_S (R370). -/
def execCtrlLossTimeout (ns : Fin 65536) (s : State) : Res :=
  let e := s.nsEntry ns.val
  .next (if e.used ∧ (s.nsPath e).isNone then s.setNsEntry ns.val { e with lost := true } else s)

/-- IO_TIMEOUT: the back-end commands of a host command without a response for IO_TIMEOUT_S (R370). -/
def execIoTimeout (slot : Fin 262144) (s : State) : Res :=
  match s.cmd slot.val with
  | none => .next s
  | some c =>
    if !c.pieces.any (fun p => p.result.isNone) then .next s else
    let s := s.each c.pieces (fun s p => s.sendAbort p)
    let s := (s.bump R.SCE_TIMEOUT_CNT).raise 0x685 c.func ((s.attached c.func c.nsid).getD 0) c.cid
    let s := s.updCmd c.slot (fun x => { x with pieces := x.pieces.map (fun p =>
      if p.result.isNone then { p with result := some 0x022 } else p) })
    .next (s.nvSettle c.slot)

/-- The connection a received segment belongs to. -/
def State.connOf (s : State) (p : Pkt) : Option Nat :=
  (s.sce.conn.find? (fun e => e.2.opened && !e.2.rdma && spGet p.sp SP.L4_TYPE == 1 &&
    spGet p.sp SP.SRC_ADDR == e.2.remoteAddr.toNat && spGet p.sp SP.DST_ADDR == e.2.localAddr.toNat &&
    spGet p.sp SP.SRC_L4 == e.2.port && spGet p.sp SP.DST_L4 == e.2.lport)).map (fun e => e.1)

/-- SCE_PACKET_RECEIVE: the segment longest at the SCE is taken, or dropped by reason (R375). `seg` is what its PDUs are found
to be and `slot` the command they carry data for. The receive window is the SCE's own: its size is free. -/
def execScePacketReceive (seg : SegSeen) (slot : Option (Fin 262144)) (s : State) : Res :=
  match s.sce.input with
  | [] => .next s
  | p :: rest =>
    let s := { s with sce := { s.sce with input := rest } }
    if s.blockHeld 13 then .next (s.heldDropLate 13 p) else
    let drop := fun (s : State) (r : Nat) => s.dropLate p (R.SCE_DROP_CNT r) 13 r
    match s.connOf p with
    | none => .next (drop s 0)
    | some k =>
      let c := s.conn k
      let l4 := spGet p.sp SP.L4_OFF
      let sq := BitVec.ofNat 32 (beAt p.bytes (l4 + 4) 4)
      let ack := BitVec.ofNat 32 (beAt p.bytes (l4 + 8) 4)
      let syn := beAt p.bytes (l4 + 13) 1 / 2 % 2 == 1
      let hdr := beAt p.bytes (l4 + 12) 1 / 16 * 4
      let ipEnd := if spGet p.sp SP.L3_TYPE = 2 then spGet p.sp SP.L3_OFF + 40 + beAt p.bytes (spGet p.sp SP.L3_OFF + 4) 2
        else spGet p.sp SP.L3_OFF + beAt p.bytes (spGet p.sp SP.L3_OFF + 2) 2
      let len := ipEnd - l4 - hdr
      let d := (sq - c.rcvNxt).toNat
      let acked := (ack - (c.sndNxt - BitVec.ofNat 32 c.unacked.length)).toNat
      if !c.up ∧ !c.connecting then .next (drop s 6)
      else if syn then .next ((s.setConn k { c with rcvNxt := sq + 1 }).endPkt p none)
      else if 2147483648 ≤ d ∧ (sq + BitVec.ofNat 32 len - c.rcvNxt).toNat % 4294967296 ≥ 2147483648 then .next (drop s 4)
      else if 2147483648 ≤ d ∧ sq + BitVec.ofNat 32 len = c.rcvNxt ∧ 0 < len then .next (drop s 4)
      else if d < 2147483648 ∧ fld s.fresh 0 30 < d then .next (drop s.drew 1)
      else
        let c := { c with
          rcvNxt := if d = 0 ∨ 2147483648 ≤ d then sq + BitVec.ofNat 32 len else c.rcvNxt
          unacked := if acked ≤ c.unacked.length then c.unacked.drop acked else c.unacked
          timeouts := if 0 < acked ∧ acked ≤ c.unacked.length then 0 else c.timeouts }
        let s := s.setConn k c
        let gone : Bool := match slot with
          | some x => (s.cmd x.val).isNone
          | none => false
        match seg with
        | .badDigest => .next (drop s 2)
        | .malformed => .next (drop s 3)
        | .good => .next (if gone then drop s 5 else s.endPkt p none)
        | .r2t i off n =>
          if gone then .next (drop s 5) else
          let s := s.endPkt p none
          match slot.bind (fun x => s.cmd x.val) with
          | none => .next s
          | some x => match x.pieces[i]? with
            | none => .next s
            | some pc => .next (s.sendH2C x pc off n)

/-- TCP_RETRANSMIT_TIMEOUT: the oldest segment is sent again; after 7 timeouts in a row the connection is down (Table
15-8). -/
def execTcpRetransmitTimeout (conn : Fin 4096) (s : State) : Res :=
  let k := conn.val
  let c := s.conn k
  if !c.up ∨ c.rdma ∨ c.unacked.isEmpty then .next s
  else if 7 ≤ c.timeouts + 1 then .next (s.connDown k 0)
  else
    let una := c.sndNxt - BitVec.ofNat 32 c.unacked.length
    .next (s.drew.setConn k { c with timeouts := c.timeouts + 1 } |>.sceOut c
      (tcpFrame c 0x10 una.toNat c.rcvNxt.toNat s.fresh (c.unacked.take (max 1 c.mss))))

/-- NVME_CTRL_CFG (code 0x6B). -/
def execNvmeCtrlCfg (ch : BitVec 13) (seq : BitVec 4) (s : State) : Res :=
  .next (s.gcs ch seq 0x6B (fun s c =>
    let b := padTo 8 c.args
    let f := leAt b 0 2
    if 8192 ≤ f ∨ leAt b 2 2 ≠ 0 ∨ !s.isStorage f then (s, .badArg)
    else if f ≠ ch.toNat ∧ ch.toNat ≠ s.manager then (s, .notOwned)
    else (s.updCtrl f (fun x => { x with ps1Mbps := BitVec.ofNat 32 (leAt b 4 4) }), .ok 0)))

/-- A namespace of a controller has changed (R363). -/
def State.nsChanged (s : State) (f n : Nat) : State :=
  let s := s.updCtrl f (fun c => { c with changed := (c.changed.filter (· ≠ n) ++ [n]) })
  s.asyncEvent f 0x00040002 true

/-- NVME_NS_ATTACH (code 0x6C, Table 15-7). An NSID in use, or the detach of one that is not, is GCS_BAD_ARG (DEDUCED). -/
def execNvmeNsAttach (ch : BitVec 13) (seq : BitVec 4) (s : State) : Res :=
  .next (s.gcs ch seq 0x6C (fun s c =>
    let b := padTo 20 c.args
    let n := leAt b 0 4
    let f := leAt b 4 2
    let id := leAt b 6 2
    let flags := leAt b 8 1
    let pr := leAt b 10 2
    let se := leAt b 12 2
    if 65536 ≤ n ∨ id = 0 ∨ 1024 < id ∨ 4 ≤ flags ∨ leAt b 9 1 ≠ 0 ∨ leAt b 14 2 ≠ 0 ∨ !s.isStorage f ∨ 4096 ≤ pr ∨ (4096 ≤ se ∧ se ≠ 0xFFFF) then (s, .badArg)
    else if flags % 2 = 1 then
      if s.attached f id ≠ some n then (s, .badArg) else
      let s := s.setAttached f id 0
      let s := s.if_ (!s.sce.attach.any (fun e => e.2 == n + 1)) (fun s => s.setNsEntry n NsEntry.empty)
      (s.nsChanged f id, .ok 0)
    else if (s.attached f id).isSome then (s, .badArg)
    else
      let e : NsEntry := ⟨true, decide (2 ≤ flags), pr, se, BitVec.ofNat 32 (leAt b 16 4), false⟩
      (((s.setNsEntry n e).setAttached f id (n + 1)).nsChanged f id, .ok 0)))

/-- Whether BACKEND_CONNECT's fields lie within their rows (Table 15-6). -/
def backendArgsOk (b : Bytes) : Bool :=
  let flags := leAt b 3 1
  let rdma := leAt b 2 1 == 1
  let queues := leAt b 4 2
  decide (leAt b 0 2 < 4096) && decide (leAt b 2 1 ≤ 1) && decide (flags < 32) && (flags / 16 % 2 == 1 ||
    (decide (1 ≤ queues) && decide (queues ≤ 64) && decide (16 ≤ leAt b 6 2) && decide (leAt b 6 2 ≤ 1024) &&
     addrOk (flags / 8 % 2 == 1) (leAt b 8 16) && addrOk (flags / 8 % 2 == 1) (leAt b 24 16) && decide (leAt b 44 4 < 262144) &&
     (!rdma || decide (leAt b 48 4 + queues < 262144)) && (flags / 4 % 2 == 0 || decide (leAt b 52 4 < 1048576))))

/-- BACKEND_CONNECT (code 0x6D, R364). Opening one already open is GCS_BAD_ARG (DEDUCED). -/
def execBackendConnect (ch : BitVec 13) (seq : BitVec 4) (s : State) : Res :=
  .next (s.gcs ch seq 0x6D (fun s c =>
    let b := padTo 568 c.args
    let k := leAt b 0 2
    let flags := leAt b 3 1
    if !backendArgsOk b then (s, .badArg)
    else if flags / 16 % 2 = 1 then
      let s := if (s.conn k).up then s.connDown k 3 else s
      let w := (s.conn k).waiter
      ((s.drew.setConn k Conn.closed).finish w (BitVec.ofNat 16 (0x6000 + fld s.fresh 0 12)) 0, .ok 0)
    else if (s.conn k).opened then (s, .badArg)
    else
      let x : Conn := { Conn.closed with
        opened := true, rdma := leAt b 2 1 == 1, lport := fld s.fresh 0 16, flags := BitVec.ofNat 8 flags, queues := leAt b 4 2
        depth := leAt b 6 2, localAddr := BitVec.ofNat 128 (leAt b 8 16), remoteAddr := BitVec.ofNat 128 (leAt b 24 16)
        port := leAt b 40 2, mss := leAt b 42 2, leaf := leAt b 44 4, qpBase := leAt b 48 4, sa := leAt b 52 4
        subnqn := slice b 56 256, hostnqn := slice b 312 256, waiter := some (ch.toNat, seq.toNat) }
      ((s.drew.setConn k x).connect k, .wait)))

/-- CTRL_FATAL: an internal error of the SCE for a READY controller. -/
def execCtrlFatal (f : Fin 4104) (s : State) : Res :=
  .next (if (s.ctrl f.val).st ≠ .ready then s
    else (s.updCtrl f.val (fun c => { c with st := .fatal, cfs := true })).raise 0x681 f.val (cntlid f.val) 0)

/-- The controller record of Table 15-13. -/
def State.ctrlRecord (s : State) (f : Nat) : Bytes :=
  let c := s.ctrl f
  let qs := (s.sce.sq.filter (fun e => e.1 / 2048 == f && e.1 % 2048 != 0 && e.2.live)).length
  leBytes 1 c.st.code.toNat ++ leBytes 1 (c.ps.toNat + at' (b2n c.psEntry.isSome) 2) ++ leBytes 2 qs ++ bvBytes c.cc ++
  leBytes 4 (s.ioOut f).length ++ leBytes 4 (s.nsids f).length ++ bvBytes c.commands ++ bvBytes c.errors ++
  bvBytes c.readBytes ++ bvBytes c.writeBytes ++ bvBytes c.lastTime ++ leBytes 8 0

/-- SCE_IND_READ: SCE_IND_CTL written with OP 0b01 (Table 15-11). The layout of the records of KIND 1 to 3 is not given: their
bytes are free. -/
def execSceIndRead (v : Word) (s : State) : Res :=
  if s.blockHeld 13 ∨ fld v 30 2 ≠ 1 then .next s else
  let s := s.wr R.SCE_IND_CTL ((v &&& 0xF0FFFFFF).setWidth 64)
  let kind := fld v 28 2
  let i := fld v 0 24
  let lim := match kind with
    | 0 => 4104
    | 1 => 65536
    | 2 => 4096
    | _ => 4104 * 2048
  if lim ≤ i then .next (s.wr R.SCE_IND_STATUS 0xC0000000) else
  let (b, s) := if kind = 0 then (s.ctrlRecord i, s) else s.freeBytes 256
  .next ((s.each (List.range (b.length / 4)) (fun s k =>
    s.wr (R.SCE_IND_DATA k) (BitVec.ofNat 64 (leAt b (4 * k) 4)))).wr R.SCE_IND_STATUS 0x80000000)

end Sys2Proof.Machine
end

