-- ==== Sys2Proof/Machine/Ciph.lean ====
section
/-!
DEFINITION. Machine/Ciph.lean: security associations, cipher cores and data services as commands (R376 to R389).
-/
namespace Sys2Proof.Machine
open Sys2Proof

/-- The function whose toll gates, and so whose SA indices, take in index `k` (R378). -/
def State.saOwner (s : State) (k : Nat) : Option Nat :=
  (s.fnm.inst.find? (fun e => e.2.st != .absent && decide (e.2.alloc.tollBase ≤ k) &&
    decide (k < e.2.alloc.tollBase + e.2.alloc.tollCount))).map (fun e => e.1)

/-- Whether a sender may add or delete an association of protocol `proto` at index `k` (R378). To replace a MACsec association is
to delete it: the manager's alone. -/
def State.maySa (s : State) (ch k proto : Nat) : Bool :=
  ch == s.manager || (proto != 0 && s.saOwner k == some ch && !((s.sa k).valid && (s.sa k).proto == 0))

/-- Whether the fields of an SA_ADD block lie within Tables 16-1 and 16-3. -/
def saFieldsOk (b : Bytes) : Bool :=
  let c := bytesBv 32 (slice b 4 4)
  let proto := fld c 28 2
  let inbound := bit c 30
  let flags := leAt b 12 1
  let tunnelOut := proto == 1 && !inbound && bit c 25
  let tl := leAt b 14 2
  decide (leAt b 0 4 < 1048576) && bit c 31 && proto != 3 && fld c 16 8 == 0 && decide (flags < 4) &&
  (flags / 2 == 0 || (proto == 0 && !inbound)) && (proto != 0 || decide (leAt b 8 4 < 256)) && (proto != 2 || leAt b 8 4 == 0) &&
  (proto != 0 || decide (leAt b 13 1 ∈ [0, 30, 50])) && (if tunnelOut then decide (20 ≤ tl) && decide (tl ≤ 128) else tl == 0) &&
  (proto != 0 || decide (leAt b 40 4 < 1073741824)) && (proto != 1 || decide (leAt b 40 4 ≤ 4096))

/-- The record that an SA_ADD block installs for owner `f`. -/
def saOf (b : Bytes) (f : Nat) : SaRec :=
  { SaRec.empty with
    control := setFld (bytesBv 32 (slice b 4 4)) 0 13 f, spi := bytesBv 32 (slice b 8 4), seq := bytesBv 64 (slice b 32 8)
    window := bytesBv 32 (slice b 40 4), tcpSeq := bytesBv 32 (slice b 44 4)
    key := if bit (bytesBv 32 (slice b 4 4)) 27 then bytesBv 256 (slice b 48 32) else bytesBv 256 (slice b 48 16)
    salt := bytesBv 96 (slice b 16 12), ssci := bytesBv 32 (slice b 28 4), sci := bytesBv 64 (slice b 80 8)
    offset := leAt b 13 1, template := slice b 128 (leAt b 14 2) }

def State.txCurrent (s : State) (p : Nat) : Nat := mapGet (fun _ => 0xFFFFF) s.ciph.txCurrent p

def State.txNext (s : State) (p : Nat) : Nat := mapGet (fun _ => 0xFFFFF) s.ciph.txNext p

def State.setTxNext (s : State) (p k : Nat) : State :=
  { s with ciph := { s.ciph with txNext := mapSet (fun _ => 0xFFFFF) s.ciph.txNext p k } }

/-- SA_ADD (code 0x6E, R378, R380, R387). -/
def execSaAdd (ch : BitVec 13) (seq : BitVec 4) (s : State) : Res :=
  .next (s.gcs ch seq 0x6E (fun s c =>
    let b := padTo 256 c.args
    let k := leAt b 0 4
    let a := saOf b ((s.saOwner k).getD ch.toNat)
    let flags := leAt b 12 1
    if !saFieldsOk b then (s, .no 0x10C0)
    else if !s.maySa ch.toNat k a.proto then (s, .notOwned)
    else if (s.sa k).valid ∧ flags % 2 = 0 then (s, .no 0x30C0)
    else
      let s := s.setSa k a
      if flags / 2 % 2 = 1 then
        let s := s.setTxNext a.port k
        ({ s with ciph := { s.ciph with switchWait := s.ciph.switchWait ++ [(a.port, ch.toNat, seq.toNat)] } }, .wait)
      else (s, .ok 0)))

/-- MACSEC_TX_SWITCH: a frame boundary of port `p` with an association waiting to become current (R387). -/
def execMacsecTxSwitch (p : Fin 8) (s : State) : Res :=
  let k := s.txNext p.val
  if k = 0xFFFFF then .next s else
  let s := (s.setTxNext p.val 0xFFFFF)
  let s := { s with ciph := { s.ciph with txCurrent := mapSet (fun _ => 0xFFFFF) s.ciph.txCurrent p.val k } }
  let s := s.raise (0x710 + p.val) noFunc k (fld (s.sa k).spi 0 2)
  let mine := s.ciph.switchWait.filter (fun w => w.1 == p.val)
  let s := { s with ciph := { s.ciph with switchWait := s.ciph.switchWait.filter (fun w => w.1 != p.val) } }
  .next (s.each mine (fun s w => s.finish (some w.2) 0 0))

/-- SA_DELETE (code 0x6F, R380). -/
def execSaDelete (ch : BitVec 13) (seq : BitVec 4) (s : State) : Res :=
  .next (s.gcs ch seq 0x6F (fun s c =>
    let k := c.imm
    let a := s.sa k
    if 1048576 ≤ k then (s, .badArg)
    else if !s.maySa ch.toNat k (if a.valid then a.proto else 1) then (s, .notOwned)
    else
      let s := s.setSa k { a with control := setBit a.control 31 false }
      ({ s with ciph := { s.ciph with deleting := s.ciph.deleting ++ [⟨k, some (ch.toNat, seq.toNat)⟩] } }, .wait)))

/-- SA_DELETE_DONE: every packet begun under the association has left its core. -/
def execSaDeleteDone (sa : Fin 1048576) (s : State) : Res :=
  let mine := s.ciph.deleting.filter (fun w => w.sa == sa.val)
  let s := { s with ciph := { s.ciph with deleting := s.ciph.deleting.filter (fun w => w.sa != sa.val) } }
  .next (s.each mine (fun s w => s.finish w.waiter 0 0))

/-- A cipher core leaves service (R377). -/
def State.coreOut (s : State) (core : Nat) : State :=
  if !bit s.ciph.cores core then s else
  let v := setBit s.ciph.cores core false
  { s with ciph := { s.ciph with cores := v } }.raise 0x706 noFunc core (bitsSet v 20).length

/-- CORE_FAULT. -/
def execCoreFault (core : Fin 20) (s : State) : Res := .next (s.coreOut core.val)

/-- A data-service operation has run: counted and completed (R388). -/
def State.dsEnd (s : State) (r : Nat) (o : RingOp) (st : Status) (bytes crc : Nat) : State :=
  let s := ((s.bump R.CIPH_DS_OP_CNT).bumpN R.CIPH_DS_IN_BYTE_CNT (descLen o.desc)).bumpN R.CIPH_DS_OUT_BYTE_CNT bytes
  let s := if st = 0 then s else s.raise 0x705 (s.ring r).func r st.toNat
  s.endOp r o.no st bytes (leBytes 4 crc)

/-- The CRC-32C of the uncompressed data where FLAGS asks for it; the field is open where it does not. -/
def State.dsCrc (s : State) (o : RingOp) (plain : Bytes) : Nat :=
  if bit o.desc 240 then (crc32c plain).toNat else fld s.fresh 0 32

/-- What an operation whose output exceeds DEST_LEN leaves at its destination (R388): the spec leaves those bytes undefined, so how
many are written, and what, are free values. -/
def State.dsShort (s : State) (k : Ring) (o : RingOp) : State :=
  let (junk, t) := s.drew.freeBytes (fld s.fresh 32 32 % (fld o.desc 192 32 + 1))
  if junk.isEmpty then t else (t.hostPut k.func (t.ringPasid k) (BitVec.ofNat 64 (descB o.desc)) junk).1

/-- Output written at ADDR_B with the ring's PASID, where it fits DEST_LEN; a write that fails gives the operation its status
(R230). -/
def State.dsOut (s : State) (r : Nat) (k : Ring) (o : RingOp) (out plain : Bytes) : State :=
  let crc := s.dsCrc o plain
  if fld o.desc 192 32 < out.length then (s.dsShort k o).dsEnd r o 0x30C8 0 crc
  else
    let (s, sent, st) := s.drew.hostPut k.func (s.ringPasid k) (BitVec.ofNat 64 (descB o.desc)) out
    s.dsEnd r o (st.getD 0) sent crc

/-- A compression: operation 1 DEFLATE, 3 Zstandard; LEVEL 0 acts as 6. -/
def dsCompress (op r : Nat) (s : State) (k : Ring) (o : RingOp) : State :=
  let src := padTo (descLen o.desc) o.data
  let level := if fld o.desc 224 8 = 0 then 6 else fld o.desc 224 8
  s.dsOut r k o (Config.compress op level (fld o.desc 232 8) src) src

/-- A decompression: operation 2 DEFLATE, 4 Zstandard. -/
def dsDecompress (op r : Nat) (s : State) (k : Ring) (o : RingOp) : State :=
  match Config.decompress op (fld o.desc 232 8) (padTo (descLen o.desc) o.data) with
  | .data b => s.dsOut r k o b b
  | .bad => s.drew.dsEnd r o 0x10C8 0 (fld s.fresh 0 32)
  | .unsupported => s.drew.dsEnd r o 0x10C9 0 (fld s.fresh 0 32)

/-- DEFLATE_COMPRESS. -/
def execDeflateCompress (ring : BitVec 20) (no : Nat) (s : State) : Res :=
  .next (s.runOp ring.toNat no 0x5001 true (dsCompress 1 ring.toNat))

/-- DEFLATE_DECOMPRESS. -/
def execDeflateDecompress (ring : BitVec 20) (no : Nat) (s : State) : Res :=
  .next (s.runOp ring.toNat no 0x5002 true (dsDecompress 2 ring.toNat))

/-- ZSTD_COMPRESS. -/
def execZstdCompress (ring : BitVec 20) (no : Nat) (s : State) : Res :=
  .next (s.runOp ring.toNat no 0x5003 true (dsCompress 3 ring.toNat))

/-- ZSTD_DECOMPRESS. -/
def execZstdDecompress (ring : BitVec 20) (no : Nat) (s : State) : Res :=
  .next (s.runOp ring.toNat no 0x5004 true (dsDecompress 4 ring.toNat))

/-- A CRC of the source from SEED, without a final XOR (Table 16-6). -/
def dsCrcRun (poly : Word) (r : Nat) (s : State) (_ : Ring) (o : RingOp) : State :=
  s.dsEnd r o 0 0 (crcFrom poly (BitVec.ofNat 32 (fld o.desc 256 32)) (padTo (descLen o.desc) o.data)).toNat

/-- CRC32C. -/
def execCrc32c (ring : BitVec 20) (no : Nat) (s : State) : Res :=
  .next (s.runOp ring.toNat no 0x5010 false (dsCrcRun polyC ring.toNat))

/-- CRC32_IEEE. -/
def execCrc32Ieee (ring : BitVec 20) (no : Nat) (s : State) : Res :=
  .next (s.runOp ring.toNat no 0x5011 false (dsCrcRun polyE ring.toNat))

/-- An SA record as read: KEY reads 0 (Table 16-2, R379). -/
def SaRec.record (a : SaRec) : Bytes :=
  bvBytes a.control ++ bvBytes a.spi ++ bvBytes a.seq ++ bvBytes a.window ++ bvBytes a.tcpSeq ++ bvBytes a.pkts ++
    bvBytes a.bytes ++ bvBytes a.fails ++ bvBytes a.lastTime ++ leBytes 8 0

/-- CIPH_IND_READ: CIPH_IND_CTL written with OP 0b01. -/
def execCiphIndRead (v : Word) (s : State) : Res :=
  if s.blockHeld 14 ∨ fld v 30 2 ≠ 1 then .next s else
  let s := s.wr R.CIPH_IND_CTL ((v &&& 0xC00FFFFF).setWidth 64)
  let b := (s.sa (fld v 0 20)).record
  .next ((s.each (List.range 16) (fun s k => s.wr (R.CIPH_IND_DATA k) (BitVec.ofNat 64 (leAt b (4 * k) 4)))).wr
    R.CIPH_IND_STATUS 0x80000000)

end Sys2Proof.Machine
end

