-- ==== Sys2Proof/Machine/Sched.lean ====
section
/-!
DEFINITION. Machine/Sched.lean: what the traffic manager's commands share: nodes and leaf queues, their removal and drops, the
time gates, and the choice of the next packet of a port node (R132 to R138, R144, R146, R152 to R156).
-/
namespace Sys2Proof.Machine
open Sys2Proof

/-- A node after reset: OVERHEAD 24 for line port nodes, 0 for the others. -/
def TmNode.reset (k : Nat) : TmNode :=
  ⟨0, ⟨0, 0, 0, 0⟩, ⟨0, 0, 0, 0⟩, 0, 0, if 81920 ≤ k ∧ k < 81928 then 24 else 0, 0, 0⟩

/-- The key of a service node among the nodes. -/
def svcKey (v : Nat) : Nat := 65536 + v

/-- The key of a port node among the nodes. -/
def portKey (n : Nat) : Nat := 81920 + n

def State.tmNode (s : State) (k : Nat) : TmNode := mapGet TmNode.reset s.tm.node k

def State.setTmNode (s : State) (k : Nat) (v : TmNode) : State :=
  { s with tm := { s.tm with node := mapSet TmNode.reset s.tm.node k v } }

def State.leafCfg (s : State) (l : Nat) : BitVec 128 := mapGet (fun _ => 0) s.tm.leafCfg l

def State.setLeafCfg (s : State) (l : Nat) (v : BitVec 128) : State :=
  { s with tm := { s.tm with leafCfg := mapSet (fun _ => 0) s.tm.leafCfg l v } }

def State.leafQ (s : State) (l : Nat) : List QPkt := mapGet (fun _ => ([] : List QPkt)) s.tm.leafQ l

def State.setLeafQ (s : State) (l : Nat) (q : List QPkt) : State :=
  { s with tm := { s.tm with leafQ := mapSet (fun _ => []) s.tm.leafQ l q } }

def State.leafCnt (s : State) (l : Nat) : LeafCnt := mapGet (fun _ => LeafCnt.zero) s.tm.leafCnt l

def State.updLeafCnt (s : State) (l : Nat) (g : LeafCnt → LeafCnt) : State :=
  { s with tm := { s.tm with leafCnt := mapSet (fun _ => LeafCnt.zero) s.tm.leafCnt l (g (s.leafCnt l)) } }

/-- The service node a subscriber names in PARENT (R132). -/
def State.subSvc (s : State) (u : Nat) : Nat := fld (s.tmNode u).control 0 14

/-- The port node a service names in PARENT. -/
def State.svcPort (s : State) (v : Nat) : Nat := fld (s.tmNode (svcKey v)).control 0 4

/-- The port node of a leaf queue. -/
def State.leafPort (s : State) (l : Nat) : Nat := s.svcPort (s.subSvc (l / 4))

/-- ENABLE of a node. -/
def State.nodeOn (s : State) (k : Nat) : Bool := bit (s.tmNode k).control 31

/-- The port node that feeds the management port (R167): TM_PORT 8 to 15. -/
def State.mgmtNode (s : State) : Option Nat :=
  let v := s.rdf R.LINE_MGMT_CFG 0 4
  if 8 ≤ v then some v else none

/-- BIND of a host-facing port node. -/
def State.nodeBind (s : State) (n : Nat) : Nat := fld (s.tmNode (portKey n)).weights 8 2

/-- UP of a port node (R146, R159, R167). -/
def State.nodeUp (s : State) (n : Nat) : Bool :=
  if n < 8 then decide (n < s.portOpt.1) && (s.port n).st == .up
  else if s.mgmtNode = some n then s.line.mgmtUp
  else (s.link (s.nodeBind n)).dlUp

/-- DEPTH of a leaf queue in cells. -/
def State.leafDepth (s : State) (l : Nat) : Nat := ((s.leafQ l).map (fun q => q.pkt.cells)).sum

/-- TM_POOL_USED: the cells of the leaf queues whose POOL is `p`. -/
def State.poolUsed (s : State) (p : Nat) : Nat :=
  ((s.tm.leafQ.filter (fun e => fld (s.leafCfg e.1) 121 5 == p)).map
    (fun e => (e.2.map (fun q => q.pkt.cells)).sum)).sum

/-- The leaf queues that hold packets. -/
def State.busyLeaves (s : State) : List Nat := s.tm.leafQ.map (fun e => e.1)

/-- The subscribers with a packet queued. -/
def State.busySubs (s : State) : List Nat := (s.busyLeaves.map (fun l => l / 4)).eraseDups

/-- Whether a packet is queued below a subscriber, service or port node (KIND 3 to 5). -/
def State.busyBelow (s : State) (kind i : Nat) : Bool := s.busyLeaves.any (fun l => match kind with
  | 3 => l / 4 == i
  | 4 => s.subSvc (l / 4) == i
  | _ => s.leafPort l == i)

/-- A signed byte as a number. -/
def sbyte (x : Nat) : Int := if x < 128 then x else (x : Int) - 256

/-- OVERHEAD of a port node. -/
def State.overhead (s : State) (n : Nat) : Int := sbyte (fld (s.tmNode (portKey n)).weights 0 8)

/-- PKT_LEN as the next-hop entry leaves it on a line port (R163). -/
def State.outLen (s : State) (n : Nat) (p : Pkt) : Int :=
  (spGet p.sp SP.PKT_LEN : Int) + if n < 8 then vlanDelta p.sp (s.rewriteEntry p.sp) else 0

/-- The wire length W of a packet at a port node. -/
def State.wire (s : State) (n : Nat) (p : Pkt) : Nat := (s.outLen n p + s.overhead n).toNat

/-- A node whose queues below hold nothing any more has its deficits set to 0 (R136). -/
def State.clearDef (s : State) (busy : Bool) (k : Nat) : State :=
  if busy then s else s.setTmNode k { s.tmNode k with defC := 0, defE := 0 }

/-- What an emptied leaf queue means for the deficits on its path (R136). -/
def State.leafIdle (s : State) (l : Nat) : State :=
  if !(s.leafQ l).isEmpty then s else
  let s := { s with tm := { s.tm with leafDef := mapSet (fun _ => 0) s.tm.leafDef l 0 } }
  let u := l / 4
  let v := s.subSvc u
  (s.clearDef (s.busyBelow 3 u) u).clearDef (s.busyBelow 4 v) (svcKey v)

/-- A packet dropped by the traffic manager for reason `r`, counted for its leaf queue (R142, Table 6-6). -/
def State.dropCount (s : State) (l : Nat) (p : Pkt) (r : Nat) : State :=
  (s.updLeafCnt l (fun c => { c with
    dropP := c.dropP + 1, dropB := c.dropB + BitVec.ofNat 64 (spGet p.sp SP.PKT_LEN)
    lastDrop := setFld s.now 0 4 r })).trace 2 p.sp p.bytes 0 9 r 0

/-- A queued packet dropped, its terminal with it. -/
def State.dropQueued (s : State) (l : Nat) (p : Pkt) (r : Nat) : State :=
  (s.dropCount l p r).dropLate p (R.TM_DROP_CNT r) 9 r

/-- The packets of a leaf queue from its head that have waited longer than SOJOURN are dropped there (R144). -/
def State.dropStale (s : State) (l : Nat) : List QPkt → State
  | [] => s.setLeafQ l []
  | q :: rest =>
    let lim := fld (s.leafCfg l) 0 20
    if lim ≠ 0 ∧ lim * 1000 < s.now.toNat - q.time.toNat then (s.dropQueued l q.pkt 5).dropStale l rest
    else s.setLeafQ l (q :: rest)

/-- The head packet of a leaf queue leaves it; the next one comes to the head (R144). -/
def State.popLeaf (s : State) (l : Nat) : State := (s.dropStale l (s.leafQ l).tail).leafIdle l

/-- Every packet of a leaf queue dropped for reason `r`. -/
def State.flushLeaf (s : State) (l r : Nat) : State :=
  let q := s.leafQ l
  ((s.setLeafQ l []).each q (fun s q => s.dropQueued l q.pkt r)).leafIdle l

/-- A port node flushed: every packet below it dropped, PORT_FLUSHED raised (R146); with the packets dropped. -/
def State.flushNode (s : State) (n r : Nat) : State × Nat :=
  let ls := s.busyLeaves.filter (fun l => s.leafPort l == n)
  let k := (ls.map (fun l => (s.leafQ l).length)).sum
  ((s.each ls (fun s l => s.flushLeaf l r)).raise 0x3B8 noFunc n r, k)

/-- The port nodes whose UP was 1 in `before` and is 0 now are flushed (R146). -/
def State.flushFallen (s before : State) : State :=
  s.each ((List.range 16).filter (fun n => before.nodeUp n && !s.nodeUp n))
    (fun s n => (s.flushNode n (if n < 8 then 7 else 8)).1)

/-- A stretch of a gate control list within its cycle: entry, start, end, gates. -/
structure GateSeg where
  entry : Nat
  start : Nat
  stop : Nat
  gates : Byte
  deriving DecidableEq, Repr

/-- The stretches of a list (R152): the last entry holds to the cycle's end, an entry beyond it is cut. -/
def gateSegs (cycle : Nat) : Nat → Nat → List DWord → List GateSeg
  | _, _, [] => []
  | e, t, x :: rest =>
    if cycle ≤ t then [] else
    let g := BitVec.ofNat 8 (fld x 32 8)
    let u := if rest.isEmpty then cycle else min cycle (t + fld x 0 30)
    if t < u then ⟨e, t, u, g⟩ :: gateSegs cycle (e + 1) u rest else gateSegs cycle (e + 1) u rest

def State.gate (s : State) (p : Nat) : TimeGate := mapGet (fun _ => TimeGate.reset) s.tm.gate p

def State.setGate (s : State) (p : Nat) (g : TimeGate) : State :=
  { s with tm := { s.tm with gate := mapSet (fun _ => TimeGate.reset) s.tm.gate p g } }

/-- CYCLE and LEN within their limits (R152). -/
def cycleOf (c : Word) : Nat := max 1000 (min 1000000000 (fld c 0 30))
def gateLen (n : Nat) : Nat := max 1 (min 1024 n)

/-- The stretches of bank `bank` of port `p`. -/
def State.bankSegs (s : State) (p : Nat) (bank : Bool) (cycle len : Nat) : List GateSeg :=
  gateSegs cycle 0 0 (mapGetList (fun _ => 0) s.tm.gcl (p * 2048 + b2n bank * 1024) len)

/-- The active list of a port. -/
def State.activeSegs (s : State) (p : Nat) : List GateSeg :=
  let g := s.gate p
  s.bankSegs p g.bank (cycleOf g.cycle) (gateLen g.len)

/-- Where Milepost time stands in a list's cycle. -/
def cyclePos (now base : DWord) (cycle : Nat) : Nat := (((now.toNat : Int) - base.toNat) % (cycle : Int)).toNat

/-- The time from `pos` until class `t` is first closed, within one cycle of a list; none where it never is. -/
def closeIn (segs : List GateSeg) (cycle pos t : Nat) : Option Nat :=
  let here := (segs.filter (fun g => decide (pos < g.stop))).map (fun g => (g.start - pos, g.gates))
  let next := segs.map (fun g => (g.start + cycle - pos, g.gates))
  ((here ++ next).find? (fun g => !bit g.2 t)).map (fun g => g.1)

/-- The time until the gate of class `t` of port `p` next closes, from the lists as they will run: from a pending switch on, those of
the new list (R153). -/
def State.nextClose (s : State) (p t : Nat) : Option Nat :=
  let g := s.gate p
  let cyc := cycleOf g.cycle
  let now := closeIn (s.activeSegs p) cyc (cyclePos s.now g.base cyc) t
  match g.pending with
  | none => now
  | some at_ =>
    let left := at_.toNat - s.now.toNat
    let nc := cycleOf g.pendCycle
    let later := (closeIn (s.bankSegs p (!g.bank) nc (gateLen g.pendLen)) nc 0 t).map (fun x => left + x)
    match now with
    | some x => if x < left then some x else later
    | none => later

/-- MAXOPEN of class `t` of a list (R155): the longest run of stretches with the gate open, across the cycle boundary. -/
def maxOpen (segs : List GateSeg) (t : Nat) : Word :=
  if segs.all (fun g => bit g.gates t) then 0xFFFFFFFF else
  let r := (segs ++ segs).foldl (fun (a : Nat × Nat) g =>
    let run := if bit g.gates t then a.1 + (g.stop - g.start) else 0
    (run, max a.2 run)) (0, 0)
  BitVec.ofNat 32 r.2

/-- The gates a port follows from an entry boundary on, with TM_TG_CFG as it stands there (R152): those of the entry into
which Milepost time falls, or all open. -/
def State.gateNow (s : State) (p : Nat) : State :=
  let g := { s.gate p with cfg := (s.rd (R.TM_TG_CFG p)).setWidth 32 }
  if !bit g.cfg 31 then s.setGate p { g with gates := 0xFF } else
  let pos := cyclePos s.now g.base (cycleOf g.cycle)
  match (s.activeSegs p).find? (fun x => decide (pos < x.stop)) with
  | some x => s.setGate p { g with entry := x.entry, gates := x.gates }
  | none => s.setGate p g

/-- The pending list becomes the active one, with its MAXOPEN (R155, R156). -/
def State.gateSwap (s : State) (p : Nat) : State :=
  let g := s.gate p
  let g := { g with
    bank := !g.bank, pending := none, base := g.pendBase, cycle := g.pendCycle, len := g.pendLen, entry := 0 }
  let s := s.setGate p g
  let segs := s.activeSegs p
  (s.setGate p { g with maxOpen := (List.range 8).map (fun t => maxOpen segs t) }).raise (0x3A0 + p) noFunc
    (gateLen g.len) (b2n g.bank)

/-- A request to switch (R156): S is set, and the values it will use are taken. -/
def State.gateRequest (s : State) (p : Nat) : State :=
  let base := s.rd (R.TM_TG_NEXT_BASE p)
  let cyc := (s.rd (R.TM_TG_NEXT_CYCLE p)).setWidth 32
  let earliest := s.now.toNat + 2000
  let at_ := BitVec.ofNat 64 (if earliest ≤ base.toNat then base.toNat
    else base.toNat + ceilDiv (earliest - base.toNat) (cycleOf cyc) * cycleOf cyc)
  (s.setGate p { s.gate p with
    pending := some at_, pendBase := base, pendCycle := cyc, pendLen := s.rdf (R.TM_TG_NEXT_LEN p) 0 11 }).wr
      (R.TM_TG_SWITCH_TIME p) at_

/-- The time gates meet a step of Milepost time (the end of "Time gates", R170). -/
def State.gateResync (s : State) : State :=
  let s := s.bump R.TM_TG_STEP_CNT
  s.each ((List.range 8).filter (fun p => bit (s.gate p).cfg 31)) (fun s p =>
    let due := match (s.gate p).pending with
      | some at_ => decide (at_.toNat ≤ s.now.toNat)
      | none => false
    let s := (if due then s.gateSwap p else s).gateNow p
    s.raise (0x3B0 + p) noFunc (s.gate p).entry 0)

/-- What the gate of a class says of a frame that would start now. -/
inductive GateSays where
  | opened | closed | deferred | oversize
  deriving DecidableEq, Repr

/-- The gate of class `t` of port node `n`, pause included, for a frame of wire length `w` (R153 to R155, R165). -/
def State.gateSays (s : State) (n t w : Nat) : GateSays :=
  if 8 ≤ n then .opened else
  let g := s.gate n
  let rate := s.portOpt.2
  let mo := g.maxOpen.getD t 0xFFFFFFFF
  let on := bit g.cfg 31
  if on && mo != 0xFFFFFFFF && decide (mo.toNat * rate < w * 8) then .oversize
  else if 0 < (s.port n).paused.getD t 0 then .closed
  else if !on then .opened
  else if !bit g.gates t then .closed
  else
    let b := if bit g.cfg 30 then fld g.cfg 0 16 else w
    match s.nextClose n t with
    | none => .opened
    | some x => if b * 8 < x * rate then .opened else .deferred

/-- A child that could send: its index, weight, the wire length of its head frame and its deficit. -/
structure Cand where
  id : Nat
  weight : Nat
  w : Nat
  deficit : Nat
  deriving DecidableEq, Repr

/-- DWRR from the child whose turn comes next: each gains on its turn until one can send (R136). The answer is that child and
the new deficits. -/
def dwrrGo (q : Nat) : Nat → List Cand → Option (Nat × List (Nat × Nat))
  | _, [] => none
  | 0, _ => none
  | fuel + 1, c :: rest =>
    let d := c.deficit + max 1 c.weight * q
    if c.w ≤ d then some (c.id, (c.id, d - c.w) :: rest.map (fun x => (x.id, x.deficit)))
    else dwrrGo q fuel (rest ++ [{ c with deficit := d }])

/-- The DWRR choice among children in rising order, where `turn` is the index plus 1 of the child whose turn it is: that
child sends while its deficit lasts. A child needs at most 260 turns of 64 bytes for the longest frame. -/
def dwrr (q turn : Nat) (cs : List Cand) : Option (Nat × List (Nat × Nat)) :=
  match cs.find? (fun c => c.id + 1 == turn && decide (c.w ≤ c.deficit)) with
  | some c => some (c.id, [(c.id, c.deficit - c.w)])
  | none =>
    dwrrGo q (cs.length * 260)
      (cs.filter (fun c => decide (turn < c.id + 1)) ++ cs.filter (fun c => decide (c.id + 1 ≤ turn)))

/-- A choice: leaf queue and wire length, the new deficits of nodes (true: the excess one) and leaf queues, the new turns,
and the nodes to charge with whether each was chosen committed (R138). -/
structure Pick where
  leaf : Nat
  w : Nat
  defs : List (Nat × Bool × Nat)
  leafDefs : List (Nat × Nat)
  turns : List (Nat × Nat)
  charged : List (Nat × Bool)
  deriving DecidableEq, Repr

/-- QUANTUM in force (Table 6-11). -/
def State.quantum (s : State) : Nat := max 64 (s.rdf R.TM_CFG 0 16)

def State.turn (s : State) (k : Nat) : Nat := mapGet (fun _ => 0) s.tm.turn k

/-- The choice below a subscriber (R137). A spilled head packet is not yet eligible (R394). -/
def State.subPick (s : State) (n u : Nat) : Option Pick :=
  let heads := [0, 1, 2, 3].filterMap (fun k => match s.leafQ (4 * u + k) with
    | q :: _ => if q.pkt.place = 1 then none else some (4 * u + k, s.wire n q.pkt)
    | [] => none)
  if !bit (s.tmNode u).control 30 then heads.getLast?.map (fun h => ⟨h.1, h.2, [], [], [], []⟩)
  else
    let cs := heads.map (fun h =>
      (⟨h.1, fld (s.tmNode u).weights (8 * (h.1 % 4)) 8, h.2, mapGet (fun _ => 0) s.tm.leafDef h.1⟩ : Cand))
    match dwrr s.quantum (s.turn (u * 32 + 16)) cs with
    | none => none
    | some (l, ds) => (heads.find? (fun h => h.1 == l)).map (fun h =>
        ⟨l, h.2, [], ds, [(u * 32 + 16, l + 1)], []⟩)

/-- Eligible as to its shaper (R135). -/
def TmNode.eligible (n : TmNode) : Bool := n.inForce.pir == 0 || decide (0 ≤ n.pLevel)

/-- Committed, where it is eligible (R135). -/
def TmNode.committed (n : TmNode) : Bool := n.inForce.cir != 0 && decide (0 ≤ n.cLevel)

/-- The DWRR choice among children of one round and class, each given as its key with the choice below it. -/
def State.pickAmong (s : State) (turnKey : Nat) (excess : Bool) (kids : List (Nat × Pick)) : Option Pick :=
  let cs := kids.map (fun k =>
    let n := s.tmNode k.1
    (⟨k.1, fld n.control 16 8, k.2.w, cond excess n.defE n.defC⟩ : Cand))
  match dwrr s.quantum (s.turn turnKey) cs with
  | none => none
  | some (c, ds) => (kids.find? (fun k => k.1 == c)).map (fun k =>
      { k.2 with
        defs := k.2.defs ++ ds.map (fun d => (d.1, excess, d.2))
        turns := k.2.turns ++ [(turnKey, c + 1)]
        charged := k.2.charged ++ [(c, !excess)] })

/-- The choice below a service node: committed children first (R135). -/
def State.svcPick (s : State) (n v : Nat) : Option Pick :=
  let kids := (s.busySubs.filter (fun u => s.subSvc u == v && (s.tmNode u).eligible)).filterMap
    (fun u => (s.subPick n u).map (fun p => (u, p)))
  let com := kids.filter (fun k => (s.tmNode k.1).committed)
  if com.isEmpty then s.pickAmong (svcKey v * 32 + 8) true kids else s.pickAmong (svcKey v * 32) false com

/-- A number put in its place in a rising list. -/
def insertNat (x : Nat) : List Nat → List Nat
  | [] => [x]
  | y :: r => if x ≤ y then x :: y :: r else y :: insertNat x r

/-- The services of a port node that could send, rising, with their choices. -/
def State.portKids (s : State) (n : Nat) : List (Nat × Pick) :=
  (((s.busySubs.map (fun u => s.subSvc u)).eraseDups.foldr insertNat []).filter
    (fun v => s.svcPort v == n && (s.tmNode (svcKey v)).eligible)).filterMap
      (fun v => (s.svcPick n v).map (fun p => (svcKey v, p)))

/-- What a port node does next. -/
inductive Choice where
  | nothing
  | send (p : Pick)
  | oversize (p : Pick) (cls : Nat)
  deriving DecidableEq, Repr

/-- The classes of a port node in order of service, committed then excess (R135). In each the services whose gate lets their head
frame start are those the round robin chooses among, and each deferral is counted; a frame its gate never lets through falls
(R155). -/
def State.portChoose (s : State) (n : Nat) (kids : List (Nat × Pick)) : List (Bool × Nat) → State × Choice
  | [] => (s, .nothing)
  | (excess, cls) :: rest =>
    let mine := kids.filter (fun k =>
      let v := s.tmNode k.1
      fld v.control 27 3 == cls && v.committed != excess)
    match mine.find? (fun k => s.gateSays n cls k.2.w == .oversize) with
    | some k => (s, .oversize k.2 cls)
    | none =>
      let late := mine.filter (fun k => s.gateSays n cls k.2.w == .deferred)
      let t := s.bumpN (R.TM_TG_DEFER_CNT n) late.length
      match s.pickAmong (portKey n * 32 + 8 * b2n excess + cls) excess
          (mine.filter (fun k => s.gateSays n cls k.2.w == .opened)) with
      | some p => (t, .send p)
      | none => t.portChoose n kids rest

/-- Rounds and classes in order. -/
def classOrder : List (Bool × Nat) :=
  [(false, 7), (false, 6), (false, 5), (false, 4), (false, 3), (false, 2), (false, 1), (false, 0),
   (true, 7), (true, 6), (true, 5), (true, 4), (true, 3), (true, 2), (true, 1), (true, 0)]

/-- A charge of `w` bytes to a node (R138, R139). -/
def TmNode.chargeBy (v : TmNode) (w : Nat) (committed : Bool) : TmNode :=
  { v with
    pLevel := if v.inForce.pir = 0 then v.pLevel else v.pLevel - 64 * w
    cLevel := if committed then v.cLevel - 64 * w else v.cLevel }

/-- Deficits, turns and charges of a choice take effect. -/
def State.charge_ (s : State) (n : Nat) (p : Pick) : State :=
  let s := s.each p.defs (fun s d =>
    let v := s.tmNode d.1
    s.setTmNode d.1 (if d.2.1 then { v with defE := d.2.2 } else { v with defC := d.2.2 }))
  let s := { s with tm := { s.tm with
    leafDef := p.leafDefs.foldl (fun m (d : Nat × Nat) => mapSet (fun _ => 0) m d.1 d.2) s.tm.leafDef
    turn := p.turns.foldl (fun m (d : Nat × Nat) => mapSet (fun _ => 0) m d.1 d.2) s.tm.turn } }
  let charged := p.charged ++ [(portKey n, (s.tmNode (portKey n)).committed)]
  s.each charged (fun s c => s.setTmNode c.1 ((s.tmNode c.1).chargeBy p.w c.2))

end Sys2Proof.Machine
end

