-- ==== Sys2Proof/Machine/Tm.lean ====
section
/-!
DEFINITION. Machine/Tm.lean: the traffic manager: admission, sending, refills, gate lists, its window and its commands
(chapter 6, Table 12-12).
-/
namespace Sys2Proof.Machine
open Sys2Proof

/-- Whether the traffic manager works: out of reset, FAB_CLK running. -/
def State.tmRuns (s : State) : Bool := !s.blockHeld 9 && bit s.clk.running 4

/-- The admission tests of Table 6-2 in their order; the reason of the first that fails. -/
def State.admitTest (s : State) (p : Pkt) : Option Nat :=
  let l := spGet p.sp SP.LEAF_QUEUE
  let cfg := s.leafCfg l
  let u := l / 4
  let v := s.subSvc u
  let n := s.svcPort v
  let d := s.leafDepth l + p.cells
  let c := spGet p.sp SP.COLOUR
  if !bit cfg 127 || s.leafStopped l then some 0
  else if !(s.nodeOn u && s.nodeOn (svcKey v) && s.nodeOn (portKey n)) then some 9
  else if !s.nodeUp n then some (if n < 8 then 7 else 8)
  else if n < 8 ∧ (s.maxFrame n : Int) < s.outLen n p then some 11
  else if c = 0 ∧ fld cfg 80 20 < d then some 1
  else if c = 1 ∧ fld cfg 60 20 < d then some 2
  else if 2 ≤ c ∧ fld cfg 40 20 < d then some 3
  else if s.rdf (R.TM_POOL_LIMIT (fld cfg 121 5)) 0 22 < s.poolUsed (fld cfg 121 5) + p.cells then some 4
  else none

/-- ECN set to 0b11 in a frame's key-layer header, the IPv4 checksum with it (R143). -/
def markEcn (sp : Signpost) (f : Bytes) : Bytes :=
  let off := spGet sp SP.L3_OFF
  match spGet sp SP.L3_TYPE with
  | 1 =>
    let f := patch f (off + 1) [byteAt f (off + 1) ||| 3]
    let f := patch f (off + 10) [0, 0]
    patch f (off + 10) (beBytes 2 (inetCsum (slice f off ((byteAt f off).toNat % 16 * 4))))
  | 2 => patch f (off + 1) [byteAt f (off + 1) ||| 0x30]
  | _ => f

/-- A packet that joins a deep enough queue is marked, if it is ECN-capable (R143). -/
def State.ecnMark (s : State) (l : Nat) (p : Pkt) : State × Pkt :=
  let cfg := s.leafCfg l
  let e := spGet p.sp SP.ECN
  if bit cfg 126 && decide (fld cfg 20 20 < s.leafDepth l + p.cells) && (e == 1 || e == 2) then
    ((s.bump R.TM_ECN_MARK_CNT).updLeafCnt l (fun c => { c with marked := c.marked + 1 }),
      { p with sp := spSet p.sp SP.ECN 3, bytes := markEcn p.sp p.bytes })
  else (s, p)

/-- The timestamp requests that wait to depart at a port node. -/
def State.tsWaiting (s : State) (n : Nat) : Nat :=
  ((s.tm.leafQ.filter (fun e => s.leafPort e.1 == n)).map
    (fun e => (e.2.filter (fun q => q.pkt.tsReq != 0)).length)).sum

/-- A timestamped frame that finds 256 requests waiting loses its timestamp (R310). -/
def State.tsRoom (s : State) (n : Nat) (p : Pkt) : State × Pkt :=
  if p.tsReq ≠ 0 ∧ (n < 8 ∨ s.mgmtNode = some n) ∧ 256 ≤ s.tsWaiting n then
    ((s.bump R.TIME_TS_LOST_CNT).raise 0x1A3 noFunc (min n 8) 0, { p with tsReq := 0 })
  else (s, p)

/-- A packet joins its leaf queue; one found uncorrectable as it is read for spill is dropped in its place (R395). -/
def State.enqueue (s : State) (l : Nat) (p : Pkt) : State :=
  let (s, p) := s.ecnMark l p
  let (s, p) := s.tsRoom (s.leafPort l) p
  let (s, p, bad) := if bit (s.rd R.PBUF_SPILL_POOLS) (fld (s.leafCfg l) 121 5) then s.spill p else (s, p, false)
  if bad then s.cellUncorr p else
  ((s.bump R.TM_ENQ_CNT).updLeafCnt l (fun c => { c with
    enqP := c.enqP + 1, enqB := c.enqB + BitVec.ofNat 64 (spGet p.sp SP.PKT_LEN) })).setLeafQ l
      (s.leafQ l ++ [⟨p, s.now⟩])

/-- A mirror copy that finds no room: reason 12, and it held no cell (R145, Table 6-2). -/
def State.mirrorDrop (s : State) (l : Nat) (p : Pkt) : State :=
  (((s.dropCount l p 12).bump (R.TM_DROP_CNT 12)).account p.ingress 1).account p.ingress 2

/-- One packet, or mirror copy, tested and admitted or dropped (R142, R145). -/
def State.admitPkt (s : State) (p : Pkt) (mirror : Bool) : State :=
  let l := spGet p.sp SP.LEAF_QUEUE
  let t := s.admitTest p
  if mirror then
    if t.isSome ∨ s.cellsFor false < p.cells then s.mirrorDrop l p else (s.takeCells p.cells).enqueue l p
  else match t with
    | none => s.enqueue l p
    | some r =>
      let s := if r = 4 then s.raise (0x380 + fld (s.leafCfg l) 121 5) noFunc l 4 else s
      s.dropQueued l p r

/-- A packet or mirror copy that has come to the traffic manager is dropped by the reset of block `b`; a copy holds no cell. -/
def State.tmHeldDrop (s : State) (b : Nat) (p : Pkt) (mirror : Bool) : State :=
  if mirror then ((s.bump (R.CLKRST_BLOCK_DROP_CNT b)).account p.ingress 1).account p.ingress 2 else s.heldDropLate b p

/-- TM_ADMIT: the oldest packet that has come to the traffic manager. -/
def execTmAdmit (s : State) : Res :=
  match s.tm.input with
  | [] => .next s
  | (p, mirror) :: rest =>
    let t := { s with tm := { s.tm with input := rest } }
    if s.blockHeld 9 then .next (t.tmHeldDrop 9 p mirror) else if !s.tmRuns then .next s else .next (t.admitPkt p mirror)

/-- The drains that a packet sent from leaf queue `l` is counted by. -/
def State.countDrains (s : State) (l : Nat) : State :=
  { s with tm := { s.tm with drains := s.tm.drains.map (fun d =>
      if (d.kind = 3 ∧ d.node = l / 4) ∨ (d.kind = 4 ∧ d.node = s.subSvc (l / 4)) then { d with sent := d.sent + 1 }
      else d) } }

/-- A packet leaves its port node (R138): to the line, the management port or the Ring Manager. -/
def State.leave (s : State) (n : Nat) (p : Pkt) (bad cut : Bool) : State :=
  let mgmt := s.mgmtNode == some n
  let out := decide (n < 8) || mgmt
  if bad && out then s.cellUncorr p else
  let (s, t, p) := if out then s.ptpOut (if n < 8 then some n else none) p else (s, s.now, p)
  match s.egressPoint p (if n < 8 then some (s.maxFrame n) else none) with
  | (s, none) => s
  | (s, some p) =>
    if n < 8 then s.sendLine n p t cut
    else if mgmt then s.sendMgmt p t
    else { s with rings := { s.rings with rxIn := s.rings.rxIn ++ [(n, p)] } }

/-- A choice is carried out: charges, counts, and the packet goes (R138). -/
def State.sendPick (s : State) (n : Nat) (c : Pick) (bad cut : Bool) : State :=
  match s.leafQ c.leaf with
  | [] => s
  | q :: _ =>
    let p := q.pkt
    let s := ((s.charge_ n c).popLeaf c.leaf).countDrains c.leaf
    let s := (s.bump R.TM_DEQ_CNT).updLeafCnt c.leaf (fun k => { k with
      deqP := k.deqP + 1, deqB := k.deqB + BitVec.ofNat 64 (spGet p.sp SP.PKT_LEN) })
    ((s.bump (R.TM_PORT_DEQ_PKT_CNT n)).bumpN (R.TM_PORT_DEQ_BYTE_CNT n) c.w).leave n p bad cut

/-- A head frame longer than its gate ever lets through is dropped (R155). -/
def State.dropOversize (s : State) (n : Nat) (c : Pick) (cls : Nat) : State :=
  match s.leafQ c.leaf with
  | [] => s
  | q :: _ =>
    let s := ((s.bump (R.TM_TG_OVERSIZE_CNT n)).raise (0x3A8 + n) noFunc c.leaf cls).dropQueued c.leaf q.pkt 6
    s.popLeaf c.leaf

/-- A port node sends one packet if it can, cut short where the link leaves UP under it (`cut`); oversized head frames fall on the
way. `fuel` counts the packets queued. -/
def State.portSend (s : State) (n : Nat) (bad cut : Bool) : Nat → State
  | 0 => s
  | fuel + 1 =>
    if !s.nodeUp n || !(s.tmNode (portKey n)).eligible then s else
    match s.portChoose n (s.portKids n) classOrder with
    | (s, .nothing) => s
    | (s, .send c) => s.sendPick n c bad cut
    | (s, .oversize c cls) => (s.dropOversize n c cls).portSend n bad cut fuel

/-- The packets in all leaf queues. -/
def State.queued (s : State) : Nat := (s.tm.leafQ.map (fun e => e.2.length)).sum

/-- TM_SEND. -/
def execTmSend (n : Fin 16) (bad : Bool) (s : State) : Res :=
  if !s.tmRuns then .next s
  else .next (s.portSend n.val bad false (s.queued + 1))

/-- A burst in 1/64 byte: units of 64 bytes, 0 acting as 1 (R139). -/
def burstOf (b : BitVec 16) : Int := (max 1 b.toNat * 4096 : Nat)

/-- One refill of a node, with what was written since the latest (R139, R140). -/
def TmNode.refill (v : TmNode) : TmNode :=
  let w := v.written
  let f := v.inForce
  let c := if w.cir = f.cir ∧ w.cbs = f.cbs then v.cLevel else min v.cLevel (burstOf w.cbs)
  let p := if w.pir = f.pir ∧ w.pbs = f.pbs then v.pLevel else min v.pLevel (burstOf w.pbs)
  { v with
    inForce := w
    cLevel := min (c + w.cir.toNat) (burstOf w.cbs), pLevel := min (p + w.pir.toNat) (burstOf w.pbs) }

/-- SHAPER_REFILL: every bucket; a node at its reset values has none that a refill changes. -/
def execShaperRefill (s : State) : Res :=
  if !s.tmRuns then .next s
  else .next (s.each (s.tm.node.map (fun e => e.1)) (fun s k => s.setTmNode k (s.tmNode k).refill))

/-- TIME_GATE_ENTRY: an entry boundary of port `p` (R152). -/
def execTimeGateEntry (p : Fin 8) (s : State) : Res :=
  if !s.tmRuns then .next s else .next (s.gateNow p.val)

/-- TIME_GATE_SWITCH: the pending list of port `p` begins at entry 0 (R155, R156). -/
def execTimeGateSwitch (p : Fin 8) (s : State) : Res :=
  if !s.tmRuns || (s.gate p.val).pending.isNone then .next s
  else
    let s := s.gateSwap p.val
    let g := { s.gate p.val with cfg := (s.rd (R.TM_TG_CFG p.val)).setWidth 32 }
    let first := match s.activeSegs p.val with
      | x :: _ => x.gates
      | [] => 0xFF
    .next (s.setGate p.val { g with gates := if bit g.cfg 31 then first else 0xFF })

/-- Bytes and count of each object kind (Table 6-4); none for a KIND that is not used. -/
def tmKind : Nat → Option (Nat × Nat)
  | 0 => some (16, 262144) | 1 => some (16, 262144) | 2 => some (64, 262144) | 3 => some (32, 65536)
  | 4 => some (32, 16384) | 5 => some (32, 16) | 6 => some (32, 1048576) | 7 => some (48, 1048576) | 8 => some (8, 16384)
  | _ => none

/-- The key of a node object. -/
def tmNodeKey (kind i : Nat) : Nat := if kind = 3 then i else if kind = 4 then svcKey i else portKey i

/-- A signed number in 32 bits. -/
def int32 (x : Int) : Nat := (BitVec.ofInt 32 x).toNat

/-- A node object (Table 6-7). -/
def TmNode.bytes (v : TmNode) : Bytes :=
  bvBytes v.control ++ leBytes 4 v.written.cir.toNat ++ leBytes 4 v.written.pir.toNat ++ bvBytes v.written.cbs ++
  bvBytes v.written.pbs ++ leBytes 4 (int32 v.cLevel) ++ leBytes 4 (int32 v.pLevel) ++ bvBytes v.weights ++ leBytes 4 0

/-- An object's bytes (Tables 6-5 to 6-9). HEAD_TIME of an empty queue the spec does not state: free value number `k`. -/
def State.tmObject (s : State) (kind i k : Nat) : Bytes := match kind with
  | 0 => bvBytes (s.leafCfg i)
  | 1 =>
    let q := s.leafQ i
    leBytes 4 (s.leafDepth i) ++ leBytes 4 q.length ++ leBytes 8 (match q with
      | x :: _ => x.time.toNat
      | [] => fld (Config.freeValue k) 0 64)
  | 2 =>
    let c := s.leafCnt i
    [c.enqP, c.enqB, c.deqP, c.deqB, c.dropP, c.dropB, c.marked, c.lastDrop].flatMap (fun x => bvBytes x)
  | 6 =>
    let t := s.toll i
    leBytes 4 (at' (b2n t.enable) 31 + at' (b2n t.aware) 30) ++ leBytes 4 t.cir.toNat ++ leBytes 4 t.pir.toNat ++
      leBytes 4 t.cbs.toNat ++ leBytes 4 t.pbs.toNat ++ leBytes 4 (t.tc / 64000) ++ leBytes 4 (t.tp / 64000) ++
      leBytes 4 t.last.toNat
  | 7 =>
    let t := s.toll i
    [t.greenP, t.greenB, t.yellowP, t.yellowB, t.redP, t.redB].flatMap (fun x => bvBytes x)
  | 8 => bvBytes (mapGet (fun _ => (0 : DWord)) s.tm.gcl i)
  | _ => (s.tmNode (tmNodeKey kind i)).bytes

/-- The control and weights bits a node of a kind holds; the others are reserved. -/
def controlMask : Nat → Word
  | 3 => 0xC0FF3FFF | 4 => 0xB8FF3FFF | _ => 0x80FF3FFF
def weightsMask : Nat → Word
  | 3 => 0xFFFFFFFF | 4 => 0 | _ => 0x3FF

/-- The reserved bits of an object as written, 0 where none is set (R20). -/
def tmReserved (kind : Nat) (b : Bytes) : Nat := match kind with
  | 0 => fld (bytesBv 128 b) 100 21
  | 3 | 4 | 5 =>
    ((bytesBv 32 (slice b 0 4)) &&& ~~~controlMask kind).toNat + leAt b 7 1 + leAt b 11 1 +
      ((bytesBv 32 (slice b 24 4)) &&& ~~~weightsMask kind).toNat + leAt b 28 4
  | 6 => leAt b 0 4 % 2 ^ 30 + leAt b 7 1 + leAt b 11 1 + leAt b 15 1 + leAt b 19 1
  | 8 => leAt b 0 4 / 2 ^ 30 + leAt b 5 3
  | _ => 0

/-- Whether a write of an object is refused: PARENT of a busy node, an active or pending gate list (R133, R156). -/
def State.tmRefused (s : State) (kind i : Nat) (b : Bytes) : Bool := match kind with
  | 3 | 4 => s.busyBelow kind i && leAt b 0 4 % 16384 != fld (s.tmNode (tmNodeKey kind i)).control 0 14
  | 8 =>
    let g := s.gate (i / 2048)
    g.pending.isSome || (decide (i / 1024 % 2 = 1) == g.bank)
  | _ => false

/-- A toll gate written between two meterings (R150). -/
def Toll.write (t : Toll) (b : Bytes) (now : DWord) : Toll :=
  let on := decide (2 ^ 31 ≤ leAt b 0 4)
  let cbs := BitVec.ofNat 24 (leAt b 12 4)
  let pbs := BitVec.ofNat 24 (leAt b 16 4)
  let t' := { t with
    enable := on, aware := decide (leAt b 0 4 / 2 ^ 30 % 2 = 1), cir := BitVec.ofNat 24 (leAt b 4 4)
    pir := BitVec.ofNat 24 (leAt b 8 4), cbs := cbs, pbs := pbs }
  if on && !t.enable then { t' with tc := cbs.toNat * 64000, tp := pbs.toNat * 64000, last := now }
  else { t' with tc := min t.tc (cbs.toNat * 64000), tp := min t.tp (pbs.toNat * 64000) }

/-- An object written: read-only fields and reserved bits ignore the write (R18, R158); rates wait for the next refill (R140);
a port node moved to a link that is down is flushed (R146). -/
def State.tmPut (s : State) (kind i : Nat) (b : Bytes) : State := match kind with
  | 0 => s.setLeafCfg i (setFld (bytesBv 128 b) 100 21 0)
  | 1 | 2 | 7 => s
  | 6 => s.setToll i ((s.toll i).write b s.now)
  | 8 => { s with tm := { s.tm with
      gcl := mapSet (fun _ => 0) s.tm.gcl i (BitVec.ofNat 64 (leAt b 0 8) &&& 0xFF3FFFFFFF) } }
  | _ =>
    let k := tmNodeKey kind i
    (s.setTmNode k { s.tmNode k with
      control := bytesBv 32 (slice b 0 4) &&& controlMask kind
      written := ⟨BitVec.ofNat 24 (leAt b 4 4), BitVec.ofNat 24 (leAt b 8 4), BitVec.ofNat 16 (leAt b 12 2),
        BitVec.ofNat 16 (leAt b 14 2)⟩
      weights := bytesBv 32 (slice b 24 4) &&& weightsMask kind }).flushFallen s

/-- The result of a window operation (Table 6-13). -/
def State.tmWindow (s : State) (refused : Bool) : State :=
  (s.wr R.TM_IND_STATUS (if refused then 0xC0000000 else 0x80000000)).if_ refused (fun s => s.bump R.TM_IND_REFUSED_CNT)

/-- TM_IND_READ: TM_IND_CTL written with OP 0b01 (R158). Data registers beyond the object keep their values. -/
def execTmIndRead (v : Word) (s : State) : Res :=
  if s.blockHeld 9 ∨ fld v 30 2 ≠ 1 then .next s else
  let s := s.wr R.TM_IND_CTL ((v &&& 0xFCFFFFFF).setWidth 64)
  match tmKind (fld v 26 4) with
  | none => .next (s.tmWindow true)
  | some (_, count) =>
    if count ≤ fld v 0 24 then .next (s.tmWindow true) else
    let b := s.tmObject (fld v 26 4) (fld v 0 24) s.free
    .next ((s.drew.each (List.range (b.length / 4)) (fun s k =>
      s.wr (R.TM_IND_DATA k) (BitVec.ofNat 64 (leAt b (4 * k) 4)))).tmWindow false)

/-- TM_IND_WRITE: TM_IND_CTL written with OP 0b10 (R133, R156). -/
def execTmIndWrite (v : Word) (s : State) : Res :=
  if s.blockHeld 9 ∨ fld v 30 2 ≠ 2 then .next s else
  let s := s.wr R.TM_IND_CTL ((v &&& 0xFCFFFFFF).setWidth 64)
  let kind := fld v 26 4
  let i := fld v 0 24
  match tmKind kind with
  | none => .next (s.tmWindow true)
  | some (size, count) =>
    let b := ((List.range 32).flatMap (fun k => leBytes 4 (s.rd (R.TM_IND_DATA k)).toNat)).take size
    if count ≤ i ∨ s.tmRefused kind i b then .next (s.tmWindow true)
    else .next ((s.tmPut kind i b).tmWindow false)

/-- Whether the object belongs to the allocation of function `f` (R158, Table 11-1). -/
def State.tmOwned (s : State) (f kind i : Nat) : Bool :=
  let a := (s.inst f).alloc
  let within := fun (base count x : Nat) => decide (base ≤ x) && decide (x < base + count)
  match kind with
  | 0 | 1 | 2 => within a.subBase a.subCount (i / 4)
  | 3 => within a.subBase a.subCount i
  | 4 => within a.serviceBase a.serviceCount i
  | 6 | 7 => within a.tollBase a.tollCount i
  | _ => false

/-- KIND, INDEX and COUNT of a command's block, where they name objects; the object size with them. -/
def OpenCmd.tmRange (c : OpenCmd) : Option (Nat × Nat × Nat × Nat) :=
  let a := c.args
  let kind := leAt a 0 1
  let i := leAt a 4 4
  let n := leAt a 8 4
  match tmKind kind with
  | none => none
  | some (size, count) => if leAt a 1 3 ≠ 0 ∨ n = 0 ∨ count < i + n then none else some (kind, i, n, size)

/-- Whether channel `ch` may read or write objects `i` to `i + n − 1` of a kind. -/
def State.tmMay (s : State) (ch kind i n : Nat) : Bool :=
  !isFuncCh ch || ch == s.manager || (s.tmOwned ch kind i && s.tmOwned ch kind (i + n - 1))

/-- Whether channel `ch` may name what an object as written names: a subscriber's PARENT is a service node (R265); port nodes are
shared. -/
def State.parentMay (s : State) (ch kind : Nat) (b : Bytes) : Bool :=
  kind != 3 || s.tmMay ch 4 (leAt b 0 4 % 16384) 1

/-- TM_READ (code 0x40). Objects are numbered, so ownership of the first and the last is ownership of all. -/
def execTmRead (ch : BitVec 13) (seq : BitVec 4) (s : State) : Res :=
  .next (s.gcs ch seq 0x40 (fun s c =>
    match c.tmRange with
    | none => (s, .badArg)
    | some (kind, i, n, size) =>
      if !s.tmMay ch.toNat kind i n then (s, .notOwned)
      else if outSpace ch.toNat c < n * size then (s, .done 0x3080 (n * size) [])
      else
        ({ s with free := s.free + n }, .out ((List.range n).flatMap (fun k => s.tmObject kind (i + k) (s.free + k))))))

/-- TM_WRITE (code 0x41): all of the objects, or none (R285). -/
def execTmWrite (ch : BitVec 13) (seq : BitVec 4) (s : State) : Res :=
  .next (s.gcs ch seq 0x41 (fun s c =>
    let a := c.args
    let long := match tmKind (leAt a 0 1) with
      | some (size, _) => c.tooLong (16 + size * leAt a 8 4)
      | none => false
    if long then (s, .no 0x1084) else
    match c.tmRange with
    | none => (s, .badArg)
    | some (kind, i, n, size) =>
      let objs := (List.range n).map (fun k => slice a (16 + size * k) size)
      if leAt a 12 4 ≠ 0 ∨ a.length < 16 + size * n ∨ objs.any (fun b => tmReserved kind b != 0) then (s, .badArg)
      else if !s.tmMay ch.toNat kind i n || objs.any (fun b => !s.parentMay ch.toNat kind b) then (s, .notOwned)
      else if (List.range n).any (fun k => s.tmRefused kind (i + k) (objs.getD k [])) then (s, .no 0x3082)
      else (s.each (List.range n) (fun s k => s.tmPut kind (i + k) (objs.getD k [])), .ok 0)))

/-- TM_DRAIN (code 0x42): answered once nothing is queued below the node. -/
def execTmDrain (ch : BitVec 13) (seq : BitVec 4) (s : State) : Res :=
  .next (s.gcs ch seq 0x42 (fun s c =>
    let kind := fld c.arg 24 4
    let i := fld c.arg 0 24
    if fld c.arg 28 20 ≠ 0 ∨ (kind ≠ 3 ∧ kind ≠ 4) ∨ cond (kind == 3) 65536 16384 ≤ i then (s, .badArg)
    else if !s.tmMay ch.toNat kind i 1 then (s, .notOwned)
    else if !s.busyBelow kind i then (s, .ok 0)
    else ({ s with tm := { s.tm with drains := s.tm.drains ++ [⟨kind, i, ch.toNat, seq.toNat, 0⟩] } }, .wait)))

/-- TM_DRAIN_DONE: the drain of a command has ended. -/
def execTmDrainDone (ch : BitVec 13) (seq : BitVec 4) (s : State) : Res :=
  match s.tm.drains.find? (fun d => d.ch == ch.toNat && d.seq == seq.toNat) with
  | none => .next s
  | some d =>
    if s.busyBelow d.kind d.node then .next s
    else .next ({ s with tm := { s.tm with
      drains := s.tm.drains.filter (fun x => !(x.ch == d.ch && x.seq == d.seq)) } }.finish (some (d.ch, d.seq)) 0 d.sent)

/-- TM_FLUSH (code 0x43). -/
def execTmFlush (ch : BitVec 13) (seq : BitVec 4) (s : State) : Res :=
  .next (s.gcs ch seq 0x43 (fun s c =>
    if 15 < c.imm then (s, .badArg)
    else
      let (s, k) := s.flushNode c.imm 10
      (s, .ok k)))

/-- TG_LOAD (code 0x44), version 2 only: entries into the inactive bank. -/
def execTgLoad (ch : BitVec 13) (seq : BitVec 4) (s : State) : Res :=
  .next (s.gcs ch seq 0x44 (fun s c =>
    let a := c.args
    let p := leAt a 0 1
    let first := leAt a 4 2
    let k := leAt a 6 2
    let objs := (List.range k).map (fun j => slice a (8 + 8 * j) 8)
    if 7 < p ∨ leAt a 1 3 ≠ 0 ∨ 1024 < first + k ∨ a.length < 8 + 8 * k ∨ objs.any (fun b => tmReserved 8 b != 0) then
      (s, .badArg)
    else if (s.gate p).pending.isSome then (s, .no 0x3082)
    else
      let base := p * 2048 + b2n (!(s.gate p).bank) * 1024 + first
      (s.each (List.range k) (fun s j => s.tmPut 8 (base + j) (objs.getD j [])), .ok 0)))

/-- TG_SWITCH (code 0x45). -/
def execTgSwitch (ch : BitVec 13) (seq : BitVec 4) (s : State) : Res :=
  .next (s.gcs ch seq 0x45 (fun s c =>
    let a := c.args
    let p := leAt a 0 1
    if 7 < p ∨ leAt a 1 7 ≠ 0 ∨ 2 ^ 30 ≤ leAt a 16 4 ∨ 2 ^ 11 ≤ leAt a 20 2 then (s, .badArg)
    else
      let s := ((s.wr (R.TM_TG_NEXT_BASE p) (BitVec.ofNat 64 (leAt a 8 8))).wr (R.TM_TG_NEXT_CYCLE p)
        (BitVec.ofNat 64 (leAt a 16 4))).wr (R.TM_TG_NEXT_LEN p) (BitVec.ofNat 64 (leAt a 20 2))
      let s := s.gateRequest p
      (s, .ok ((s.rd (R.TM_TG_SWITCH_TIME p)).toNat % 2 ^ 32))))

/-- POOL_SET (code 0x46). -/
def execPoolSet (ch : BitVec 13) (seq : BitVec 4) (s : State) : Res :=
  .next (s.gcs ch seq 0x46 (fun s c =>
    if fld c.arg 22 10 ≠ 0 ∨ fld c.arg 37 11 ≠ 0 then (s, .badArg)
    else (s.wr (R.TM_POOL_LIMIT (fld c.arg 32 5)) (BitVec.ofNat 64 (fld c.arg 0 22)), .ok 0)))

end Sys2Proof.Machine
end

