-- ==== Sys2Proof/Machine/FnReset.lean ====
section
/-!
DEFINITION. Machine/FnReset.lean: what an instance holds and how it stops, and the end of a function's work at an FLR, a port
reset, an instance reset and a removal (R239, R251, R259 to R264, R307, R353, R372, R486).
-/
namespace Sys2Proof.Machine
open Sys2Proof

/-- The rings of function `f`. -/
def State.ringsOf (s : State) (f : Nat) : List Nat :=
  (s.rings.ring.filter (fun e => e.2.func == f && e.2.st != .absent)).map (fun e => e.1)

/-- OUTSTANDING of FNM_INST_STATE: operations fetched and not yet completed, of rings and NVMe queues. -/
def State.outstandingOf (s : State) (f : Nat) : Nat :=
  ((s.rings.ring.filter (fun e => e.2.func == f && e.2.st != .absent)).map (fun e => e.2.outstanding)).sum +
    (s.sce.cmds.filter (fun c => c.func == f)).length

/-- Whether a completion of function `f` waits for room in its queue (R261 step 6). -/
def State.backlogged (s : State) (f : Nat) : Bool :=
  s.rings.ring.any (fun e => e.2.func == f && !e.2.backlog.isEmpty) ||
    s.sce.cq.any (fun e => e.1 / 2048 == f && !e.2.waiting.isEmpty)

/-- The leaf queues of function `f` that hold anything but their reset state. -/
def State.leavesOf (s : State) (f : Nat) : List Nat :=
  let a := (s.inst f).alloc
  ((s.tm.leafCfg.map (fun e => e.1) ++ s.tm.leafQ.map (fun e => e.1) ++ s.tm.leafCnt.map (fun e => e.1)).eraseDups).filter
    (fun l => decide (a.subBase ≤ l / 4) && decide (l / 4 < a.subBase + a.subCount))

/-- The instance has left ACTIVE: its rings are HELD (Table 13-4). -/
def State.holdRings (s : State) (f : Nat) : State :=
  s.each (s.ringsOf f) (fun s r => s.updRing r (fun k => if k.st = .active then { k with st := .held } else k))

/-- The leaf queues of `f` stop admitting and are flushed with reason 10; the ENABLE of each as it stood is kept (R261 step
3). -/
def State.stopLeaves (s : State) (f : Nat) : State :=
  let on := (s.leavesOf f).filter (fun l => bit (s.leafCfg l) 127)
  let s := s.updInst f (fun i => { i with savedEnable := on })
  let s := s.each (s.leavesOf f) (fun s l => s.flushLeaf l 10)
  s.each on (fun s l => s.setLeafCfg l (setBit (s.leafCfg l) 127 false))

/-- The leaf queues of `f` take back their ENABLE (R262). -/
def State.resumeLeaves (s : State) (f : Nat) : State :=
  let on := (s.inst f).savedEnable
  (s.each on (fun s l => s.setLeafCfg l (setBit (s.leafCfg l) 127 true))).updInst f (fun i => { i with savedEnable := [] })

/-- Marked rings of `f` that may be read now are read, and backlogs and kept completion entries drain into the room there is
(R238, R262, R481). -/
def State.wakeRings (s : State) (f : Nat) : State :=
  s.each (s.ringsOf f) (fun s r =>
    let k := s.ring r
    let s := if k.marked && ((k.st == .active && (decide (2 ≤ ctxType k.ctx) || (s.inst f).st == .active)) ||
        (k.st == .held && decide (2 ≤ ctxType k.ctx))) && k.idx == .none then
        (s.setRing r { k with marked := false }).askIndex r
      else s
    s.drainBacklog r) |>.nvDrainAll f

/-- The instance is ACTIVE: its rings fetch again, and its controller's enable that waited takes effect (Tables 11-3, 13-4,
15-3). -/
def State.instActive (s : State) (f : Nat) : State :=
  let s := s.updInst f (fun i => { i with st := .active })
  let s := s.each (s.ringsOf f) (fun s r => s.updRing r (fun k => if k.st = .held then { k with st := .active } else k))
  (s.wakeRings f).ctrlWake f

/-- A VF is gone: its instance is DETACHED (Table 11-3). A quiesce or reset that its command waits for cannot end: FN_BAD_STATE
answers it (DESIGN CHOICE). -/
def State.detach (s : State) (f : Nat) : State :=
  let i := s.inst f
  if i.st = .absent ∨ i.st = .removing ∨ i.st = .detached then s else
  let s := ((s.setInst f { i with st := .detached, resetting := false, waiter := none }).holdRings f).finish i.waiter 0x3073 0
  s.raise 0x044 f ((s.fnPf f).getD 0) 0

/-- A VF is present again: its DETACHED instance is CREATED. -/
def State.attach (s : State) (f : Nat) : State :=
  s.updInst f (fun i => if i.st = .detached then { i with st := .created } else i)

/-- VF Enable and NumVFs of PF `p` take new values: VFs that go or come detach and attach their instances (R260). -/
def State.setVfs (s : State) (p : Nat) (en : Bool) (num : Nat) : State :=
  let before := s
  let s := s.updFn p (fun h => { h with vfEnable := en, numVfs := num })
  s.each (s.vfsOf p) (fun s f =>
    if before.exists_ f && !s.exists_ f then s.detach f
    else if !before.exists_ f && s.exists_ f then s.attach f
    else s)

/-- Packets that waited for a buffer of ring `r` are dropped, for it takes none any more (R312). -/
def State.rxDropWaiting (s : State) (r : Nat) : State :=
  let mine := s.rings.rxWait.filter (fun e => e.2.1 == r)
  ({ s with rings := { s.rings with rxWait := s.rings.rxWait.filter (fun e => e.2.1 != r) } }).each mine
    (fun s e => s.rxNoBuf e.1 r e.2.2)

/-- Ring `r` returns to ABSENT without completions; a RING_DESTROY that waited for it has ended (R307, Table 13-4). -/
def State.ringReset (s : State) (r : Nat) : State :=
  let k := s.ring r
  (((s.rxDropWaiting r).clearDeliver r).ringGone r).finish k.waiter 0 0

/-- Ring `r` freezes: its work is abandoned, its context and indices stay (R251 step 3, R307). -/
def State.ringFreeze (s : State) (r : Nat) : State :=
  (s.rxDropWaiting r).updRing r (fun k => { k with
    st := .frozen, idx := .none, ops := [], buffers := [], lent := [], abortTags := [], backlog := [], through := 0
    unnotified := 0, marked := false, hinted := false, sentHint := none, unsent := [], reserved := 0 })

/-- The work of a queue pair is abandoned without completions: INIT, RTR and RTS become ERROR, its trackers are freed and its
cached context is dropped without write-back (Table 14-2, R353); or the queue pair is gone. -/
def State.qpAbandon (s : State) (i : Nat) (gone : Bool) : State :=
  let q := s.qp i
  let s := s.fetchFailed i
  let s := (s.freeTrackers i).setQpcCache (s.rte.cached.filter (· ≠ i))
  let st := if q.st = .init ∨ q.st = .rtr ∨ q.st = .rts then .error else q.st
  s.setQp i (if gone then { Qp.absent with gen := q.gen }
    else { q with st := st, timerOn := false, ops := [], msgs := [], rxMsg := none, unacked := 0, rnrPsn := none, sacked := [] })

/-- The ESP and TLS associations at the indices of `f` are deleted as SA_DELETE deletes (R380, R486). -/
def State.saAbandon (s : State) (f : Nat) : State :=
  let mine := s.ciph.sa.filter (fun e => e.2.valid && e.2.proto != 0 && s.saOwner e.1 == some f)
  s.each mine (fun s e =>
    let s := s.setSa e.1 { e.2 with control := setBit e.2.control 31 false }
    { s with ciph := { s.ciph with deleting := s.ciph.deleting ++ [⟨e.1, none⟩] } })

/-- The trace sinks whose ring belongs to `f` are disabled; records of an open page are lost (R486). -/
def State.sinksOff (s : State) (f : Nat) : State :=
  s.each ((List.range 8).filter (fun k => bit (s.sinkCfg k) 31 && !bit (s.sinkCfg k) 30 &&
    (s.ring (s.sinkRing k)).st != .absent && (s.ring (s.sinkRing k)).func == f))
    (fun s k => (s.closePage k).wrf (R.SND_SINK_CFG k) 31 1 0)

/-- The Kite line of a function returns to its reset state: the commands taken from it complete, and their responses are
discarded (R239 steps 2 and 4, R251 step 4); a block still to be read is not read any more. -/
def State.chanReset (s : State) (ch : Nat) (st : Status) : State :=
  let s := s.setOpened ch ((s.opened ch).map (fun c => { c with discard := true }))
  let s := (s.setRspQ ch []).setPage ch (Kite.resetOf ch)
  let s := { s with kite := { s.kite with lost := mapDel s.kite.lost ch } }
  s.each (s.opened ch) (fun s c => s.blockDone ch c.seq (some st) [])

/-- The peer windows of PF `p` decode no more (R244). -/
def State.windowsOff (s : State) (p : Nat) : State :=
  s.each (List.range 8) (fun s w =>
    (s.wrf (R.HIU_PEER_WIN_SHADOW p w) 63 1 0).wrf (R.HIU_PEER_WIN_ACTIVE p w) 63 1 0)

/-- The reads of function `f` that wait for a tag are never sent. -/
def State.dropWaiting (s : State) (f : Nat) : State :=
  { s with hiu := { s.hiu with waitRead := s.hiu.waitRead.filter (fun r => r.func != f) } }

/-- The interrupts of `f` return to their reset state: held messages are discarded, the MSI-X table and the pending bits are
cleared, INTx is deasserted (R239 step 4). -/
def State.irqReset (s : State) (f : Nat) : State :=
  ((s.discardHeld f).updIntx f (fun h => { h with intxAsserted := false, intxCount := 0 })).updFn f (fun h => { h with
    msixTable := [], msixPend := [], msiPend := 0, dbHeld := 0 })

/-- The work of function `f` is abandoned without completions (R239 step 2, R307, R353, R372), and what R239 step 4 and R486
name is reset; `freeze` for a lost link, which keeps the rings' contexts. A quiesce under way counts what is abandoned
(R263). -/
def State.fnAbandon (s : State) (f : Nat) (st : Status) (freeze : Bool) : State :=
  let n := s.outstandingOf f
  let s := s.updInst f (fun i => if i.st = .quiescing then { i with aborted := i.aborted + n } else i)
  let s := (s.dropWaiting f).chanReset f st
  let s := s.sinksOff f
  let s := s.each (s.ringsOf f) (fun s r => if freeze then s.ringFreeze r else s.ringReset r)
  let s := s.each (s.qpsOf f) (fun s i => s.qpAbandon i false)
  let s := ((s.ctrlReset f).saAbandon f).irqReset f
  let s := s.if_ (decide (f < 8)) (fun s => s.windowsOff f)
  { s with obs := { s.obs with cwSelect := mapDel s.obs.cwSelect f, rwCursor := mapDel s.obs.rwCursor f } }

/-- Configuration space of a function after its reset: its reset values, sticky AER bits kept (R239 step 4). -/
def HFn.cleared (h : HFn) : HFn :=
  { HFn.reset with aerUncorr := h.aerUncorr, aerCorr := h.aerCorr, aerHeader := h.aerHeader
                   flr := h.flr, portReset := h.portReset, flrAt := h.flrAt }

/-- Configuration space of `f`, its DOE mailbox with it, returns to its reset values; VF Enable of a PF clears too. -/
def State.cfgReset (s : State) (f : Nat) : State :=
  let s := s.if_ (decide (f < 8) && (s.fn f).vfEnable) (fun s => s.setVfs f false 0)
  { s with hiu := { s.hiu with doe := mapDel s.hiu.doe f } }.updFn f HFn.cleared

/-- The outstanding tags of `f` are held out of use from `t` (R239 step 3); the reads they served are over. -/
def State.quarantine (s : State) (f : Nat) (t : DWord) : State :=
  let u := t + BitVec.ofNat 64 (s.quarNs f)
  { s with hiu := { s.hiu with tags := s.hiu.tags.map (fun x =>
    if x.req.func = f ∧ x.quarUntil = none then { x with quarUntil := some u, req := { x.req with owner := .gone } } else x) } }

/-- The functions that a reset of `f` resets: itself, and a PF's VFs (R240). -/
def State.resetGroup (s : State) (f : Nat) : List Nat := if f < 8 then s.vfsOf f ++ [f] else [f]

end Sys2Proof.Machine
end

