-- ==== Sys2Proof/Machine/ReadDone.lean ====
section
/-!
DEFINITION. Machine/ReadDone.lean: how host reads end: completions, timeouts, failures, and tags held out of use (R230 to
R233, R237, R239).
-/
namespace Sys2Proof.Machine
open Sys2Proof

/-- The work of a failed host read learns its status (R230); no data of it is used. -/
def State.ownerFailed (s : State) (o : DmaOwner) (st : Status) : State := match o with
  | .indexRead r =>
    let k := s.ring r
    if k.idx = .sent ∨ k.idx = .sentMore then s.indexFailed r else s
  | .descriptor r no => s.updRing r (fun k => k.updOp no (fun o => { o with
      verdict := some (o.verdict.getD st), reading := false, data := [] }))
  | .block ch seq => s.blockDone ch seq (some st) []
  | .context i => if i ∈ s.rte.fetching then (s.fetchFailed i).beginFetches else s
  | .gone => s

/-- A read that has more to ask for sends its next request, or stops here where its function may send none now (R237 step 2). -/
def State.goOn (s : State) (q : HRead) : State := match s.hostStop q.func with
  | some st => s.ownerFailed q.owner st
  | none => s.sendRead q

/-- The data of one completed request reaches its work; a read that has more to ask for goes on, or stops where its function
may send no request now (R237 step 2). An index read brings the consumer's or producer's index from its place in the index
block (Table 13-5). -/
def State.ownerData (s : State) (q : HRead) (data : Bytes) : State := match q.owner with
  | .indexRead r =>
    let k := s.ring r
    if k.idx = .sent ∨ k.idx = .sentMore then s.indexArrived r (leAt data (if ctxType k.ctx < 2 then 0 else 8) 2) else s
  | .descriptor r no =>
    let s := s.updRing r (fun k => k.updOp no (fun o => { o with data := o.data ++ data, reading := decide (0 < q.left) }))
    if q.left = 0 ∨ ((s.ring r).op no).isNone then s else s.goOn q
  | .block ch seq =>
    let s := s.blockMore ch seq q.left data
    if q.left = 0 then s else s.goOn q
  | .context _ => if q.left = 0 then s else s.goOn q
  | .gone => s

/-- A PME_Turn_Off is acknowledged once no read of the link is outstanding; the link then leaves DL_Up (R483). True where it
is due. -/
def State.turnOffDue (s : State) (k : Nat) : Bool :=
  decide (k ∈ s.hiu.turnOff) && !s.hiu.tags.any (fun t => t.link == k && t.quarUntil.isNone)

/-- An unexpected completion (R233): counted, logged as an Advisory Non-Fatal Error (AER correctable status bit 13, PRESUMED
from the PCIe Base Specification) with its header, which the command does not give, and reported. -/
def State.lateCpl (s : State) (k f tag : Nat) : State :=
  let header := s.fresh.setWidth 128
  (((s.drew.bump (R.HIU_LATE_CPL_CNT k)).updFn f (fun h => { h with
    aerCorr := setBit h.aerCorr 13 true, aerHeader := header })).raise 0x011 f tag k)

/-- Whether completions for a function are discarded: Bus Master Enable 0 or a reset (R237 step 4, R239 step 3). -/
def State.cplDiscard (s : State) (f : Nat) : Option Status :=
  if (s.fn f).flr then some 0x2062 else if !(s.fn f).bme then some 0x2060 else none

/-- The completion of the outstanding request `t`: counted, its tag back in use, its data or its failure to its work. -/
def State.cplTaken (s : State) (t : HTag) (cpl : CplStatus) (data : Bytes) : State :=
  let f := t.req.func
  match s.cplDiscard f with
  | some st => ((s.bump (R.HIU_BM_DISCARD_CNT t.link)).dropTag t.link t.tag).ownerFailed t.req.owner st
  | none =>
    let s := (s.cplCount f t.req.pasid (t.req.addr - BitVec.ofNat 64 t.bytes) cpl t.bytes).dropTag t.link t.tag
    if cpl = .ok then s.ownerData t.req (padTo t.bytes data) else s.ownerFailed t.req.owner (cplFail cpl)

/-- The outstanding request of link `k` under a tag. -/
def State.outTag (s : State) (k tag : Nat) : Option HTag :=
  s.hiu.tags.find? (fun t => t.link == k && t.tag == tag && t.quarUntil.isNone)

end Sys2Proof.Machine
end

