-- ==== Sys2Proof/Machine/HostLink.lean ====
section
/-!
DEFINITION. Machine/HostLink.lean: host links going down and up, function-level reset, Bus Master Enable and power states, and
the completions that feed them (R220 to R252, R408, R481 to R488).
-/
namespace Sys2Proof.Machine
open Sys2Proof

/-- Whether the straps give the device link `k` (Table 10-1). -/
def State.linkThere (s : State) (k : Nat) : Bool := k % 2 == 0 || bit s.hiu.hostSplit (k / 2)

/-- The lanes of link `k`. -/
def State.lanes (s : State) (k : Nat) : Nat := if bit s.hiu.hostSplit (k / 2) then 8 else 16

/-- The highest rate link `k` trains to (Table 10-11). -/
def State.maxSpeed (s : State) (k : Nat) : Nat :=
  let v := s.rdf (R.HIU_LINK_CFG k) 24 3
  if v = 0 ∨ v = 7 then 6 else v

/-- The IDE keys of link `k` are zeroised and the SPDM sessions over its DOE mailboxes end (Table 22-5). -/
def State.linkKeys (s : State) (k : Nat) : State :=
  { s with
    hiu := { s.hiu with
      ide := mapKeep (fun i => i / 4 != k) s.hiu.ide, ideKey := mapKeep (fun i => i / 64 != k) s.hiu.ideKey
      ideGo := mapKeep (fun i => i / 64 != k) s.hiu.ideGo }
    boot := { s.boot with spdm := s.boot.spdm.filter (fun x => x.link != some k) } }

/-- Every outstanding request of link `k` fails with HOST_LINK_DOWN, its tag free at once (R251 step 1). -/
def State.failTags (s : State) (k : Nat) : State :=
  let out := s.hiu.tags.filter (fun t => t.link == k && t.quarUntil.isNone)
  let s := { s with hiu := { s.hiu with tags := s.hiu.tags.filter (fun t => !(t.link == k && t.quarUntil.isNone)) } }
  s.each out (fun s t => s.ownerFailed t.req.owner 0x4065)

/-- Every function of link `k` enters port reset (R250, R251 steps 3 and 4). -/
def State.portReset (s : State) (k : Nat) : State :=
  let fs := s.fnsOf k
  let s := s.each fs (fun s f => s.updFn f (fun h => { h with flr := true, portReset := true, flrAt := s.now }))
  s.each fs (fun s f => s.fnAbandon f 0x4065 true)

/-- Link `k` leaves DL_Up for `st` (R251). The HIU holds no TLP of its own between commands, so none is discarded. -/
def State.linkDown (s : State) (k : Nat) (st : HLinkSt) : State :=
  let before := s
  let l := s.link k
  let s := s.setLink k { HLink.reset with st := st, perst := l.perst, tagBits := l.tagBits }
  let s := { s with hiu := { s.hiu with turnOff := s.hiu.turnOff.filter (· ≠ k) } }
  let s := ((s.failTags k).flushFallen before).portReset k
  let s := (s.linkKeys k).wrf (R.HIU_LINK_CFG k) 0 1 0
  ((s.bump (R.HIU_LINK_DOWN_CNT k)).wr (R.HIU_LAST_DOWN_TIME k) s.now).raise (0x004 + k) noFunc st.code.toNat 0

/-- HOST_LINK_DOWN: the link leaves DL_Up, by surprise removal or loss of its partner (R251). -/
def execHostLinkDown (k : Fin 4) (s : State) : Res :=
  .next (if (s.link k.val).dlUp then s.linkDown k.val .detect else s)

/-- The nibble of PF `p` in a PF map: present, link. -/
def mapPresent (m : Nat) (p : Nat) : Bool := (m >>> (4 * p + 3)) % 2 == 1
def mapLink (m : Nat) (p : Nat) : Nat := (m >>> (4 * p + 1)) % 4

/-- Whether a PF map presents PF `p`: a link carries four PFs, the four lowest that the map names for it (R223, R254; DEDUCED: the
spec does not say which stay out). -/
def mapTakes (m : Nat) (p : Nat) : Bool :=
  mapPresent m p && decide (((List.range p).filter (fun q => mapPresent m q && mapLink m q == mapLink m p)).length < 4)

/-- A change of HIU_PF_MAP takes effect for link `k` as its port reset ends: its PFs leave and join; a PF that another link in
DL_Up still presents, or is still to take up, waits for that link's own port reset (Table 10-14). -/
def State.latchMap (s : State) (k : Nat) : State :=
  let new := (s.rd R.HIU_PF_MAP).toNat
  let go := fun (m : Word) (p : Nat) =>
    let old := m.toNat
    let held := fun (x : Nat) => mapPresent x p && mapLink x p != k && (s.link (mapLink x p)).dlUp
    if !(mapPresent old p && mapLink old p == k) && !(mapTakes new p && mapLink new p == k) then m
    else if held old then m
    else setFld m (4 * p) 4 (if held new || !mapTakes new p then 0 else new >>> (4 * p) % 16)
  { s with hiu := { s.hiu with pfMap := (List.range 8).foldl go s.hiu.pfMap } }

/-- A function's port reset ends: it is in its reset state, its frozen rings are released (R252). -/
def State.fnRelease (s : State) (f : Nat) : State :=
  let s := s.each (s.ringsOf f) (fun s r => if (s.ring r).st = .frozen then s.ringReset r else s)
  ((s.irqReset f).cfgReset f).updFn f (fun h => { h with flr := false, portReset := false })

/-- HOST_LINK_UP: link `k` has trained and reached DL_Up (R221, R252). -/
def execHostLinkUp (k : Fin 4) (speed : BitVec 3) (width : BitVec 5) (flit : Bool) (tagBits : Nat) (s : State) : Res :=
  let n := k.val
  let l := s.link n
  if !s.linkThere n || l.dlUp || l.perst || l.st == .reset || !bit s.clk.hostRef (n / 2) || speed.toNat == 0 ||
      decide (s.maxSpeed n < speed.toNat) || !(width.toNat ∈ [1, 2, 4, 8, 16] : Bool) || decide (s.lanes n < width.toNat) ||
      (speed.toNat == 6 && !flit) then .next s
  else
    let old := s.fnsOf n
    let s := s.latchMap n
    let s := s.setLink n ⟨.l0, speed, width, width, flit, true, 0, false, min tagBits 14, 0⟩
    let s := s.each (old ++ (s.fnsOf n).filter (fun f => !(f ∈ old))) (fun s f => s.fnRelease f)
    let s := s.raise (0x000 + n) noFunc width.toNat speed.toNat
    .next (if speed.toNat < s.maxSpeed n ∨ width.toNat < s.lanes n then s.raise (0x008 + n) noFunc width.toNat speed.toNat
      else s)

/-- PERST_RELEASE: the link enters Detect (R250). -/
def execPerstRelease (k : Fin 4) (s : State) : Res :=
  let l := s.link k.val
  if !s.linkThere k.val || (!l.perst && l.st != .reset) then .next s
  else
    let out := l.st == .reset && !s.inReset && !s.blockHeld 1
    .next (s.setLink k.val { l with perst := false, st := if out then .detect else l.st })

/-- HOST_REF_LOST: both links of host port `n` leave DL_Up (R408). -/
def execHostRefLost (n : Fin 2) (s : State) : Res :=
  if !bit s.clk.hostRef n.val then .next s else
  let s := { s with clk := { s.clk with hostRef := setBit s.clk.hostRef n.val false } }.raise (0x783 + n.val) noFunc 0 0
  .next (s.each [2 * n.val, 2 * n.val + 1] (fun s k => if (s.link k).dlUp then s.linkDown k .detect else s))

/-- HOST_REF_RETURN: the reference of host port `n` is back; its links may train again. -/
def execHostRefReturn (n : Fin 2) (s : State) : Res :=
  .next { s with clk := { s.clk with hostRef := setBit s.clk.hostRef n.val true } }

/-- Whether configuration requests to `f` are answered now (R225, R241). -/
def State.cfgAnswers (s : State) (f : Nat) : Bool :=
  s.exists_ f && (s.link (s.fnLink f)).dlUp && bit (s.rd (R.HIU_LINK_CFG (s.fnLink f))) 0 && !(s.fn f).flr

/-- CFG_READY_SET: the firmware sets CFG_READY (R225), or Trailhead that of link 0 for a push (R450). -/
def execCfgReadySet (k : Fin 4) (s : State) : Res :=
  let push := k.val == 0 && (s.kite.fw == .recovery || (s.kite.fw == .booting && s.boot.pushFrom == some 2))
  if !(s.link k.val).dlUp || (s.kite.fw != .running && !push) then .next s else .next (s.wrf (R.HIU_LINK_CFG k.val) 0 1 1)

/-- The reads of `f` that wait for a tag stop at this boundary and fail (R237 step 2). -/
def State.stopReads (s : State) (f : Nat) (st : Status) : State :=
  let mine := s.hiu.waitRead.filter (fun r => r.func == f)
  (s.dropWaiting f).each mine (fun s r => s.ownerFailed r.owner st)

/-- Bus Master Enable of `f` clears (R237). -/
def State.bmeClear (s : State) (f : Nat) : State :=
  if !(s.fn f).bme then s else
  let s := (s.updFn f (fun h => { h with bme := false })).stopReads f 0x2060
  let mine := (s.ringsOf f).filter (fun r => (s.ring r).st == .active || (s.ring r).st == .held)
  (s.each mine (fun s r => s.updRing r (fun k => { k with st := .bmLost }))).raise 0x012 f mine.length 0

/-- Bus Master Enable of `f` is set: held messages whose vectors are unmasked are sent (R238); a ring made while it was 0 and
marked since is read. -/
def State.bmeSet (s : State) (f : Nat) : State :=
  if (s.fn f).bme then s else ((s.updFn f (fun h => { h with bme := true })).releaseAll f).wakeRings f

/-- BME_CLEAR: a host clears Bus Master Enable in the Command register. -/
def execBmeClear (f : Fin 4104) (s : State) : Res := .next (if s.cfgAnswers f.val then s.bmeClear f.val else s)

/-- BME_SET. -/
def execBmeSet (f : Fin 4104) (s : State) : Res := .next (if s.cfgAnswers f.val then s.bmeSet f.val else s)

/-- An FLR of `f` begins (R239 steps 1, 2 and 4, R240, R244). -/
def State.flrStart (s : State) (f : Nat) : State :=
  let fs := s.resetGroup f
  let s := s.each fs (fun s g => if (s.fn g).flr then s else
    s.updFn g (fun h => { h with flr := true, flrAt := s.now }))
  s.each fs (fun s g => s.fnAbandon g 0x2062 false)

/-- FLR_INITIATE. -/
def execFlrInitiate (f : Fin 4104) (s : State) : Res := .next (if s.cfgAnswers f.val then s.flrStart f.val else s)

/-- The DMA of every function that an FLR of `f` resets falls silent: tags still outstanding are held from t0 + 50 µs, and
configuration space is reset (R239 steps 3 and 4). -/
def State.flrSilent (s : State) (f : Nat) : State :=
  let fs := (s.resetGroup f).filter (fun g => (s.fn g).flr && !(s.fn g).portReset)
  let s := s.each fs (fun s g => s.quarantine g ((s.fn g).flrAt + 50000))
  s.each fs (fun s g => s.cfgReset g)

/-- FLR_QUIET_POINT. -/
def execFlrQuietPoint (f : Fin 4104) (s : State) : Res :=
  .next (if (s.fn f.val).flr && !(s.fn f.val).portReset then s.flrSilent f.val else s)

/-- FLR_DONE (R239 step 5). CODE gives the ms taken; which way a part of a ms rounds is left open. -/
def execFlrDone (f : Fin 4104) (s : State) : Res :=
  let h := s.fn f.val
  if !h.flr || h.portReset then .next s else
  let fs := (s.resetGroup f.val).filter (fun g => (s.fn g).flr && !(s.fn g).portReset)
  let s := s.flrSilent f.val
  let s := s.each fs (fun s g => s.updFn g (fun h => { h with flr := false }))
  let ns := (s.now - h.flrAt).toNat
  let ms := ns / 1000000 + (if ns % 1000000 = 0 then 0 else fld s.fresh 0 1)
  .next (s.drew.raise 0x013 f.val 0 (satTo 65535 ms))

/-- `f` enters D3hot: it sends no request; its rings and interrupts wait (R481). -/
def State.d3Enter (s : State) (f : Nat) : State :=
  if (s.fn f).dstate = 3 then s else (s.updFn f (fun h => { h with dstate := 3 })).stopReads f 0x2060

/-- `f` returns to D0 with its state: held messages and marked rings go on. -/
def State.d0Return (s : State) (f : Nat) : State :=
  if (s.fn f).dstate = 0 then s else ((s.updFn f (fun h => { h with dstate := 0 })).releaseAll f).wakeRings f

/-- D3HOT_ENTRY. -/
def execD3hotEntry (f : Fin 4104) (s : State) : Res := .next (if s.cfgAnswers f.val then s.d3Enter f.val else s)

/-- D0_RETURN. -/
def execD0Return (f : Fin 4104) (s : State) : Res := .next (if s.cfgAnswers f.val then s.d0Return f.val else s)

/-- A PME_Turn_Off whose reads have settled is acknowledged, and the link leaves DL_Up (R483). -/
def State.turnOffDone (s : State) (k : Nat) : State :=
  if s.turnOffDue k then (s.emit (.pmeToAck k)).linkDown k .detect else s

/-- PME_TURN_OFF (R483). -/
def execPmeTurnOff (k : Fin 4) (s : State) : Res :=
  let n := k.val
  if !(s.link n).dlUp then .next s else
  let s := { s with hiu := { s.hiu with turnOff := s.hiu.turnOff.filter (· ≠ n) ++ [n] } }
  .next ((s.each (s.fnsOf n) (fun s f => s.stopReads f 0x2060)).turnOffDone n)

/-- COMPLETION_RECEIVE: a completion for function `f` on link `k` (R230, R233, R237, R239). -/
def execCompletionReceive (k : Fin 4) (f : Fin 4104) (tag : Fin 16384) (cpl : CplStatus) (data : Bytes) (s : State) : Res :=
  if !(s.link k.val).dlUp then .next s else
  .next (s.tlp k.val (fun s => match s.outTag k.val tag.val with
    | some t =>
      if t.req.func = f.val then (s.cplTaken t cpl data).turnOffDone k.val
      else s.lateCpl k.val f.val tag.val
    | none => s.lateCpl k.val f.val tag.val))

/-- COMPLETION_TIMEOUT: the request fails whole; its tag is held out of use (R232). -/
def execCompletionTimeout (k : Fin 4) (tag : Fin 16384) (s : State) : Res :=
  match s.outTag k.val tag.val with
  | none => .next s
  | some t =>
    let f := t.req.func
    let u := s.now + BitVec.ofNat 64 (s.quarNs f)
    let hold := fun (x : HTag) =>
      cond (x.link == k.val && x.tag == tag.val) { x with quarUntil := some u, req := { x.req with owner := DmaOwner.gone } } x
    let s := { s with hiu := { s.hiu with tags := s.hiu.tags.map hold } }
    .next (((s.timedOut k.val f tag.val).ownerFailed t.req.owner 0x4060).turnOffDone k.val)

/-- TAG_RELEASE: the hold of a tag ends (R232). -/
def execTagRelease (k : Fin 4) (tag : Fin 16384) (s : State) : Res :=
  if s.hiu.tags.any (fun t => t.link == k.val && t.tag == tag.val && t.quarUntil.isSome) then .next (s.dropTag k.val tag.val)
  else .next s

/-- INDEX_READ_COMPLETE: the index read of a ring returns `idx`, or fails (R299, R304). -/
def execIndexReadComplete (ring : BitVec 20) (cpl : CplStatus) (idx : BitVec 16) (s : State) : Res :=
  match s.tagOf (.indexRead ring.toNat) with
  | none => .next s
  | some t =>
    let i := leBytes 2 idx.toNat
    let block := if ctxType (s.ring ring.toNat).ctx < 2 then i else List.replicate 8 0 ++ i
    .next (s.tlp t.link (fun s => ((s.cplTaken t cpl block).ctxPump).turnOffDone t.link))

/-- ATS_INVALIDATE: cached translations of `count` pages of a function are dropped, and the Invalidate Completion follows
(R245). -/
def execAtsInvalidate (k : Fin 4) (f : Fin 4104) (pasid : Option (BitVec 20)) (page : BitVec 52) (count : Nat)
    (itag : BitVec 5) (s : State) : Res :=
  if !(s.link k.val).dlUp || s.fnLink f.val != k.val then .next s else
  let hit := fun (e : AtcEntry) => e.func == f.val && e.pasid == pasid &&
    decide (page.toNat ≤ e.page.toNat) && decide (e.page.toNat < page.toNat + count)
  let s := { s with hiu := { s.hiu with atc := s.hiu.atc.filter (fun e => !hit e) } }
  .next ((s.bump (R.HIU_ATC_INVAL_CNT k.val)).emit (.invalidated f.val itag.toNat))

/-- Stream `i` of link `k` becomes Insecure, its keys gone, and its outstanding requests fail with HOST_IDE (R247). Which
requests of the link belong to the stream the spec leaves to the PCIe Base Specification: a free value tells. -/
def State.ideFail (s : State) (k stream : Nat) : State :=
  let i := k * 4 + stream
  let s := { s with hiu := { s.hiu with
    ide := mapSet (fun _ => 0) s.hiu.ide i 2, ideKey := mapKeep (fun x => x / 16 != i) s.hiu.ideKey
    ideGo := mapKeep (fun x => x / 16 != i) s.hiu.ideGo } }
  let pick := s.fresh
  let out := s.hiu.tags.filter (fun t => t.link == k && t.quarUntil.isNone && bit pick (t.tag % 512))
  let s := s.drew.each out (fun s t => (s.dropTag t.link t.tag).ownerFailed t.req.owner 0x4064)
  (s.bump (R.HIU_IDE_FAIL_CNT k)).raise 0x015 noFunc i 0x4064

/-- IDE_FAULT: a secure stream fails an integrity check (R247). -/
def execIdeFault (k : Fin 4) (stream : Fin 4) (s : State) : Res :=
  .next (if mapGet (fun _ => 0) s.hiu.ide (k.val * 4 + stream.val) ≠ 1 then s else s.ideFail k.val stream.val)

/-- What follows a read of function `f` that one command made and ended: the stream that failed under it is Insecure, the link
that went down under it is down. -/
def State.readAfter (s : State) (f : Nat) (e : ReadEnd) : State := match e with
  | .ide i => s.ideFail (s.fnLink f) i.val
  | .linkDown => if (s.link (s.fnLink f)).dlUp then s.linkDown (s.fnLink f) .detect else s
  | _ => s

/-- L0P_REQUEST: a change of width, which the link takes at 64.0 GT/s in flit mode, down to x2, from its partner, or of its own
(`own`) while L0P_INIT is 1 (R249). -/
def execL0pRequest (k : Fin 4) (width : BitVec 5) (s : State) (own : Bool := false) : Res :=
  let l := s.link k.val
  if own && !bit (s.rd (R.HIU_LINK_CFG k.val)) 31 || !(l.st == .l0 || l.st == .l0p) || l.speed != 6 || !l.flit || !(width.toNat ∈ [2, 4, 8, 16] : Bool) ||
      decide (l.full.toNat < width.toNat) then .next s
  else .next (s.setLink k.val { l with width := width, st := if width = l.full then .l0 else .l0p })

/-- ASPM allows L1, or its substate `sub`, on link `k`: every PF of the link has it enabled in Link Control bit 1, the substates in
L1 PM Substates Control 1 bits 3 and 2 (PRESUMED from the PCIe Base Specification). -/
def State.aspmOn (s : State) (k : Nat) (sub : Nat) : Bool :=
  ((List.range 8).filter (fun p => s.pfPresent p && s.pfLink p == k)).all (fun p =>
    let kept := fun (r : CfgReg) => mapGet (fun _ => (0 : Word)) (s.fn p).cfgRw (cfgKey r)
    bit (kept .linkControl) 1 && (sub == 0 || bit (kept .l1ssControl) (4 - sub)))

/-- ASPM_L1_ENTRY: the device requests L1 after 10 µs with no TLP, when ASPM allows it, and the link enters it, or its substate
L1.1 or L1.2 (R249, R484). -/
def execAspmL1Entry (k : Fin 4) (s : State) (sub : Fin 3 := 0) : Res :=
  let l := s.link k.val
  if (l.st = .l0 ∨ l.st = .l0p) ∧ s.aspmOn k.val sub.val then
    .next ((s.emit (.l1Request k.val)).setLink k.val { l with st := .l1, l1sub := BitVec.ofNat 2 sub.val })
  else .next s

/-- ASPM_L1_EXIT (R484). -/
def execAspmL1Exit (k : Fin 4) (s : State) : Res :=
  let l := s.link k.val
  if l.st = .l1 then .next (s.setLink k.val { l with st := if l.width = l.full then .l0 else .l0p, l1sub := 0 }) else .next s

/-- LINK_CFG (code 0x62): HIU_LINK_CFG of a link, whose CFG_READY stays the firmware's. -/
def execLinkCfg (ch : BitVec 13) (seq : BitVec 4) (s : State) : Res :=
  .next (s.gcs ch seq 0x62 (fun s c =>
    let k := fld c.arg 32 2
    if fld c.arg 34 14 ≠ 0 ∨ c.arg &&& 0x78FFFFFF ≠ 0 ∨ !s.linkThere k then (s, .badArg) else
    let v := (s.rd (R.HIU_LINK_CFG k)).toNat % 2 + fld c.arg 0 32
    (s.wr (R.HIU_LINK_CFG k) (BitVec.ofNat 64 v), .ok 0)))

end Sys2Proof.Machine
end

