-- ==== Sys2Proof/Machine/EngCore.lean ====
section
/-!
DEFINITION. Machine/EngCore.lean: what the Path Engine instructions and the Junction share: registers and memory of an engine,
channels, the orphan queue, held packets, faults, and the issue of one instruction (R176 to R195, R200 to R204, R219).
-/
namespace Sys2Proof.Machine
open Sys2Proof

/-- ENG_STATUS.ROLE: 128 engines of a new part in service, 8 spare, until self-test writes another. -/
def State.role (s : State) (e : Nat) : BitVec 2 := mapGet (fun e => if e < 128 then 0 else 1) s.eng.role e

/-- The engine's ENG_RUN bit (R198). -/
def State.engRun (s : State) (e : Nat) : Bool := bit (s.rd (R.JCT_ENG_RUN (e / 32))) (e % 32)

/-- Whether an engine has cycles: in service, out of reset, ENG_CLK running. -/
def State.engClocked (s : State) (e : Nat) : Bool := s.role e == 0 && !s.blockHeld 10 && bit s.clk.running 1

/-- Whether an engine issues at all: it has cycles and its ENG_RUN bit is set. -/
def State.engLive (s : State) (e : Nat) : Bool := s.engClocked e && s.engRun e

def State.updThr (s : State) (e t : Nat) (g : Thread → Thread) : State := s.setThr e t (g (s.thr e t))

/-- Shared register `k` of an engine, as every thread but a late writer reads it. -/
def State.sreg (s : State) (e k : Nat) : DWord := mapGet (fun _ => 0) s.eng.sreg (e * 32 + k)

def State.setSreg (s : State) (e k : Nat) (v : DWord) : State :=
  { s with eng := { s.eng with sreg := mapSet (fun _ => 0) s.eng.sreg (e * 32 + k) v } }

/-- The shared-register writes of an engine still to become visible. -/
def State.late (s : State) (e : Nat) : List LateWrite := mapGet (fun _ => ([] : List LateWrite)) s.eng.late e

def State.setLate (s : State) (e : Nat) (l : List LateWrite) : State :=
  { s with eng := { s.eng with late := mapSet (fun _ => []) s.eng.late e l } }

def LateWrite.isOf (x : LateWrite) (t k : Nat) : Bool := x.thr == t && x.reg == k

/-- A register as an instruction of thread `t` names it: 0 to 31 private, 32 to 63 shared (R201). A thread that still has a
write of its own to a shared register pending reads what it wrote (R202; its wait for the result is timing, log entry 90). -/
def State.reg (s : State) (e t r : Nat) : DWord :=
  if r < 32 then mapGet (fun _ => 0) s.eng.preg ((e * 8 + t) * 32 + r)
  else match ((s.late e).filter (fun x => x.isOf t (r - 32))).getLast? with
    | some x => x.value
    | none => s.sreg e (r - 32)

/-- A register written in the issue cycle itself: a shared register is visible to every thread from the next cycle on, and stands
against a late write of the thread's own and one that would become visible with it. -/
def State.setReg (s : State) (e t r : Nat) (v : DWord) : State :=
  if r < 32 then { s with eng := { s.eng with preg := mapSet (fun _ => 0) s.eng.preg ((e * 8 + t) * 32 + r) v } }
  else (s.setLate e ((s.late e).filter (fun x => x.reg != r - 32 || (x.thr != t && decide (1 < x.left))))).setSreg e (r - 32) v

/-- A register written with `n` result cycles (R202): until they have passed, the engine's other threads read the old value of
a shared one. -/
def State.setRegIn (s : State) (e t r n : Nat) (v : DWord) : State :=
  if r < 32 ∨ n ≤ 1 then s.setReg e t r v
  else s.setLate e ((s.late e).filter (fun x => !x.isOf t (r - 32) || decide (x.left < n)) ++ [⟨t, r - 32, n, v⟩])

/-- A cycle passes over the late writes of an engine: those whose result cycles have passed become visible. -/
def State.ageLate (s : State) (e : Nat) : State :=
  let l := s.late e
  if l.isEmpty then s else
  (s.each (l.filter (fun x => decide (x.left ≤ 1))) (fun s x => s.setSreg e x.reg x.value)).setLate e
    ((l.filter (fun x => decide (1 < x.left))).map (fun x => { x with left := x.left - 1 }))

/-- Local data memory of an engine. -/
def State.dmem (s : State) (e a n : Nat) : Bytes := mapGetList (fun _ => 0) s.eng.dmem (e * 262144 + a) n

/-- Bytes written to local data memory; an 8-byte word written whole has good ECC again. -/
def State.setDmem (s : State) (e a : Nat) (b : Bytes) : State :=
  { s with eng := { s.eng with
      dmem := mapSetList (fun _ => 0) s.eng.dmem (e * 262144 + a) b
      badDmem := s.eng.badDmem.filter (fun k => decide (8 * k < e * 262144 + a ∨ e * 262144 + a + b.length < 8 * k + 8)) } }

/-- Whether an access to local data memory meets an uncorrectable word. -/
def State.dmemBad (s : State) (e a n : Nat) : Bool :=
  s.eng.badDmem.any (fun k => decide (e * 32768 + a / 8 ≤ k) && decide (k ≤ e * 32768 + (a + n - 1) / 8))

def State.imem (s : State) (e pc : Nat) : Word := mapGet (fun _ => 0) s.eng.imem (e * 16384 + pc)

def Thread.slot (t : Thread) (k : Nat) : Option Pkt := mapGet (fun _ => none) t.slots k

def Thread.setSlot (t : Thread) (k : Nat) (p : Option Pkt) : Thread :=
  { t with slots := mapSet (fun _ => none) t.slots k p }

/-- The packets a thread holds. -/
def Thread.held (t : Thread) : List Pkt := t.slots.filterMap (fun e => e.2)

/-- The slots that hold no packet. -/
def Thread.freeSlots (t : Thread) : List Nat := (List.range 16).filter (fun k => (t.slot k).isNone)

def Thread.tag (t : Thread) (k : Nat) : EngTag := mapGet (fun _ => EngTag.idle) t.tags k

def Thread.setTag (t : Thread) (k : Nat) (v : EngTag) : Thread :=
  { t with tags := mapSet (fun _ => EngTag.idle) t.tags k v }

/-- Tags with a request outstanding. -/
def Thread.outstanding (t : Thread) : List Nat := (List.range 8).filter (fun k => (t.tag k).req.isSome)

/-- A packet enters a free slot of a thread; which one the spec leaves open: a free value picks it (R208). -/
def State.intoSlot (s : State) (e t : Nat) (p : Pkt) : State × Nat :=
  let k := pickOf (s.thr e t).freeSlots s.fresh.toNat
  (s.drew.updThr e t (fun x => x.setSlot k (some p)), k)

/-- The cycles of ENG_CLK, 2.4 a nanosecond, since a thread blocked. -/
def State.blockedCycles (s : State) (e t : Nat) : Nat := (s.now.toNat - (s.thr e t).blockedSince.toNat) * 12 / 5

/-- A blocked thread is READY again: it retries its instruction, its blocked cycles are counted, and the engine's stall
detector is armed (R181, R194). -/
def State.wake (s : State) (e t : Nat) : State :=
  if !(s.thr e t).st.blocked then s else
  let s := s.bumpN (R.ENG_THR_BLOCK_CNT e t) (s.blockedCycles e t)
  { s with eng := { s.eng with armed := mapSet (fun _ => true) s.eng.armed e true } }.updThr e t
    (fun x => { x with st := .ready, awaits := .nothing })

/-- Threads of an engine that wait for a word of channel `c` wake. -/
def State.wakeReaders (s : State) (e c : Nat) : State :=
  s.each (List.range 8) (fun s t =>
    if (s.thr e t).st = .blockedRead ∧ (s.thr e t).blockedCh = c then s.wake e t else s)

/-- Committed words of a channel (R183). -/
def Chan.level (c : Chan) : Nat := (c.msgs.map (fun m => m.words.length)).sum

/-- The words of channel `c` of engine `e` that are taken: committed ones, and those of messages the Junction has accepted for
it (R183, R192). -/
def State.chanLoad (s : State) (e c : Nat) : Nat :=
  (s.chan e c).level + ((s.eng.jct.filter (fun j => j.toEng == e && j.toCh == c)).map (fun j => j.msg.words.length)).sum

/-- The fields of ENG_CH_BIND (Table 8-14). -/
def State.bind (s : State) (e c : Nat) : DWord := s.rd (R.ENG_CH_BIND e c)
def State.bindValid (s : State) (e c : Nat) : Bool := bit (s.bind e c) 31
def State.bindScope (s : State) (e c : Nat) : Nat := fld (s.bind e c) 29 2
def State.bindReader (s : State) (e c : Nat) : Nat := fld (s.bind e c) 26 3

/-- Whether channel `c` of engine `e` takes a message of `n` words now: it has room, or it is not bound and the Junction will
discard the message (R183, R186). -/
def State.chanTakes (s : State) (e c n : Nat) : Bool := decide (s.chanLoad e c + n ≤ 16) || !s.bindValid e c

/-- The writers, of whichever engine, that wait for room in channel `c` of engine `e` and now find it wake (R181, R182). -/
def State.wakeWriters (s : State) (e c : Nat) : State :=
  s.each (s.eng.thread.map (fun x => x.1)) (fun s k =>
    match (s.thr (k / 8) (k % 8)).st, (s.thr (k / 8) (k % 8)).awaits with
    | .blockedWrite, .room d b n => if d = e ∧ b = c ∧ s.chanTakes e c n = true then s.wake (k / 8) (k % 8) else s
    | _, _ => s)

/-- The Junction has taken a thread's message: the thread goes on where it waited for that. -/
def State.wakeSender (s : State) (e t : Nat) : State :=
  if (s.thr e t).st = .blockedWrite ∧ (s.thr e t).awaits = .junction then s.wake e t else s

/-- A message enters a channel whole; a reader that waits for it wakes (R183). -/
def State.intoChan (s : State) (e c : Nat) (m : Msg) : State :=
  let ch := s.chan e c
  (s.setChan e c { ch with msgs := ch.msgs ++ [m] }).wakeReaders e c

def State.orphans (s : State) (e : Nat) : List OrphMsg := mapGet (fun _ => ([] : List OrphMsg)) s.eng.orphan e

def State.setOrphans (s : State) (e : Nat) (l : List OrphMsg) : State :=
  { s with eng := { s.eng with orphan := mapSet (fun _ => []) s.eng.orphan e l } }

/-- Words of an orphan queue entry, its unread tag word included. -/
def OrphMsg.size (o : OrphMsg) : Nat := b2n o.tag.isSome + o.msg.words.length

/-- ENG_ORPHAN_LEVEL. -/
def State.orphanLevel (s : State) (e : Nat) : Nat := ((s.orphans e).map (fun o => o.size)).sum

/-- A packet message in the orphan queue is a redelivery: SOURCE 7 in its class word, where that is unread (Table 8-5). -/
def Msg.asOrphan (m : Msg) : Msg :=
  match m.words with
  | w :: rest => if m.pkt.isSome && m.words.length == m.total then { m with words := setFld w 23 3 7 :: rest } else m
  | [] => m

/-- One message moves to the orphan queue behind its tag word, or finds too little room (R192, R193); true where lost. -/
def State.toOrphan (s : State) (e c reader : Nat) (m : Msg) : State × Bool :=
  let tag := BitVec.ofNat 64 (at' (b2n (m.words.length != m.total)) 63 + at' c 58 + at' reader 55 + at' m.words.length 50 +
    s.now.toNat % 2 ^ 48)
  let o : OrphMsg := ⟨some tag, m.asOrphan⟩
  if 1024 < s.orphanLevel e + o.size then
    let s := s.bump (R.ENG_ORPHAN_LOST_CNT e)
    (match m.pkt with
     | some p => s.dropEarly p (R.ENG_PKT_DROP_CNT e 9) 10 9
     | none => s, true)
  else ((s.setOrphans e (s.orphans e ++ [o])).bump (R.ENG_ORPHAN_CNT e), false)

/-- A change of binding takes effect (R192): the messages of the channel, and those the Junction has accepted for it, move to
the orphan queue, and a reader that lost the channel is released. -/
def State.rebind (s : State) (e c : Nat) (v : Word) : State :=
  let reader := s.bindReader e c
  let mine := fun (j : JMsg) => j.toEng == e && j.toCh == c
  let moved := s.eng.jct.filter mine
  let all := (s.chan e c).msgs ++ moved.map (fun j => j.msg)
  let s := (s.wr (R.ENG_CH_BIND e c) (v.setWidth 64)).setChan e c .empty
  let s := { s with eng := { s.eng with jct := s.eng.jct.filter (fun j => !mine j) } }
  let (s, lost) := all.foldl (fun (a : State × Nat) m =>
    let (s, l) := a.1.toOrphan e c reader m
    (s, a.2 + b2n l)) (s, 0)
  let s := s.if_ (decide (lost < all.length)) (fun s => s.raise 0x510 noFunc (e * 32 + c) (all.length - lost))
  let s := s.if_ (decide (0 < lost)) (fun s => s.raise 0x511 noFunc e lost)
  let s := s.each moved (fun s j => s.wakeSender j.fromEng j.fromThr)
  (s.wakeWriters e c).if_ (!bit v 31 || fld v 26 3 != reader) (fun s => s.wakeReaders e c)

/-- ENG_CH_BIND written (R192): a change of READER or SCOPE, whatever VALID was, or a cleared VALID, waits for the old reader's
message boundary. -/
def State.writeBind (s : State) (e c : Nat) (v : Word) : State :=
  let v := v &&& 0xFC000000
  let old := s.bind e c
  let changes := (bit old 31 && !bit v 31) || fld v 26 5 != fld old 26 5
  if !changes then (s.wr (R.ENG_CH_BIND e c) (v.setWidth 64)).setChan e c { s.chan e c with rebind := none }
  else
    let partial_ := match (s.chan e c).msgs with
      | m :: _ => m.words.length != m.total
      | [] => false
    if partial_ then s.setChan e c { s.chan e c with rebind := some v } else s.rebind e c v

/-- Packets a thread gives up are dropped with reason 8 (R195). -/
def State.dropHeld (s : State) (e t : Nat) : State × Nat :=
  let ps := (s.thr e t).held
  ((s.updThr e t (fun x => { x with slots := [] })).each ps (fun s p => s.dropEarly p (R.ENG_PKT_DROP_CNT e 8) 10 8), ps.length)

/-- What retirement does to a thread (R184, R195): its open message is discarded, its packets are dropped and its replies will
be discarded; with the packets dropped. -/
def State.retire (s : State) (e t : Nat) : State × Nat :=
  let open_ := (s.thr e t).target.isSome
  let s := s.if_ open_ (fun s => s.bump (R.ENG_PARTIAL_DISCARD_CNT e))
  let (s, n) := s.dropHeld e t
  (s.updThr e t (fun x => { x with st := .retired, staged := [], target := none, tags := [] }), n)

/-- The memory that a fault of code 6 or 7 has found bad stays so until it is written again. -/
def State.markBad (s : State) (e code detail : Nat) : State :=
  let add := fun (k : Nat) (l : List Nat) => if k ∈ l then l else l ++ [k]
  if code = 6 then { s with eng := { s.eng with badImem := add (e * 16384 + detail) s.eng.badImem } }
  else if code = 7 then { s with eng := { s.eng with badDmem := add (e * 32768 + detail / 8) s.eng.badDmem } }
  else s

/-- A thread fault (R195, R219). -/
def State.threadFault (s : State) (e t code : Nat) (detail : Nat) : State :=
  let pc := (s.thr e t).pc.toNat
  let (s, _) := (s.markBad e code detail).retire e t
  ((((s.wr (R.ENG_FAULT_INFO e) (BitVec.ofNat 64 (at' t 61 + at' code 48 + at' pc 34 + detail % 2 ^ 34))).wr
    (R.ENG_FAULT_TIME e) s.now).bump (R.ENG_FAULT_CNT e))).raise (0x488 + e) noFunc t code

/-- The slot table in effect, and the issue pointer (R179, R180). -/
def State.slotTable (s : State) (e : Nat) : DWord := mapGet (fun _ => 0x7654321076543210) s.eng.slots e
def State.issuePtr (s : State) (e : Nat) : Nat := mapGet (fun _ => 0) s.eng.ptr e

/-- The thread that has this cycle: that of the first slot, from the pointer on in slot order with wrap, that is not empty and
whose thread is READY (R179). -/
def State.turnThread (s : State) (e : Nat) : Option Nat :=
  if !s.engLive e then none else
  ((List.range 16).map (fun k => fld (s.slotTable e) (4 * ((s.issuePtr e + k) % 16)) 4)).find?
    (fun t => decide (t < 8) && (s.thr e t).st == .ready)

/-- A cycle of an engine ends: the pointer moves on, a slot table written takes effect at its wrap (R180), and result cycles
pass (R202). -/
def State.endCycle (s : State) (e : Nat) : State :=
  let p := (s.issuePtr e + 1) % 16
  let s := { s with eng := { s.eng with
    ptr := mapSet (fun _ => 0) s.eng.ptr e p
    slots := if p = 0 then mapSet (fun _ => 0x7654321076543210) s.eng.slots e (s.rd (R.ENG_SLOT_TABLE e)) else s.eng.slots } }
  s.ageLate e

/-- A cycle in which no thread issues; it is counted where none is READY (R179). -/
def State.idleCycle (s : State) (e : Nat) : State :=
  let ready := (List.range 8).any (fun t => s.engLive e && (s.thr e t).st == .ready)
  (s.if_ (!ready) (fun s => s.bump (R.ENG_IDLE_CNT e))).endCycle e

/-- Fields of an instruction word (Table 9-1). -/
def iMajor (w : Word) : Nat := fld w 26 6
def iDst (w : Word) : Nat := fld w 20 6
def iA (w : Word) : Nat := fld w 14 6
def iB (w : Word) : Nat := fld w 8 6
def iFn (w : Word) : Nat := fld w 0 8
def iImm14 (w : Word) : DWord := (BitVec.ofNat 14 (fld w 0 14)).signExtend 64
def iImm20 (w : Word) : Nat := fld w 0 20

/-- Whether a major opcode and function or op are listed (R203, Tables 9-2 to 9-12). -/
def listed (w : Word) : Bool :=
  let m := iMajor w
  let f := iFn w
  (m == 0x00 && decide (f ≤ 0x18)) || (decide (0x01 ≤ m) && decide (m ≤ 0x07)) || (m == 0x08 && fld w 0 2 != 3) ||
  (m == 0x09 && decide (f ≤ 9)) || (m == 0x0A && decide (f ≤ 7)) || (decide (0x10 ≤ m) && decide (m ≤ 0x1F)) ||
  (m == 0x20 && (decide (f ≤ 0x40) || (decide (0x60 ≤ f) && decide (f ≤ 0x8F)) || (decide (0xA0 ≤ f) && decide (f ≤ 0xAF)) ||
    f == 0xC0)) ||
  (m == 0x21 && (decide (f ≤ 7) || (decide (0x80 ≤ f) && decide (f ≤ 0x87)))) || (m == 0x22 && decide (f ≤ 3)) ||
  (m == 0x23 && decide (f ≤ 4)) || m == 0x24 || (m == 0x25 && decide (f ≤ 5))

/-- How an instruction ends: the next one follows, a taken branch or jump, a block on a channel until what it awaits comes, a
fault with its detail, or the thread's end. -/
inductive IEnd where
  | next
  | jump (pc : Nat)
  | block (st : ThrSt) (ch : Nat) (why : Await)
  | fault (code detail : Nat)
  | done
  deriving DecidableEq, Repr

/-- What the work of an instruction at `pc` leaves, begun in `c` (R204, R219): `r` is its state and how it ends. -/
def State.ends (c : State) (e t pc : Nat) (r : State × IEnd) : State :=
  match r with
  | (_, .fault code detail) => c.threadFault e t code detail
  | (s, .jump goal) => s.updThr e t (fun x => { x with pc := BitVec.ofNat 14 goal })
  | (s, n) =>
    if pc = 16383 then c.threadFault e t 2 16384
    else match n with
      | .block st ch why => s.updThr e t (fun x => { x with st := st, blockedCh := ch, blockedSince := c.now, awaits := why })
      | .done => s
      | _ => s.updThr e t (fun x => { x with pc := BitVec.ofNat 14 (pc + 1) })

/-- One issue of thread `t` of engine `e` (R179, R203, R204), which takes a cycle of the engine. A row acts only on the thread
that has the cycle and only where the instruction is its own; where no thread has the cycle, it passes with none (DESIGN
CHOICE, log entry 99: cycles pass as rows are commanded). A word that no row lists, or whose parity fails, faults. -/
def State.issue (s : State) (e t : Nat) (m : EngMem) (is : Word → Bool) (body : State → Word → State × IEnd) : State :=
  let pc := (s.thr e t).pc.toNat
  let w := s.imem e pc
  if !s.engClocked e then s
  else if s.turnThread e = none then s.idleCycle e
  else if s.turnThread e ≠ some t then s else
  let c := (s.bump (R.ENG_ISSUE_CNT e)).bump (R.ENG_THR_INSTR_CNT e t)
  if m = .parity ∨ (e * 16384 + pc) ∈ s.eng.badImem then (c.threadFault e t 6 pc).endCycle e
  else if !listed w then (c.threadFault e t 1 w.toNat).endCycle e
  else if !is w then s
  else (c.ends e t pc (body c w)).endCycle e

end Sys2Proof.Machine
end

