-- ==== Sys2Proof/Machine/Thr.lean ====
section
/-!
DEFINITION. Machine/Thr.lean: the Path Engine instructions that stay within the engine: arithmetic, bit fields, hash, atomics,
local data memory, branches and jumps (R200 to R207). Fields an instruction's row leaves unused without saying that they must
be 0 are ignored.
-/
namespace Sys2Proof.Machine
open Sys2Proof

/-- Whether an instruction word is function `fn` of major opcode `major`. -/
def isFn (major fn : Nat) (w : Word) : Bool := iMajor w == major && iFn w == fn

/-- dst ← f a b after `n` result cycles, with the b field itself as the last argument; where the row says so, a b field other
than 0 is reserved. -/
def State.alu (s : State) (e t : Nat) (m : EngMem) (major fn n : Nat) (bZero : Bool) (f : DWord → DWord → Nat → DWord) : State :=
  s.issue e t m (isFn major fn) (fun s w =>
    if bZero && iB w != 0 then (s, .fault 1 w.toNat)
    else (s.setRegIn e t (iDst w) n (f (s.reg e t (iA w)) (s.reg e t (iB w)) (iB w)), .next))

/-- dst ← f a imm14. -/
def State.aluImm (s : State) (e t : Nat) (m : EngMem) (major : Nat) (f : DWord → DWord → DWord) : State :=
  s.issue e t m (fun w => iMajor w == major) (fun s w =>
    (s.setReg e t (iDst w) (f (s.reg e t (iA w)) (iImm14 w)), .next))

/-- An atomic on a shared register: f of its old value, b and the old dst goes back to it, the old value to dst (R207). -/
def State.atomic (s : State) (e t : Nat) (m : EngMem) (fn : Nat) (f : DWord → DWord → DWord → DWord) : State :=
  s.issue e t m (isFn 0x0A fn) (fun s w =>
    if iA w < 32 ∨ iDst w = iA w then (s, .fault 1 w.toNat)
    else
      let o := s.reg e t (iA w)
      let v := f o (s.reg e t (iB w)) (s.reg e t (iDst w))
      ((s.setReg e t (iA w) v).setReg e t (iDst w) o, .next))

/-- Whether a read of `n` bytes at `a` of local data memory fails: its ECC is bad, or the access itself meets an uncorrectable
error (R195). -/
def State.dmemFails (s : State) (e a n : Nat) (m : EngMem) : Bool := m == .uncorrectable || s.dmemBad e a n

/-- A corrected error of a read is counted, and no more (R195). -/
def State.eccSeen (s : State) (e : Nat) (m : EngMem) : State := s.if_ (m == .corrected) (fun s => s.bump (R.ENG_ECC_CORR_CNT e))

/-- The fault of an access of `n` bytes at `a` of local data memory, if it has one (R205); `reads`: it reads a word there. -/
def State.dmemFault (s : State) (e a n : Nat) (reads : Bool) (m : EngMem) : Option IEnd :=
  if 262144 < a + n then some (.fault 3 a)
  else if a % n ≠ 0 then some (.fault 4 a)
  else if reads && s.dmemFails e a n m then some (.fault 7 a)
  else none

/-- A load of `n` bytes at a + imm14. -/
def State.load (s : State) (e t : Nat) (m : EngMem) (major n : Nat) : State :=
  s.issue e t m (fun w => iMajor w == major) (fun s w =>
    let a := (s.reg e t (iA w) + iImm14 w).toNat
    match s.dmemFault e a n true m with
    | some x => (s, x)
    | none => ((s.eccSeen e m).setRegIn e t (iDst w) 2 (BitVec.ofNat 64 (leNat (s.dmem e a n))), .next))

/-- A store of `n` bytes at a + imm14; one of less than an 8-byte word reads the word, whose ECC it writes anew. -/
def State.store (s : State) (e t : Nat) (m : EngMem) (major n : Nat) : State :=
  s.issue e t m (fun w => iMajor w == major) (fun s w =>
    let a := (s.reg e t (iA w) + iImm14 w).toNat
    match s.dmemFault e a n (decide (n < 8)) m with
    | some x => (s, x)
    | none => ((s.if_ (decide (n < 8)) (fun s => s.eccSeen e m)).setDmem e a (leBytes n (s.reg e t (iDst w)).toNat), .next))

/-- A branch: its target, in range or not, is the branch's own (R204). -/
def State.branch (s : State) (e t : Nat) (m : EngMem) (major : Nat) (f : DWord → DWord → Bool) : State :=
  s.issue e t m (fun w => iMajor w == major) (fun s w =>
    let goal : Int := ((s.thr e t).pc.toNat : Int) + (BitVec.ofNat 14 (at' (iDst w) 8 + iFn w)).toInt
    if goal < 0 ∨ 16383 < goal then (s, .fault 2 (BitVec.ofInt 34 goal).toNat)
    else if f (s.reg e t (iA w)) (s.reg e t (iB w)) then (s, .jump goal.toNat) else (s, .next))

/-- Zeros above the highest set bit, 64 of them in 0. -/
def leadingZeros (a : DWord) : Nat := ((List.range 64).takeWhile (fun i => !bit a (63 - i))).length

/-- Zeros below the lowest set bit, 64 of them in 0. -/
def trailingZeros (a : DWord) : Nat := ((List.range 64).takeWhile (fun i => !bit a i)).length

/-- ADD (Table 9-3). -/
def execThrAdd (e : Fin 136) (t : Fin 8) (s : State) (m : EngMem := .clean) : Res :=
  .next (s.alu e.val t.val m 0x00 0x00 1 false (fun a b _ => a + b))

/-- SUB (Table 9-3). -/
def execThrSub (e : Fin 136) (t : Fin 8) (s : State) (m : EngMem := .clean) : Res :=
  .next (s.alu e.val t.val m 0x00 0x01 1 false (fun a b _ => a - b))

/-- AND (Table 9-3). -/
def execThrAnd (e : Fin 136) (t : Fin 8) (s : State) (m : EngMem := .clean) : Res :=
  .next (s.alu e.val t.val m 0x00 0x02 1 false (fun a b _ => a &&& b))

/-- OR (Table 9-3). -/
def execThrOr (e : Fin 136) (t : Fin 8) (s : State) (m : EngMem := .clean) : Res :=
  .next (s.alu e.val t.val m 0x00 0x03 1 false (fun a b _ => a ||| b))

/-- XOR (Table 9-3). -/
def execThrXor (e : Fin 136) (t : Fin 8) (s : State) (m : EngMem := .clean) : Res :=
  .next (s.alu e.val t.val m 0x00 0x04 1 false (fun a b _ => a ^^^ b))

/-- SLL (Table 9-3). -/
def execThrSll (e : Fin 136) (t : Fin 8) (s : State) (m : EngMem := .clean) : Res :=
  .next (s.alu e.val t.val m 0x00 0x05 1 false (fun a b _ => a <<< (b.toNat % 64)))

/-- SRL (Table 9-3). -/
def execThrSrl (e : Fin 136) (t : Fin 8) (s : State) (m : EngMem := .clean) : Res :=
  .next (s.alu e.val t.val m 0x00 0x06 1 false (fun a b _ => a >>> (b.toNat % 64)))

/-- SRA (Table 9-3). -/
def execThrSra (e : Fin 136) (t : Fin 8) (s : State) (m : EngMem := .clean) : Res :=
  .next (s.alu e.val t.val m 0x00 0x07 1 false (fun a b _ => a.sshiftRight (b.toNat % 64)))

/-- SLT (Table 9-3). -/
def execThrSlt (e : Fin 136) (t : Fin 8) (s : State) (m : EngMem := .clean) : Res :=
  .next (s.alu e.val t.val m 0x00 0x08 1 false (fun a b _ => BitVec.ofNat 64 (b2n (a.slt b))))

/-- SLTU (Table 9-3). -/
def execThrSltu (e : Fin 136) (t : Fin 8) (s : State) (m : EngMem := .clean) : Res :=
  .next (s.alu e.val t.val m 0x00 0x09 1 false (fun a b _ => BitVec.ofNat 64 (b2n (a.ult b))))

/-- MUL (Table 9-3). -/
def execThrMul (e : Fin 136) (t : Fin 8) (s : State) (m : EngMem := .clean) : Res :=
  .next (s.alu e.val t.val m 0x00 0x0A 3 false (fun a b _ => a * b))

/-- MULHU (Table 9-3). -/
def execThrMulhu (e : Fin 136) (t : Fin 8) (s : State) (m : EngMem := .clean) : Res :=
  .next (s.alu e.val t.val m 0x00 0x0B 3 false (fun a b _ => BitVec.ofNat 64 (a.toNat * b.toNat / 2 ^ 64)))

/-- MIN (Table 9-3). -/
def execThrMin (e : Fin 136) (t : Fin 8) (s : State) (m : EngMem := .clean) : Res :=
  .next (s.alu e.val t.val m 0x00 0x0C 1 false (fun a b _ => if a.slt b then a else b))

/-- MAX (Table 9-3). -/
def execThrMax (e : Fin 136) (t : Fin 8) (s : State) (m : EngMem := .clean) : Res :=
  .next (s.alu e.val t.val m 0x00 0x0D 1 false (fun a b _ => if a.slt b then b else a))

/-- MINU (Table 9-3). -/
def execThrMinu (e : Fin 136) (t : Fin 8) (s : State) (m : EngMem := .clean) : Res :=
  .next (s.alu e.val t.val m 0x00 0x0E 1 false (fun a b _ => if a.ult b then a else b))

/-- MAXU (Table 9-3). -/
def execThrMaxu (e : Fin 136) (t : Fin 8) (s : State) (m : EngMem := .clean) : Res :=
  .next (s.alu e.val t.val m 0x00 0x0F 1 false (fun a b _ => if a.ult b then b else a))

/-- SLLI: the b field is the shift amount (Table 9-3). -/
def execThrSlli (e : Fin 136) (t : Fin 8) (s : State) (m : EngMem := .clean) : Res :=
  .next (s.alu e.val t.val m 0x00 0x10 1 false (fun a _ n => a <<< n))

/-- SRLI: the b field is the shift amount (Table 9-3). -/
def execThrSrli (e : Fin 136) (t : Fin 8) (s : State) (m : EngMem := .clean) : Res :=
  .next (s.alu e.val t.val m 0x00 0x11 1 false (fun a _ n => a >>> n))

/-- SRAI: the b field is the shift amount (Table 9-3). -/
def execThrSrai (e : Fin 136) (t : Fin 8) (s : State) (m : EngMem := .clean) : Res :=
  .next (s.alu e.val t.val m 0x00 0x12 1 false (fun a _ n => a.sshiftRight n))

/-- POPC (Table 9-3). -/
def execThrPopc (e : Fin 136) (t : Fin 8) (s : State) (m : EngMem := .clean) : Res :=
  .next (s.alu e.val t.val m 0x00 0x13 1 true (fun a _ _ => BitVec.ofNat 64 (bitsSet a 64).length))

/-- CLZ (Table 9-3). -/
def execThrClz (e : Fin 136) (t : Fin 8) (s : State) (m : EngMem := .clean) : Res :=
  .next (s.alu e.val t.val m 0x00 0x14 1 true (fun a _ _ => BitVec.ofNat 64 (leadingZeros a)))

/-- CTZ (Table 9-3). -/
def execThrCtz (e : Fin 136) (t : Fin 8) (s : State) (m : EngMem := .clean) : Res :=
  .next (s.alu e.val t.val m 0x00 0x15 1 true (fun a _ _ => BitVec.ofNat 64 (trailingZeros a)))

/-- BSWAP64 (Table 9-3). -/
def execThrBswap64 (e : Fin 136) (t : Fin 8) (s : State) (m : EngMem := .clean) : Res :=
  .next (s.alu e.val t.val m 0x00 0x16 1 true (fun a _ _ => BitVec.ofNat 64 (beNat (leBytes 8 a.toNat))))

/-- BSWAP32 (Table 9-3). -/
def execThrBswap32 (e : Fin 136) (t : Fin 8) (s : State) (m : EngMem := .clean) : Res :=
  .next (s.alu e.val t.val m 0x00 0x17 1 true (fun a _ _ => BitVec.ofNat 64 (beNat (leBytes 4 a.toNat))))

/-- BSWAP16 (Table 9-3). -/
def execThrBswap16 (e : Fin 136) (t : Fin 8) (s : State) (m : EngMem := .clean) : Res :=
  .next (s.alu e.val t.val m 0x00 0x18 1 true (fun a _ _ => BitVec.ofNat 64 (beNat (leBytes 2 a.toNat))))

/-- ADDI: imm14 is sign-extended (R201). -/
def execThrAddi (e : Fin 136) (t : Fin 8) (s : State) (m : EngMem := .clean) : Res := .next (s.aluImm e.val t.val m 0x01 (fun a i => a + i))

/-- ANDI: imm14 is sign-extended (R201). -/
def execThrAndi (e : Fin 136) (t : Fin 8) (s : State) (m : EngMem := .clean) : Res := .next (s.aluImm e.val t.val m 0x02 (fun a i => a &&& i))

/-- ORI: imm14 is sign-extended (R201). -/
def execThrOri (e : Fin 136) (t : Fin 8) (s : State) (m : EngMem := .clean) : Res := .next (s.aluImm e.val t.val m 0x03 (fun a i => a ||| i))

/-- XORI: imm14 is sign-extended (R201). -/
def execThrXori (e : Fin 136) (t : Fin 8) (s : State) (m : EngMem := .clean) : Res := .next (s.aluImm e.val t.val m 0x04 (fun a i => a ^^^ i))

/-- SLTI: imm14 is sign-extended (R201). -/
def execThrSlti (e : Fin 136) (t : Fin 8) (s : State) (m : EngMem := .clean) : Res := .next (s.aluImm e.val t.val m 0x05 (fun a i => BitVec.ofNat 64 (b2n (a.slt i))))

/-- MOVI: imm20 sign-extended (Table 9-2). -/
def execThrMovi (e : Fin 136) (t : Fin 8) (s : State) (m : EngMem := .clean) : Res :=
  .next (s.issue e.val t.val m (fun w => iMajor w == 0x06) (fun s w =>
    (s.setReg e.val t.val (iDst w) ((BitVec.ofNat 20 (iImm20 w)).signExtend 64), .next)))

/-- MOVK: dst ← (dst << 20) OR imm20, zero-extended (Table 9-2). -/
def execThrMovk (e : Fin 136) (t : Fin 8) (s : State) (m : EngMem := .clean) : Res :=
  .next (s.issue e.val t.val m (fun w => iMajor w == 0x07) (fun s w =>
    (s.setReg e.val t.val (iDst w) (s.reg e.val t.val (iDst w) <<< 20 ||| BitVec.ofNat 64 (iImm20 w)), .next)))

/-- Position and width of a bit field op, the field cut off at bit 63 (Table 9-4). -/
def xPos (w : Word) : Nat := iB w
def xWidth (w : Word) : Nat := min (fld w 2 6 + 1) (64 - iB w)

/-- A bit field op: dst ← f a dst. -/
def State.bitField (s : State) (e t : Nat) (m : EngMem) (op : Nat) (f : Word → DWord → DWord → DWord) : State :=
  s.issue e t m (fun w => iMajor w == 0x08 && fld w 0 2 == op) (fun s w =>
    (s.setReg e t (iDst w) (f w (s.reg e t (iA w)) (s.reg e t (iDst w))), .next))

/-- BFX. -/
def execThrBfx (e : Fin 136) (t : Fin 8) (s : State) (m : EngMem := .clean) : Res :=
  .next (s.bitField e.val t.val m 0 (fun w a _ => BitVec.ofNat 64 (fld a (xPos w) (xWidth w))))

/-- BFXS: sign-extended from the field's top bit. -/
def execThrBfxs (e : Fin 136) (t : Fin 8) (s : State) (m : EngMem := .clean) : Res :=
  .next (s.bitField e.val t.val m 1 (fun w a _ =>
    let x := fld a (xPos w) (xWidth w)
    BitVec.ofInt 64 (if x < 2 ^ (xWidth w - 1) then (x : Int) else (x : Int) - 2 ^ xWidth w)))

/-- BFI: other bits of dst unchanged. -/
def execThrBfi (e : Fin 136) (t : Fin 8) (s : State) (m : EngMem := .clean) : Res :=
  .next (s.bitField e.val t.val m 2 (fun w a d => setFld d (xPos w) (xWidth w) a.toNat))

/-- CRC32C8 (R206). -/
def execThrCrc32c8 (e : Fin 136) (t : Fin 8) (s : State) (m : EngMem := .clean) : Res :=
  .next (s.alu e.val t.val m 0x09 0x00 1 false (fun a b _ => (crcFrom polyC (a.setWidth 32) (leBytes 1 b.toNat)).setWidth 64))

/-- CRC32C16 (R206). -/
def execThrCrc32c16 (e : Fin 136) (t : Fin 8) (s : State) (m : EngMem := .clean) : Res :=
  .next (s.alu e.val t.val m 0x09 0x01 1 false (fun a b _ => (crcFrom polyC (a.setWidth 32) (leBytes 2 b.toNat)).setWidth 64))

/-- CRC32C32 (R206). -/
def execThrCrc32c32 (e : Fin 136) (t : Fin 8) (s : State) (m : EngMem := .clean) : Res :=
  .next (s.alu e.val t.val m 0x09 0x02 1 false (fun a b _ => (crcFrom polyC (a.setWidth 32) (leBytes 4 b.toNat)).setWidth 64))

/-- CRC32C64 (R206). -/
def execThrCrc32c64 (e : Fin 136) (t : Fin 8) (s : State) (m : EngMem := .clean) : Res :=
  .next (s.alu e.val t.val m 0x09 0x03 2 false (fun a b _ => (crcFrom polyC (a.setWidth 32) (leBytes 8 b.toNat)).setWidth 64))

/-- CRC32E8 (R206). -/
def execThrCrc32e8 (e : Fin 136) (t : Fin 8) (s : State) (m : EngMem := .clean) : Res :=
  .next (s.alu e.val t.val m 0x09 0x04 1 false (fun a b _ => (crcFrom polyE (a.setWidth 32) (leBytes 1 b.toNat)).setWidth 64))

/-- CRC32E16 (R206). -/
def execThrCrc32e16 (e : Fin 136) (t : Fin 8) (s : State) (m : EngMem := .clean) : Res :=
  .next (s.alu e.val t.val m 0x09 0x05 1 false (fun a b _ => (crcFrom polyE (a.setWidth 32) (leBytes 2 b.toNat)).setWidth 64))

/-- CRC32E32 (R206). -/
def execThrCrc32e32 (e : Fin 136) (t : Fin 8) (s : State) (m : EngMem := .clean) : Res :=
  .next (s.alu e.val t.val m 0x09 0x06 1 false (fun a b _ => (crcFrom polyE (a.setWidth 32) (leBytes 4 b.toNat)).setWidth 64))

/-- CRC32E64 (R206). -/
def execThrCrc32e64 (e : Fin 136) (t : Fin 8) (s : State) (m : EngMem := .clean) : Res :=
  .next (s.alu e.val t.val m 0x09 0x07 2 false (fun a b _ => (crcFrom polyE (a.setWidth 32) (leBytes 8 b.toNat)).setWidth 64))

/-- FOLD16 (Table 9-5). -/
def execThrFold16 (e : Fin 136) (t : Fin 8) (s : State) (m : EngMem := .clean) : Res :=
  .next (s.alu e.val t.val m 0x09 0x08 1 true (fun a _ _ => BitVec.ofNat 64 (fld a 0 16 ^^^ fld a 16 16 ^^^ fld a 32 16 ^^^ fld a 48 16)))

/-- MIX16 (Table 9-5). -/
def execThrMix16 (e : Fin 136) (t : Fin 8) (s : State) (m : EngMem := .clean) : Res :=
  .next (s.alu e.val t.val m 0x09 0x09 2 true (fun a _ _ => BitVec.ofNat 64 (a.toNat * 0x9E37 % 65536)))

/-- AADD (R207, Table 9-6). -/
def execThrAadd (e : Fin 136) (t : Fin 8) (s : State) (m : EngMem := .clean) : Res := .next (s.atomic e.val t.val m 0x00 (fun o b _ => o + b))

/-- AAND (R207, Table 9-6). -/
def execThrAand (e : Fin 136) (t : Fin 8) (s : State) (m : EngMem := .clean) : Res := .next (s.atomic e.val t.val m 0x01 (fun o b _ => o &&& b))

/-- AOR (R207, Table 9-6). -/
def execThrAor (e : Fin 136) (t : Fin 8) (s : State) (m : EngMem := .clean) : Res := .next (s.atomic e.val t.val m 0x02 (fun o b _ => o ||| b))

/-- AXOR (R207, Table 9-6). -/
def execThrAxor (e : Fin 136) (t : Fin 8) (s : State) (m : EngMem := .clean) : Res := .next (s.atomic e.val t.val m 0x03 (fun o b _ => o ^^^ b))

/-- ASWAP (R207, Table 9-6). -/
def execThrAswap (e : Fin 136) (t : Fin 8) (s : State) (m : EngMem := .clean) : Res := .next (s.atomic e.val t.val m 0x04 (fun _ b _ => b))

/-- AMINU (R207, Table 9-6). -/
def execThrAminu (e : Fin 136) (t : Fin 8) (s : State) (m : EngMem := .clean) : Res := .next (s.atomic e.val t.val m 0x05 (fun o b _ => if o.ult b then o else b))

/-- AMAXU (R207, Table 9-6). -/
def execThrAmaxu (e : Fin 136) (t : Fin 8) (s : State) (m : EngMem := .clean) : Res := .next (s.atomic e.val t.val m 0x06 (fun o b _ => if o.ult b then b else o))

/-- ACAS (R207, Table 9-6). -/
def execThrAcas (e : Fin 136) (t : Fin 8) (s : State) (m : EngMem := .clean) : Res := .next (s.atomic e.val t.val m 0x07 (fun o b d => if o = d then b else o))

/-- LDB: zero-extended (R205). -/
def execThrLdb (e : Fin 136) (t : Fin 8) (s : State) (m : EngMem := .clean) : Res := .next (s.load e.val t.val m 0x10 1)

/-- LDH: zero-extended (R205). -/
def execThrLdh (e : Fin 136) (t : Fin 8) (s : State) (m : EngMem := .clean) : Res := .next (s.load e.val t.val m 0x11 2)

/-- LDW: zero-extended (R205). -/
def execThrLdw (e : Fin 136) (t : Fin 8) (s : State) (m : EngMem := .clean) : Res := .next (s.load e.val t.val m 0x12 4)

/-- LDD: zero-extended (R205). -/
def execThrLdd (e : Fin 136) (t : Fin 8) (s : State) (m : EngMem := .clean) : Res := .next (s.load e.val t.val m 0x13 8)

/-- STB: the low bytes of dst (R205). -/
def execThrStb (e : Fin 136) (t : Fin 8) (s : State) (m : EngMem := .clean) : Res := .next (s.store e.val t.val m 0x14 1)

/-- STH: the low bytes of dst (R205). -/
def execThrSth (e : Fin 136) (t : Fin 8) (s : State) (m : EngMem := .clean) : Res := .next (s.store e.val t.val m 0x15 2)

/-- STW: the low bytes of dst (R205). -/
def execThrStw (e : Fin 136) (t : Fin 8) (s : State) (m : EngMem := .clean) : Res := .next (s.store e.val t.val m 0x16 4)

/-- STD: the low bytes of dst (R205). -/
def execThrStd (e : Fin 136) (t : Fin 8) (s : State) (m : EngMem := .clean) : Res := .next (s.store e.val t.val m 0x17 8)

/-- BEQ (R204). -/
def execThrBeq (e : Fin 136) (t : Fin 8) (s : State) (m : EngMem := .clean) : Res := .next (s.branch e.val t.val m 0x18 (fun a b => a == b))

/-- BNE (R204). -/
def execThrBne (e : Fin 136) (t : Fin 8) (s : State) (m : EngMem := .clean) : Res := .next (s.branch e.val t.val m 0x19 (fun a b => a != b))

/-- BLT (R204). -/
def execThrBlt (e : Fin 136) (t : Fin 8) (s : State) (m : EngMem := .clean) : Res := .next (s.branch e.val t.val m 0x1A (fun a b => a.slt b))

/-- BGE (R204). -/
def execThrBge (e : Fin 136) (t : Fin 8) (s : State) (m : EngMem := .clean) : Res := .next (s.branch e.val t.val m 0x1B (fun a b => !a.slt b))

/-- BLTU (R204). -/
def execThrBltu (e : Fin 136) (t : Fin 8) (s : State) (m : EngMem := .clean) : Res := .next (s.branch e.val t.val m 0x1C (fun a b => a.ult b))

/-- BGEU (R204). -/
def execThrBgeu (e : Fin 136) (t : Fin 8) (s : State) (m : EngMem := .clean) : Res := .next (s.branch e.val t.val m 0x1D (fun a b => !a.ult b))

/-- JAL: the link, where LINK is 1, then the target (R204). Bits [18:14] are reserved. -/
def execThrJal (e : Fin 136) (t : Fin 8) (s : State) (m : EngMem := .clean) : Res :=
  .next (s.issue e.val t.val m (fun w => iMajor w == 0x1E) (fun s w =>
    if fld w 14 5 ≠ 0 then (s, .fault 1 w.toNat) else
    let s' := if bit w 19 then s.setReg e.val t.val (iDst w) (BitVec.ofNat 64 ((s.thr e.val t.val).pc.toNat + 1)) else s
    (s', .jump (fld w 0 14))))

/-- JALR: dst ← PC + 1, PC ← (a + imm14) [13:0] (R204). -/
def execThrJalr (e : Fin 136) (t : Fin 8) (s : State) (m : EngMem := .clean) : Res :=
  .next (s.issue e.val t.val m (fun w => iMajor w == 0x1F) (fun s w =>
    let goal := (s.reg e.val t.val (iA w) + iImm14 w).toNat % 16384
    (s.setReg e.val t.val (iDst w) (BitVec.ofNat 64 ((s.thr e.val t.val).pc.toNat + 1)), .jump goal)))

end Sys2Proof.Machine
end

