-- ==== Sys2Proof/Machine/ThrIo.lean ====
section
/-!
DEFINITION. Machine/ThrIo.lean: the Path Engine instructions that reach channels, packets, memory requests and the thread
itself (R177, R178, R181 to R193, R208 to R218).
-/
namespace Sys2Proof.Machine
open Sys2Proof

def State.setTs (s : State) (e t : Nat) (ts : Nat) : State := s.updThr e t (fun x => { x with ts := BitVec.ofNat 64 ts })

/-- A channel read that returns no word: dst 0 and TS (Table 9-13). -/
def State.noWord (s : State) (e t dst ts : Nat) : State := (s.setReg e t dst 0).setTs e t ts

/-- The next word of a message as thread `t` reads it (R208, R216): the state with a packet in its slot after the last word of
a packet message, the word, TS, and what is left of the message; none where the thread holds 16 packets already. -/
def State.takeWord (s : State) (e t : Nat) (m : Msg) : Option (State × DWord × Nat × Option Msg) :=
  match m.words with
  | [] => none
  | w :: rest =>
    let ts := at' (b2n (m.words.length == m.total)) 2 + at' (b2n rest.isEmpty) 3 + at' m.total 4
    if !rest.isEmpty then some (s, w, ts, some { m with words := rest }) else
    match m.pkt with
    | none => some (s, w, ts, none)
    | some p =>
      if (s.thr e t).freeSlots.isEmpty then none else
      let (s, k) := s.intoSlot e t p
      some (s.bump (R.ENG_THR_PKT_IN_CNT e t), w, ts + at' 1 11 + at' k 12, none)

/-- A channel read (R215, R216): blocking, or with EMPTY where nothing is there. The last word of a message is a boundary for
a change of binding that waits (R192), and frees room for writers. -/
def State.chanRead (s : State) (e t c dst : Nat) (blocking : Bool) : State × IEnd :=
  if !s.bindValid e c || s.bindReader e c != t then (s.noWord e t dst 1, .next) else
  let ch := s.chan e c
  match ch.msgs with
  | [] => if blocking then (s, .block .blockedRead c .word) else (s.noWord e t dst 2, .next)
  | m :: ms =>
    match s.takeWord e t m with
    | none => (s.noWord e t dst (at' 1 10), .next)
    | some (s, w, ts, left) =>
      let s := ((s.setChan e c { ch with msgs := left.toList ++ ms }).setReg e t dst w).setTs e t ts
      let s := match left, ch.rebind with
        | none, some v => s.rebind e c v
        | _, _ => s
      (s.wakeWriters e c, .next)

/-- CHRD: blocks while the channel holds no word. -/
def execThrChrd (e : Fin 136) (t : Fin 8) (s : State) (m : EngMem := .clean) : Res :=
  .next (s.issue e.val t.val m (fun w => iMajor w == 0x20 && decide (iFn w < 0x20)) (fun s w =>
    s.chanRead e.val t.val (iFn w % 32) (iDst w) true))

/-- CHRDNB: never blocks. -/
def execThrChrdnb (e : Fin 136) (t : Fin 8) (s : State) (m : EngMem := .clean) : Res :=
  .next (s.issue e.val t.val m (fun w => iMajor w == 0x20 && decide (0x20 ≤ iFn w) && decide (iFn w < 0x40)) (fun s w =>
    s.chanRead e.val t.val (iFn w % 32) (iDst w) false))

/-- The next word of the orphan queue: a tag word, or a word of its message (R193, R215, R216). -/
def State.orphanRead (s : State) (e t dst : Nat) : State :=
  match s.orphans e with
  | [] => s.noWord e t dst 2
  | o :: rest =>
    match o.tag with
    | some w => ((s.setOrphans e ({ o with tag := none } :: rest)).setReg e t dst w).setTs e t
        (at' 1 9 + at' o.msg.words.length 4)
    | none =>
      match s.takeWord e t o.msg with
      | none => s.noWord e t dst (at' 1 10)
      | some (s, w, ts, left) =>
        ((s.setOrphans e ((left.map (fun m => ({ o with msg := m } : OrphMsg))).toList ++ rest)).setReg e t dst w).setTs e t ts

/-- ORPHRD. -/
def execThrOrphrd (e : Fin 136) (t : Fin 8) (s : State) (m : EngMem := .clean) : Res :=
  .next (s.issue e.val t.val m (isFn 0x20 0x40) (fun s w => (s.orphanRead e.val t.val (iDst w), .next)))

/-- CHLVL. -/
def execThrChlvl (e : Fin 136) (t : Fin 8) (s : State) (m : EngMem := .clean) : Res :=
  .next (s.issue e.val t.val m (fun w => iMajor w == 0x20 && decide (0x60 ≤ iFn w) && decide (iFn w < 0x80)) (fun s w =>
    (s.setReg e.val t.val (iDst w) (BitVec.ofNat 64 (s.chan e.val (iFn w % 32)).level), .next)))

/-- Word `k` of the open message staged, the target opening it where none is open (R217). -/
def State.stageWord (s : State) (e t k : Nat) (target : BitVec 13) (v : DWord) : State :=
  s.updThr e t (fun x => { x with target := some target, staged := mapSet (fun _ => none) x.staged k (some v) })

/-- Whether another message is open (R217). -/
def Thread.otherOpen (x : Thread) (target : BitVec 13) : Bool := match x.target with
  | some y => y != target
  | none => false

/-- CHST. -/
def execThrChst (e : Fin 136) (t : Fin 8) (s : State) (m : EngMem := .clean) : Res :=
  .next (s.issue e.val t.val m (fun w => iMajor w == 0x20 && decide (0x80 ≤ iFn w) && decide (iFn w < 0x90)) (fun s w =>
    let target := (s.reg e.val t.val (iB w)).setWidth 13
    if (s.thr e.val t.val).otherOpen target then (s, .fault 10 target.toNat)
    else (s.stageWord e.val t.val (iFn w % 16) target (s.reg e.val t.val (iA w)), .next)))

/-- The message staged up to word `k`; a word never staged is sent as 0 (R217). -/
def Thread.message (x : Thread) (k : Nat) : Msg :=
  ⟨(List.range (k + 1)).map (fun i => (mapGet (fun _ => none) x.staged i).getD 0), k + 1, none⟩

/-- The staging area is empty again. -/
def State.closeMsg (s : State) (e t : Nat) : State := s.updThr e t (fun x => { x with staged := [], target := none })

/-- Whether the scope of channel `c` of engine `d` admits a thread of engine `e` (Table 8-4); an unbound channel of another
engine is the Junction's to find (R186). -/
def State.admitsThread (s : State) (e d c : Nat) : Bool :=
  match s.bindScope d c with
  | 0 => e == d || !s.bindValid d c
  | 1 => true
  | _ => !s.bindValid d c

/-- Words 0 to `k` committed to a target (R183, R186, R217, R218). The writer stays in BLOCKED_WRITE while the Junction has not
taken its previous message, or while the channel has no room beside what it holds and what the Junction has accepted for it
(Table 8-3; DEDUCED, log entry 100). -/
def State.commitMsg (s : State) (e t k : Nat) (target : BitVec 13) : State × IEnd :=
  let m := (s.thr e t).message k
  let l := fld target 0 8
  let c := fld target 8 5
  let waits := s.eng.jct.any (fun j => j.fromEng == e && j.fromThr == t)
  let viaJct := fun (d : Nat) =>
    if waits then (s, IEnd.block .blockedWrite c .junction)
    else if d ≠ 255 ∧ !s.chanTakes d c (k + 1) then (s, IEnd.block .blockedWrite c (.room d c (k + 1)))
    else (({ s with eng := { s.eng with jct := s.eng.jct ++ [(⟨e, t, d, c, m⟩ : JMsg)] } }).closeMsg e t, IEnd.next)
  if l = 255 then viaJct 255 else
  match s.eng.logical[l]? with
  | none => ((s.bump R.JCT_UNBOUND_CNT).closeMsg e t, .next)
  | some d =>
    if !s.admitsThread e d c then (s, .fault 9 target.toNat)
    else if d ≠ e then viaJct d
    else if 16 < s.chanLoad e c + (k + 1) then (s, .block .blockedWrite c (.room e c (k + 1)))
    else ((s.intoChan e c m).closeMsg e t, .next)

/-- CHCMT. -/
def execThrChcmt (e : Fin 136) (t : Fin 8) (s : State) (m : EngMem := .clean) : Res :=
  .next (s.issue e.val t.val m (fun w => iMajor w == 0x20 && decide (0xA0 ≤ iFn w) && decide (iFn w < 0xB0)) (fun s w =>
    let target := (s.reg e.val t.val (iB w)).setWidth 13
    if (s.thr e.val t.val).otherOpen target then (s, .fault 10 target.toNat)
    else (s.stageWord e.val t.val (iFn w % 16) target (s.reg e.val t.val (iA w))).commitMsg e.val t.val (iFn w % 16) target))

/-- CHABORT. -/
def execThrChabort (e : Fin 136) (t : Fin 8) (s : State) (m : EngMem := .clean) : Res :=
  .next (s.issue e.val t.val m (isFn 0x20 0xC0) (fun s _ =>
    ((s.if_ (s.thr e.val t.val).target.isSome (fun s => s.bump (R.ENG_PARTIAL_DISCARD_CNT e.val))).closeMsg e.val t.val,
      .next)))

/-- The packet in the slot a register names (R208). -/
def State.slotPkt (s : State) (e t : Nat) (v : DWord) : Option Pkt := if v.toNat < 16 then (s.thr e t).slot v.toNat else none

/-- An instruction on the packet of the slot that register a names. -/
def State.onSlot (s : State) (e t : Nat) (w : Word) (f : Nat → Pkt → State × IEnd) : State × IEnd :=
  let v := s.reg e t (iA w)
  match s.slotPkt e t v with
  | none => (s, .fault 5 v.toNat)
  | some p => f v.toNat p

/-- SPRD. -/
def execThrSprd (e : Fin 136) (t : Fin 8) (s : State) (m : EngMem := .clean) : Res :=
  .next (s.issue e.val t.val m (fun w => iMajor w == 0x21 && decide (iFn w < 8)) (fun s w =>
    s.onSlot e.val t.val w (fun _ p => (s.setReg e.val t.val (iDst w) (BitVec.ofNat 64 (fld p.sp (64 * iFn w) 64)), .next))))

/-- The Signpost bits that Table 2-3 marks RW. -/
def spRw : Signpost :=
  spSets 0 ([SP.PCP, SP.DSCP, SP.ECN, SP.SRC_L4, SP.DST_L4, SP.TENANT, SP.SRC_ADDR, SP.DST_ADDR, (0, 40)].map
    (fun f => (f, 2 ^ f.2 - 1)))

/-- SPWR: RW bits only (R209). -/
def execThrSpwr (e : Fin 136) (t : Fin 8) (s : State) (m : EngMem := .clean) : Res :=
  .next (s.issue e.val t.val m (fun w => iMajor w == 0x21 && decide (0x80 ≤ iFn w)) (fun s w =>
    if iDst w ≠ 0 then (s, .fault 1 w.toNat) else
    s.onSlot e.val t.val w (fun k p =>
      let new := setFld p.sp (64 * (iFn w - 0x80)) 64 (s.reg e.val t.val (iB w)).toNat
      let sp := (new &&& spRw) ||| (p.sp &&& ~~~spRw)
      (s.updThr e.val t.val (fun x => x.setSlot k (some { p with sp := sp })), .next))))

/-- A thread's hold on a packet ends (R190). -/
def State.letGo (s : State) (e t k : Nat) : State :=
  (s.updThr e t (fun x => x.setSlot k none)).bump (R.ENG_THR_PKT_OUT_CNT e t)

/-- PKTTM (R190). -/
def execThrPkttm (e : Fin 136) (t : Fin 8) (s : State) (m : EngMem := .clean) : Res :=
  .next (s.issue e.val t.val m (isFn 0x22 0) (fun s w =>
    s.onSlot e.val t.val w (fun k p => (((s.letGo e.val t.val k).leave_ p).toTm p, .next))))

/-- A packet goes back to a carriageway, after a re-parse if asked for; an originated one is parsed as new (R80, R81, R191). -/
def State.toCway (s : State) (p : Pkt) (again : Bool) : State :=
  if p.ingress = noPort then s.toUnit 4 p
  else if again ∧ spGet p.sp SP.PASS ≠ 3 then
    s.toUnit 4 { p with
      reparse := true, sp := spSet p.sp SP.CWAY (fld (s.rd (R.PARSE_LANE_MAP (spGet p.sp SP.LANE_IDX))) 0 3) }
  else s.backToCway p

/-- PKTCW. -/
def execThrPktcw (e : Fin 136) (t : Fin 8) (s : State) (m : EngMem := .clean) : Res :=
  .next (s.issue e.val t.val m (isFn 0x22 1) (fun s w =>
    if 1 < iB w then (s, .fault 1 w.toNat) else
    s.onSlot e.val t.val w (fun k p => ((s.letGo e.val t.val k).toCway p (iB w == 1), .next))))

/-- PKTDROP with reason 0 to 7. -/
def execThrPktdrop (e : Fin 136) (t : Fin 8) (s : State) (m : EngMem := .clean) : Res :=
  .next (s.issue e.val t.val m (isFn 0x22 2) (fun s w =>
    if 7 < iB w then (s, .fault 1 w.toNat) else
    s.onSlot e.val t.val w (fun k p =>
      ((s.letGo e.val t.val k).dropEarly p (R.ENG_PKT_DROP_CNT e.val (iB w)) 10 (iB w), .next))))

/-- PKTNEW (R191, R210): the Reset value of WAYMARK is the current one (Table 2-3), that of the LIVE generation. -/
def execThrPktnew (e : Fin 136) (t : Fin 8) (s : State) (m : EngMem := .clean) : Res :=
  .next (s.issue e.val t.val m (isFn 0x22 3) (fun s w =>
    let len := (s.reg e.val t.val (iB w)).toNat
    if (s.thr e.val t.val).freeSlots.isEmpty then (s, .fault 11 16)
    else if len < 14 ∨ 9600 < len ∨ s.cellsFor false < ceilDiv len 256 then
      ((s.bump R.PBUF_ALLOC_FAIL_CNT).setReg e.val t.val (iDst w) (BitVec.allOnes 64), .next)
    else
      let (s, p) := s.newPkt (List.replicate len 0) 3 9 noFunc
      let p := { p with sp := spSets spReset [(SP.ORIGIN, 3), (SP.SRC_PORT, 9), (SP.PKT_LEN, len),
        (SP.WAYMARK, (s.gen s.liveSlot).waymark.toNat)] }
      let (s, k) := (s.takeCells p.cells).intoSlot e.val t.val p
      (s.setReg e.val t.val (iDst w) (BitVec.ofNat 64 k), .next)))

/-- A request takes the lowest free tag and writes it to dst, or blocks while all 8 are outstanding (R177, R211). -/
def State.request (s : State) (e t dst : Nat) (r : EngReq) : State × IEnd :=
  match (List.range 8).find? (fun k => ((s.thr e t).tag k).req.isNone) with
  | none => (s, .block .blockedMem 0 .tag)
  | some k =>
    ((s.updThr e t (fun x => x.setTag k { x.tag k with req := some r, done := false })).setReg e t dst (BitVec.ofNat 64 k), .next)

/-- Whether all 8 tags are outstanding. -/
def Thread.tagsFull (x : Thread) : Bool := x.outstanding.length == 8

/-- The fault of a request's local address (R219, Table 9-11): range first, then alignment. -/
def localFault (a n align : Nat) : Option IEnd :=
  if 262144 < a + n then some (.fault 3 a) else if a % align ≠ 0 then some (.fault 4 a) else none

def pktReq (b : DWord) : Nat × Nat × Nat := (fld b 0 18, fld b 18 14, fld b 32 6 + 1)

/-- REQ_RANGE where a request reaches beyond the packet (R212). -/
def rangeStatus (p : Pkt) (off len : Nat) : Status := if p.bytes.length < off + len then 0x1050 else 0

/-- PKTRD: the packet's bytes as they are when the request issues. -/
def execThrPktrd (e : Fin 136) (t : Fin 8) (s : State) (m : EngMem := .clean) : Res :=
  .next (s.issue e.val t.val m (isFn 0x23 0) (fun s w =>
    s.onSlot e.val t.val w (fun _ p =>
      let (a, off, len) := pktReq (s.reg e.val t.val (iB w))
      match localFault a len 8 with
      | some x => (s, x)
      | none => s.request e.val t.val (iDst w)
          ⟨0, a, padTo len (slice p.bytes off len), rangeStatus p off len, 0, 0, 0, [], false⟩)))

/-- PKTWR: no byte beyond PKT_LEN (R212). -/
def execThrPktwr (e : Fin 136) (t : Fin 8) (s : State) (m : EngMem := .clean) : Res :=
  .next (s.issue e.val t.val m (isFn 0x23 1) (fun s w =>
    s.onSlot e.val t.val w (fun k p =>
      let (a, off, len) := pktReq (s.reg e.val t.val (iB w))
      match localFault a len 8 with
      | some x => (s, x)
      | none =>
        if s.dmemFails e.val a len m then (s, .fault 7 a)
        else if (s.thr e.val t.val).tagsFull then (s, .block .blockedMem 0 .tag)
        else
          let q := { p with bytes := patch p.bytes off (s.dmem e.val a len) }
          ((s.eccSeen e.val m).updThr e.val t.val (fun x => x.setSlot k (some q))).request e.val t.val (iDst w)
            ⟨1, a, [], rangeStatus p off len, 0, 0, 0, [], false⟩)))

/-- The HBM address of a thread's offset: its engine's region or the shared one (R178, Table 17-1). -/
def engHbm (e off : Nat) : Option Nat :=
  if off < 0x4000000 then some (0x300000000 + e * 0x4000000 + off)
  else if 0x40000000 ≤ off ∧ off < 0x80000000 then some (0x540000000 + (off - 0x40000000))
  else none

/-- The faults of an HBM request. -/
def hbmFault (e off a : Nat) : Option IEnd :=
  if (engHbm e off).isNone then some (.fault 8 off) else if off % 64 ≠ 0 then some (.fault 4 off) else localFault a 64 64

/-- HBMRD: 64 bytes, as they are when the request issues, which keeps a thread's requests in issue order (R211). -/
def execThrHbmrd (e : Fin 136) (t : Fin 8) (s : State) (m : EngMem := .clean) : Res :=
  .next (s.issue e.val t.val m (isFn 0x23 2) (fun s w =>
    let off := (s.reg e.val t.val (iA w)).toNat
    let a := fld (s.reg e.val t.val (iB w)) 0 18
    match hbmFault e.val off a with
    | some x => (s, x)
    | none =>
      let h := (engHbm e.val off).getD 0
      s.request e.val t.val (iDst w) ⟨2, a, s.hbmRead h 64, 0, h, 0, 0, [], false⟩))

/-- HBMWR: 64 bytes written whole. -/
def execThrHbmwr (e : Fin 136) (t : Fin 8) (s : State) (m : EngMem := .clean) : Res :=
  .next (s.issue e.val t.val m (isFn 0x23 3) (fun s w =>
    let off := (s.reg e.val t.val (iA w)).toNat
    let a := fld (s.reg e.val t.val (iB w)) 0 18
    match hbmFault e.val off a with
    | some x => (s, x)
    | none =>
      if s.dmemFails e.val a 64 m then (s, .fault 7 a)
      else if (s.thr e.val t.val).tagsFull then (s, .block .blockedMem 0 .tag)
      else
        let h := (engHbm e.val off).getD 0
        ((s.eccSeen e.val m).hbmPut h (s.dmem e.val a 64)).request e.val t.val (iDst w) ⟨3, a, [], 0, h, 0, 0, [], false⟩))

/-- Key bytes of a lookup by KIND (R213). -/
def lkupKeyLen : Nat → Nat
  | 1 => 40 | 2 => 8 | 6 => 4 | 7 => 16 | _ => 2

/-- LKUP (R213, Table 9-7): the key is read at issue. -/
def execThrLkup (e : Fin 136) (t : Fin 8) (s : State) (m : EngMem := .clean) : Res :=
  .next (s.issue e.val t.val m (isFn 0x23 4) (fun s w =>
    let key := (s.reg e.val t.val (iA w)).toNat
    let b := s.reg e.val t.val (iB w)
    let kind := fld b 18 4
    let reply := fld b 0 18
    let n := lkupKeyLen kind
    let th := s.thr e.val t.val
    let slot := fld b 25 4
    let byInst := kind == 1 || kind == 2
    if kind = 0 ∨ 7 < kind then (s, .fault 1 w.toNat) else
    match localFault key n 8, localFault reply 40 8 with
    | some x, _ => (s, x)
    | none, some x => (s, x)
    | none, none =>
      if s.dmemFails e.val key n m then (s, .fault 7 key)
      else if byInst && !th.held.isEmpty && (th.slot slot).isNone then (s, .fault 5 slot)
      else
        let inst := match th.slot slot with
          | some p => spGet p.sp SP.CWAY
          | none => fld b 22 3
        (s.if_ (!th.tagsFull) (fun s => s.eccSeen e.val m)).request e.val t.val (iDst w)
          ⟨4, reply, [], 0, 0, kind, if th.held.isEmpty then fld b 22 3 else inst, s.dmem e.val key n, bit b 29⟩))

/-- The lookup of an LKUP request as its reply returns (R91, R96, R98, R213); `bad`: its memory read fails. -/
def State.engLookup (s : State) (r : EngReq) (bad : Bool) : State × Found :=
  let key := leNat r.key
  if !bad && r.notouch && (r.kind == 1 || r.kind == 2) then s.emLookup r.inst (r.kind - 1) (BitVec.ofNat 320 key) false
  else s.realLookup r.inst 0 r.kind 0 (BitVec.ofNat 512 key) bad

/-- A lookup's reply of 40 bytes (R213). -/
def Found.reply (f : Found) : Bytes :=
  leBytes 4 (at' (b2n f.hit) 31 + (if f.hit then f.action else 0)) ++ leBytes 4 0 ++ bvBytes f.result

/-- Data and status of a reply; an uncorrectable error completes with REQ_UNCORR (R212), its data a free value. -/
def State.replyOf (s : State) (r : EngReq) (bad : Bool) : State × Bytes × Status :=
  let (junk, t) := s.freeBytes r.data.length
  match r.fn with
  | 0 => if bad then (t.pbufUncorr, junk, 0xF050) else (s, r.data, r.status)
  | 1 => if bad then (s.pbufUncorr, [], 0xF050) else (s, [], r.status)
  | 2 => if bad then (t.hbmUncorr r.addr (if r.addr < 0x540000000 then 8 else 9), junk, 0xF050) else (s, r.data, r.status)
  | 3 => (s, [], r.status)
  | _ =>
    let bad := bad && (r.kind == 1 || r.kind == 2 || r.kind == 6 || r.kind == 7)
    let (s, f) := s.engLookup r bad
    (s, f.reply, if bad then 0xF050 else 0)

/-- Whether what a thread in BLOCKED_MEM awaits has come with the reply on a tag (R177, R182, R214). -/
def Thread.memCame (x : Thread) (tag : Nat) : Bool := x.st == .blockedMem && match x.awaits with
  | .tag => true
  | .mask v => bit v tag
  | .all => x.outstanding.isEmpty
  | _ => false

/-- REQUEST_REPLY: the reply to the request on a tag arrives; it ends the wait of a thread that waits for it (R177, R211, R212,
R214). -/
def execRequestReply (e : Fin 136) (t : Fin 8) (tag : Fin 8) (bad : Bool) (s : State) : Res :=
  match ((s.thr e.val t.val).tag tag.val).req with
  | none => .next s
  | some r =>
    let (s, data, status) := s.replyOf r bad
    let s := (s.setDmem e.val r.laddr data).updThr e.val t.val (fun x => x.setTag tag.val ⟨none, true, status⟩)
    .next (if (s.thr e.val t.val).memCame tag.val then s.wake e.val t.val else s)

/-- WAIT (R214). -/
def execThrWait (e : Fin 136) (t : Fin 8) (s : State) (m : EngMem := .clean) : Res :=
  .next (s.issue e.val t.val m (fun w => iMajor w == 0x24) (fun s w =>
    let mask := s.reg e.val t.val (iA w)
    let th := s.thr e.val t.val
    if iB w ≠ 0 ∨ iFn w ≠ 0 then (s, .fault 1 w.toNat) else
    match (List.range 8).find? (fun k => bit mask k && (th.tag k).done) with
    | some k =>
      ((s.updThr e.val t.val (fun x => x.setTag k { x.tag k with done := false })).setReg e.val t.val (iDst w)
        (BitVec.ofNat 64 (at' k 16 + (th.tag k).status.toNat)), .next)
    | none =>
      if (List.range 8).any (fun k => bit mask k && (th.tag k).req.isSome) then (s, .block .blockedMem 0 (.mask mask))
      else (s.setReg e.val t.val (iDst w) (BitVec.allOnes 64), .next)))

/-- NOP. -/
def execThrNop (e : Fin 136) (t : Fin 8) (s : State) (m : EngMem := .clean) : Res :=
  .next (s.issue e.val t.val m (isFn 0x25 0) (fun s w => if fld w 8 18 ≠ 0 then (s, .fault 1 w.toNat) else (s, .next)))

/-- END: held packets are dropped as those of a retired thread, outstanding replies will be discarded. -/
def execThrEnd (e : Fin 136) (t : Fin 8) (s : State) (m : EngMem := .clean) : Res :=
  .next (s.issue e.val t.val m (isFn 0x25 1) (fun s w =>
    if fld w 8 18 ≠ 0 then (s, .fault 1 w.toNat)
    else ((s.dropHeld e.val t.val).1.updThr e.val t.val (fun x => { x with st := .ended, tags := [] }), .done)))

/-- FENCE: until no tag is outstanding (R214). -/
def execThrFence (e : Fin 136) (t : Fin 8) (s : State) (m : EngMem := .clean) : Res :=
  .next (s.issue e.val t.val m (isFn 0x25 2) (fun s w =>
    if fld w 8 18 ≠ 0 then (s, .fault 1 w.toNat)
    else if (s.thr e.val t.val).outstanding.isEmpty then (s, .next) else (s, .block .blockedMem 0 .all)))

/-- A thread control function that writes dst after `n` result cycles; its a and b fields are 0 (Table 9-12). -/
def State.control (s : State) (e t : Nat) (m : EngMem) (fn n : Nat) (f : State → State × DWord) : State :=
  s.issue e t m (isFn 0x25 fn) (fun s w =>
    if fld w 8 12 ≠ 0 then (s, .fault 1 w.toNat)
    else
      let (s, v) := f s
      (s.setRegIn e t (iDst w) n v, .next))

/-- TSTAT. -/
def execThrTstat (e : Fin 136) (t : Fin 8) (s : State) (m : EngMem := .clean) : Res :=
  .next (s.control e.val t.val m 3 1 (fun s => (s, (s.thr e.val t.val).ts)))

/-- TIME. -/
def execThrTime (e : Fin 136) (t : Fin 8) (s : State) (m : EngMem := .clean) : Res :=
  .next (s.control e.val t.val m 4 4 (fun s => (s, s.now)))

/-- SELF: an engine that no bundle placed has no logical number, and a free value stands for it. -/
def execThrSelf (e : Fin 136) (t : Fin 8) (s : State) (m : EngMem := .clean) : Res :=
  .next (s.control e.val t.val m 5 1 (fun s =>
    let l := s.eng.logical.findIdx (fun x => x == e.val)
    let known := decide (l < s.eng.logical.length)
    (if known then s else s.drew,
      BitVec.ofNat 64 (at' e.val 16 + at' (if known then l % 256 else fld s.fresh 0 8) 8 + t.val))))

end Sys2Proof.Machine
end

