-- ==== Sys2Proof/Machine/Eng.lean ====
section
/-!
DEFINITION. Machine/Eng.lean: the Junction, stall detection, and the loading and running of engines (R185 to R198).
-/
namespace Sys2Proof.Machine
open Sys2Proof

/-- Whether the Junction works. -/
def State.jctRuns (s : State) : Bool := !s.blockHeld 11 && bit s.clk.running 4

/-- Whether a message the Junction holds can be handed over: to the firmware, to be discarded, or into room. -/
def State.jctCan (s : State) (j : JMsg) : Bool :=
  j.toEng == 255 || !s.bindValid j.toEng j.toCh || decide ((s.chan j.toEng j.toCh).level + j.msg.words.length ≤ 16)

/-- A message reaches a channel, or is discarded where it is not bound (R186). -/
def State.jctPut (s : State) (e c : Nat) (m : Msg) : State :=
  if !s.bindValid e c then
    let s := s.bump R.JCT_UNBOUND_CNT
    match m.pkt with
    | some p => s.dropEarly p (R.ENG_PKT_DROP_CNT e 10) 10 10
    | none => s
  else s.intoChan e c m

/-- The first element that satisfies `p`, with the others. -/
def pullFirst {α : Type} (p : α → Bool) : List α → Option (α × List α)
  | [] => none
  | x :: r => if p x then some (x, r) else (pullFirst p r).map (fun y => (y.1, x :: y.2))

/-- JUNCTION_DELIVER: the oldest message that can be handed over is; its writer can go on (R183, R185). -/
def execJunctionDeliver (s : State) : Res :=
  if !s.jctRuns then .next s else
  match pullFirst (fun j => s.jctCan j) s.eng.jct with
  | none => .next s
  | some (j, rest) =>
    let s := { s with eng := { s.eng with jct := rest } }.bump R.JCT_MSG_CNT
    let s := if j.toEng = 255 then { s with eng := { s.eng with fwInbox := s.eng.fwInbox ++ [j.msg.words] } }
      else s.jctPut j.toEng j.toCh j.msg
    .next (s.wakeSender j.fromEng j.fromThr)

/-- A packet message (Table 8-5). -/
def packetMsg (p : Pkt) (cls source : Nat) : Msg :=
  ⟨BitVec.ofNat 64 (at' (p.handle % 2 ^ 32) 32 + at' cls 26 + at' source 23) ::
    (List.range 8).map (fun k => BitVec.ofNat 64 (fld p.sp (64 * k) 64)), 9, some p⟩

/-- Engine and channel of a JCT_MEMBER entry, where it names a channel of scope CLASS (R188). -/
def State.member (s : State) (m : Nat) : Option (Nat × Nat) :=
  let v := s.rd (R.JCT_MEMBER m)
  let e := fld v 8 8
  let c := fld v 0 5
  if bit v 31 ∧ e < 136 ∧ s.bindScope e c = 2 then some (e, c) else none

/-- Whether a member has room: 9 free words, and a reader that holds fewer than 16 packets (R188). -/
def State.memberRoom (s : State) (e c : Nat) : Bool :=
  decide (s.chanLoad e c + 9 ≤ 16) && !(s.thr e (s.bindReader e c)).freeSlots.isEmpty

/-- Whether turn-by-turn dispatch passes over a member's reader. -/
def State.memberDead (s : State) (e c : Nat) : Bool := match (s.thr e (s.bindReader e c)).st with
  | .retired | .ended | .unloaded => true
  | _ => false

/-- The member that takes the next packet of a class: by turns, or by lane hash (R188). -/
def State.chooseMember (s : State) (c : Nat) (p : Pkt) : Option Nat :=
  let v := s.rd (R.JCT_CLASS_CFG c)
  let open_ : Bool → Nat → Bool := fun skip m => match s.member m with
    | some (e, ch) => s.memberRoom e ch && !(skip && s.memberDead e ch)
    | none => false
  if bit v 62 then
    let m := fld v 0 10 + fld v 10 11 * spGet p.sp SP.LANE_HASH / 65536
    if m < 1024 ∧ open_ false m = true then some m else none
  else
    let ms := s.members c
    let turn := mapGet (fun _ => 0) s.eng.classTurn c
    (ms.filter (fun m => decide (turn ≤ m)) ++ ms.filter (fun m => decide (m < turn))).find? (open_ true)

/-- CLASS_DISPATCH: the oldest packet of class `c` goes to a member (R188). -/
def execClassDispatch (c : Fin 64) (s : State) : Res :=
  let c := c.val
  if !s.jctRuns then .next s else
  match s.classQueue c with
  | [] => .next s
  | (p, source) :: rest =>
    match s.chooseMember c p with
    | none => .next s
    | some m =>
      match s.member m with
      | none => .next s
      | some (e, ch) =>
        let s := { s.setClassQueue c rest with eng := { (s.setClassQueue c rest).eng with
          classTurn := mapSet (fun _ => 0) s.eng.classTurn c (m + 1) } }
        .next (((s.bump (R.JCT_CLASS_PKT_CNT c)).bump R.JCT_MSG_CNT).jctPut e ch (packetMsg p c source))

/-- CHANNEL_REBIND: a change of binding that waited for the old reader takes effect, the message it is in the middle of moving
too (R192). -/
def execChannelRebind (e : Fin 136) (c : Fin 32) (s : State) : Res :=
  match (s.chan e.val c.val).rebind with
  | none => .next s
  | some v => .next (s.rebind e.val c.val v)

/-- The live threads of an engine (R181). -/
def State.liveThreads (s : State) (e : Nat) : List Nat := (List.range 8).filter (fun t => (s.thr e t).st.live)

/-- ENG_STALL_SNAP of a thread at a stall (Table 8-16). -/
def State.stallSnap (s : State) (e t : Nat) : DWord :=
  let th := s.thr e t
  if !th.st.live then 0 else
  BitVec.ofNat 64 (at' 1 63 + at' th.blockedCh 58 + at' th.st.code.toNat 55 + at' th.pc.toNat 41 +
    min (2 ^ 32 - 1) (max 4096 (s.blockedCycles e t)))

/-- Whether every live thread waits on a LOCAL channel (R194). -/
def State.stalled (s : State) (e : Nat) : Bool :=
  !(s.liveThreads e).isEmpty && (s.liveThreads e).all (fun t =>
    (s.thr e t).st == .blockedRead && s.bindScope e (s.thr e t).blockedCh == 0)

/-- ENG_STALL: all live threads have waited so for 4,096 cycles (R194). -/
def execEngStall (e : Fin 136) (s : State) : Res :=
  let e := e.val
  if !mapGet (fun _ => true) s.eng.armed e || !s.stalled e then .next s else
  let s := s.each (List.range 8) (fun s t => s.wr (R.ENG_STALL_SNAP e t) (s.stallSnap e t))
  let s := ({ s with eng := { s.eng with armed := mapSet (fun _ => true) s.eng.armed e false } }.bump (R.ENG_STALL_CNT e)).wr
    (R.ENG_STALL_TIME e) s.now
  let held := ((List.range 8).map (fun t => (s.thr e t).held.length)).sum
  .next (s.raise (0x400 + e) noFunc (((s.liveThreads e).map (fun t => at' 1 t)).sum) held)

/-- A thread starts at its entry with p0 to p31 at 0 (Table 8-3). -/
def State.startThread (s : State) (e t : Nat) : State :=
  let base := (e * 8 + t) * 32
  { s with eng := { s.eng with preg := mapClear s.eng.preg base (base + 32) } }.updThr e t (fun x => { x with
    st := .ready, pc := BitVec.ofNat 14 (s.rdf (R.ENG_THR_ENTRY e t) 0 14), ts := 0, started := true })

/-- ENG_RUN of a thread's engine set to 1: it starts, or resumes where it stopped. -/
def State.runThread (s : State) (e t : Nat) : State :=
  let th := s.thr e t
  if th.st ≠ .stopped then s
  else if th.started then s.setThr e t { th with st := .ready }
  else s.startThread e t

/-- ENG_RUN set to 0: a live thread stops; a blocked instruction will be retried. -/
def State.stopThread (s : State) (e t : Nat) : State :=
  if !(s.thr e t).st.live then s else (s.wake e t).updThr e t (fun x => { x with st := .stopped })

/-- The ENG_RUN bit of an engine; a bit of an engine that is not in service has no effect (R198). -/
def State.setRun (s : State) (e : Nat) (b : Bool) : State :=
  if 136 ≤ e ∨ s.role e ≠ 0 ∨ s.engRun e = b then s else
  let a := R.JCT_ENG_RUN (e / 32)
  let s := s.wr a (setBit (s.rd a) (e % 32) b)
  s.each (List.range 8) (fun s t => if b then s.runThread e t else s.stopThread e t)

/-- JCT_ENG_RUN[m] written. -/
def State.writeRun (s : State) (m : Nat) (v : Word) : State :=
  s.each (List.range 32) (fun s k => s.setRun (32 * m + k) (bit v k))

/-- ENG_RUN (code 0x59): a range of logical engines. -/
def execEngRun (ch : BitVec 13) (seq : BitVec 4) (s : State) : Res :=
  .next (s.gcs ch seq 0x59 (fun s c =>
    let first := fld c.arg 0 8
    let count := fld c.arg 8 8
    if fld c.arg 17 31 ≠ 0 ∨ s.eng.logical.length < first + count then (s, .badArg)
    else (s.each ((s.eng.logical.drop first).take count) (fun s e => s.setRun e (bit c.arg 16)), .ok 0)))

/-- THREAD_RESTART (code 0x5A): the thread is retired, dropping its packets, and starts again at its entry (R195, Table
8-3). -/
def execThreadRestart (ch : BitVec 13) (seq : BitVec 4) (s : State) : Res :=
  .next (s.gcs ch seq 0x5A (fun s c =>
    let t := fld c.arg 8 3
    match s.eng.logical[fld c.arg 0 8]? with
    | none => (s, .badArg)
    | some e =>
      if fld c.arg 11 37 ≠ 0 ∨ (s.thr e t).st = .unloaded then (s, .badArg)
      else
        let (s, n) := (s.wake e t).retire e t
        let s := s.updThr e t (fun x => { x with st := .stopped, started := false })
        ((if s.engRun e then s.startThread e t else s), .ok n)))

/-- ENG_MAP (code 0x5B): 2 bytes for each of 136 logical engines. -/
def execEngMap (ch : BitVec 13) (seq : BitVec 4) (s : State) : Res :=
  .next (s.gcs ch seq 0x5B (fun s _ =>
    (s, .out ((List.range 136).flatMap (fun l => leBytes 2 (s.eng.logical.getD l 0xFFFF))))))

/-- CLASS_CFG (code 0x5C): the class, then the members it names from BASE on; members beyond 1,023 are not used. -/
def execClassCfg (ch : BitVec 13) (seq : BitVec 4) (s : State) : Res :=
  .next (s.gcs ch seq 0x5C (fun s c =>
    let a := c.args
    let v := BitVec.ofNat 64 (leAt a 8 8)
    let n := fld v 10 11
    let ms := (List.range n).map (fun k => BitVec.ofNat 64 (leAt a (16 + 4 * k) 4))
    if c.version = 1 ∧ 60 < n then (s, .no 0x1084)
    else if 63 < leAt a 0 1 ∨ leAt a 1 7 ≠ 0 ∨ v &&& 0x3FFF8000FFE00000 ≠ 0 ∨ 1024 < n ∨ a.length < 16 + 4 * n ∨
        ms.any (fun m => m &&& 0x7FFF00E0 != 0) then (s, .badArg)
    else
      let s := s.wr (R.JCT_CLASS_CFG (leAt a 0 1)) v
      (s.each (List.range n) (fun s k =>
        if fld v 0 10 + k < 1024 then s.wr (R.JCT_MEMBER (fld v 0 10 + k)) (ms.getD k 0) else s), .ok 0)))

/-- The counts of a bundle header (Table 8-8) and where its records begin. -/
structure BundleAt where
  engines : Nat
  programs : Nat
  bindings : Nat
  classes : Nat
  length : Nat
  deriving DecidableEq, Repr

def bundleAt (b : Bytes) : BundleAt := ⟨leAt b 6 2, leAt b 8 2, leAt b 10 2, leAt b 12 2, leAt b 16 4⟩

def BundleAt.placeOff (x : BundleAt) : Nat := 64 + 48 * x.programs
def BundleAt.bindOff (x : BundleAt) : Nat := x.placeOff + 2 * x.engines
def BundleAt.classOff (x : BundleAt) : Nat := x.bindOff + 4 * x.bindings
def BundleAt.endOff (x : BundleAt) : Nat := x.classOff + 8 * x.classes

/-- Whether a program record is in range and its reserved fields are 0 (Table 8-9). -/
def programOk (len : Nat) (r : Bytes) : Bool :=
  decide (leAt r 0 4 + 4 * leAt r 4 2 ≤ len) && decide (1 ≤ leAt r 4 2) && decide (leAt r 4 2 ≤ 16384) &&
  decide (leAt r 8 4 + leAt r 12 4 ≤ len) && decide (leAt r 12 4 ≤ 262144) && leAt r 6 2 == 0 && leAt r 40 8 == 0 &&
  (List.range 8).all (fun t => leAt r (24 + 2 * t) 2 / 16384 % 2 == 0)

/-- Whether a bundle is well formed (R197). -/
def bundleOk (b : Bytes) : Bool :=
  let x := bundleAt b
  decide (64 ≤ b.length) && leAt b 0 4 == 0x564C5242 && leAt b 4 2 == 1 &&
  decide (1 ≤ x.engines) && decide (x.engines ≤ 136) && decide (1 ≤ x.programs) && decide (x.programs ≤ 64) &&
  decide (x.bindings ≤ 4352) && decide (x.classes ≤ 64) && leAt b 14 2 == 0 && leAt b 32 32 == 0 &&
  decide (x.endOff ≤ x.length) && decide (x.length ≤ b.length) &&
  (crc32c (slice b 24 (x.length - 24))).toNat == leAt b 20 4 &&
  (List.range x.programs).all (fun k => programOk x.length (slice b (64 + 48 * k) 48)) &&
  (List.range x.engines).all (fun k => decide (leAt b (x.placeOff + 2 * k) 2 < x.programs)) &&
  (List.range x.bindings).all (fun k =>
    let o := x.bindOff + 4 * k
    decide (leAt b o 1 < x.engines) && decide (leAt b (o + 1) 1 < 32) && decide (leAt b (o + 2) 1 < 32) && leAt b (o + 3) 1 == 0) &&
  (List.range x.classes).all (fun k =>
    let o := x.classOff + 8 * k
    decide (leAt b o 1 < 64) && decide (leAt b (o + 1) 1 < 2) && decide (leAt b (o + 2) 2 < 32768) &&
    decide (1 ≤ leAt b (o + 6) 2) && decide (leAt b (o + 6) 2 ≤ 1024) && decide (leAt b (o + 4) 2 + leAt b (o + 6) 2 ≤ x.bindings))

/-- The engines in service, rising. -/
def State.inService (s : State) : List Nat := (List.range 136).filter (fun e => s.role e == 0)

/-- Whether an engine is idle (R197): stopped, no packet held, no committed word, nothing in its orphan queue. -/
def State.engIdle (s : State) (e : Nat) : Bool :=
  !s.engRun e && (List.range 8).all (fun t => (s.thr e t).held.isEmpty) &&
  (List.range 32).all (fun c => (s.chan e c).msgs.isEmpty) && (s.orphans e).isEmpty

/-- A program loaded onto an engine: memories, slot table, entries, shared registers at 0, threads STOPPED or UNLOADED, no
channel bound (Table 8-3, Table 8-9). -/
def State.loadEngine (s : State) (e : Nat) (b r : Bytes) : State :=
  let words := leAt r 4 2
  let img := (List.range words).map (fun k => BitVec.ofNat 32 (leAt b (leAt r 0 4 + 4 * k) 4))
  let ib := e * 16384
  let db := e * 262144
  let s := { s with eng := { s.eng with
    imem := mapSetList (fun _ => 0) s.eng.imem ib img
    badImem := s.eng.badImem.filter (fun k => decide (k < ib) || decide (ib + words ≤ k))
    dmem := mapSetList (fun _ => 0) (mapClear s.eng.dmem db (db + 262144)) db (slice b (leAt r 8 4) (leAt r 12 4))
    badDmem := s.eng.badDmem.filter (fun k => decide (k / 32768 ≠ e))
    sreg := mapClear s.eng.sreg (e * 32) (e * 32 + 32)
    late := mapSet (fun _ => []) s.eng.late e [] } }
  let s := s.wr (R.ENG_SLOT_TABLE e) (BitVec.ofNat 64 (leAt r 16 8))
  let s := s.each (List.range 8) (fun s t =>
    let v := leAt r (24 + 2 * t) 2
    (s.wr (R.ENG_THR_ENTRY e t) (BitVec.ofNat 64 v)).setThr e t
      { Thread.reset with st := if 32768 ≤ v then .stopped else .unloaded })
  s.each (List.range 32) (fun s c => (s.wr (R.ENG_CH_BIND e c) 0).setChan e c .empty)

/-- The classes of a bundle, their members laid out in JCT_MEMBER one after another from index `base`. -/
def State.loadClasses (s : State) (b : Bytes) (x : BundleAt) (phys : List Nat) : Nat → Nat → Nat → State
  | 0, _, _ => s
  | n + 1, k, base =>
    let o := x.classOff + 8 * k
    let count := leAt b (o + 6) 2
    let first := leAt b (o + 4) 2
    let cfg := at' 1 63 + at' (leAt b (o + 1) 1) 62 + at' (leAt b (o + 2) 2) 32 + at' count 10 + base % 1024
    let s := s.wr (R.JCT_CLASS_CFG (leAt b o 1)) (BitVec.ofNat 64 cfg)
    let s := s.each (List.range count) (fun s i =>
      let r := x.bindOff + 4 * (first + i)
      if base + i < 1024 then
        s.wr (R.JCT_MEMBER (base + i))
          (BitVec.ofNat 64 (at' 1 31 + at' (phys.getD (leAt b r 1) 0) 8 + leAt b (r + 1) 1))
      else s)
    s.loadClasses b x phys n (k + 1) (base + count)

/-- The bundle of a function's BUNDLE_LOAD is read from its host memory; the control cores' own is at hand. -/
def State.bundleRead (s : State) (ch : Nat) (a : Bytes) (e : ReadEnd) : State :=
  if isFuncCh ch then s.readNow ch none (BitVec.ofNat 64 (leAt a 0 8)) (leAt a 8 4) e else s

/-- BUNDLE_LOAD on open command `c`, with the bundle as it was read: refused whole, or written whole, measured and started. The
engines it places are started by the write of ENG_RUN at the end of the load (R198; DEDUCED, log entry 98: the spec gives the
write, not its value). -/
def State.loadBundle (ch : BitVec 13) (e : ReadEnd) (data : Bytes) (s : State) (c : OpenCmd) : State × Reply :=
    let a := c.args
    let b := padTo (leAt a 8 4) data
    let x := bundleAt b
    match (if isFuncCh ch.toNat then s.hostStop ch.toNat else none) with
    | some st => (s, .no st)
    | none =>
      let s := s.bundleRead ch.toNat a e
      let phys := s.inService.take x.engines
      match (if isFuncCh ch.toNat then readStatus e else none) with
      | some st => (s, .no st)
      | none =>
        if !bundleOk b then (s, .no 0x1040)
        else if s.inService.length < x.engines then (s, .no 0x3041)
        else if !phys.all (fun e => s.engIdle e) then (s, .no 0x3040)
        else
          let s := s.each (List.range x.engines) (fun s j =>
            s.loadEngine (phys.getD j 0) b (slice b (64 + 48 * leAt b (x.placeOff + 2 * j) 2) 48))
          let s := s.each (List.range x.bindings) (fun s k =>
            let o := x.bindOff + 4 * k
            s.wr (R.ENG_CH_BIND (phys.getD (leAt b o 1) 0) (leAt b (o + 1) 1))
              (BitVec.ofNat 64 (at' 1 31 + at' (leAt b (o + 2) 1 % 4) 29 + at' (leAt b (o + 2) 1 / 4) 26)))
          let s := s.loadClasses b x phys x.classes 0 0
          let s := { s with eng := { s.eng with logical := phys } }
          let s := s.extend 8 none none (Config.sha384 (b.take x.length))
          let s := s.raise 0x514 noFunc x.engines 0
          (s.each phys (fun s e => s.setRun e true), .ok x.engines)

/-- BUNDLE_LOAD (code 0x58, R197): a function's bundle is read with the command's own requests, which end as `e` says; the load
waits where no tag is free. -/
def execBundleLoad (ch : BitVec 13) (seq : BitVec 4) (e : ReadEnd) (data : Bytes) (s : State) : Res :=
  let f := ch.toNat
  if isFuncCh f && (s.hostStop f).isNone && !s.canRead f then .next s else
  let t := s.gcs ch seq 0x58 (State.loadBundle ch e data)
  .next (if isFuncCh f && s.canRead f && (t.opened f).length != (s.opened f).length then t.readAfter f e else t)

end Sys2Proof.Machine
end

