-- ==== Sys2Proof/Machine/Evt.lean ====
section
/-!
DEFINITION. Machine/Evt.lean: the event block and the crossings (R32 to R36, R235, R236, R413 to R415).
-/
namespace Sys2Proof.Machine
open Sys2Proof

/-- EVENT_CROSSING_DELIVER: the destination delivers the requested event and toggles the acknowledge (R415 steps 3 and 5); while
PER_CLK is stopped the request is held (Table 18-4). -/
def execEventCrossingDeliver (n : Fin 2048) (s : State) : Res :=
  let x := s.xing n.val
  if x.phase ≠ .requested ∨ !bit s.clk.running 5 then .next s else
  .next ((s.setXing n.val { x with phase := .acked }).occurrence n.val x.detail x.time)

/-- EVENT_CROSSING_ACKNOWLEDGE: the source sees the acknowledge; with the merge flag set it clears the flag and toggles the
request again (R415 step 4). -/
def execEventCrossingAcknowledge (n : Fin 2048) (s : State) : Res :=
  let x := s.xing n.val
  if x.phase ≠ .acked then .next s else
  .next (s.setXing n.val (if x.merge then { x with phase := .requested, merge := false } else EvXing.idle))

/-- COUNTER_CROSSING_DELIVER: the counter crossing of EVT_COUNT[n] sends its pending delta; while PER_CLK is stopped the delta
accumulates (R414, Table 18-4). -/
def execCounterCrossingDeliver (n : Fin 2048) (s : State) : Res :=
  .next (if bit s.clk.running 5 then s.deliverDelta (R.EVT_COUNT n.val) else s)

/-- The clock a block runs from (Table 18-1), as its bit in CLKRST_CLK_STATUS.RUNNING; none for the blocks on clocks of
their own. -/
def blockClock (b : Nat) : Option Nat :=
  if b = 10 then some 1
  else if b = 5 ∨ b = 6 ∨ b = 7 ∨ b = 8 ∨ b = 14 ∨ 24 ≤ b then some 2
  else if b = 9 ∨ b = 11 ∨ b = 15 then some 4
  else if b = 16 ∨ b = 18 ∨ b = 19 then none
  else some 5

/-- Whether the clock of block `b` runs. -/
def State.clocked (s : State) (b : Nat) : Bool := match blockClock b with
  | some k => bit s.clk.running k
  | none => true

def crossing (src dst : Nat) : Nat := src * 32 + dst

def State.words (s : State) (x : Nat) : List DWord := mapGet (fun _ => ([] : List DWord)) s.evt.words x

/-- The words a word crossing holds and those its waiting source still holds behind them: eight in the crossing (Table
18-4), the others at the source, each of them a wait (R413). -/
def State.offer (s : State) (x : Nat) (ws : List DWord) : State :=
  let all := s.words x ++ ws
  { s with evt := { s.evt with words := mapSet (fun _ => []) s.evt.words x all } }.bumpN R.CLKRST_XING_HOLD_CNT
    (all.length - max 8 (s.words x).length)

/-- WORD_CROSSING_DELIVER: the source of a word crossing offers words; with the destination's clock running every held word
is delivered in order, with it stopped they wait, and into a block in reset they are discarded and counted (R413, R416). -/
def execWordCrossingDeliver (src dst : Fin 29) (ws : List DWord) (s : State) : Res :=
  let x := crossing src.val dst.val
  let held := s.words x
  if s.blockHeld dst.val then
    .next ({ s with evt := { s.evt with words := mapSet (fun _ => []) s.evt.words x [] } }.bumpN
      (R.CLKRST_FLUSH_CNT dst.val) (held.length + ws.length))
  else if s.clocked dst.val then
    .next { s with evt := { s.evt with
      words := mapSet (fun _ => []) s.evt.words x []
      arrived := mapSet (fun _ => []) s.evt.arrived x
        (mapGet (fun _ => ([] : List DWord)) s.evt.arrived x ++ held ++ ws) } }
  else .next (s.offer x ws)

/-- MSIX_UNMASK: the host writes an entry of the MSI-X table, its mask bit as written, or clears Function Mask; a held
message that nothing holds any more is sent (R236). -/
def execMsixUnmask (f : Fin 4104) (v : Option (Fin 2048)) (addr : DWord) (data : Word) (masked : Bool) (s : State) : Res :=
  .next (s.barWrite f.val (fun s =>
    match v with
    | none => (s.updFn f.val (fun h => { h with msixFnMask := false })).releaseAll f.val
    | some v =>
      if s.vectors f.val ≤ v.val then s else
      (s.updFn f.val (fun h => { h with
        msixTable := mapSet (fun _ => MsixEntry.reset) h.msixTable v.val ⟨addr, data, masked⟩ })).release f.val v.val))

/-- MSI_UNMASK: the host clears a mask bit of a PF's MSI capability; the message held behind it is sent (R235). -/
def execMsiUnmask (f : Fin 4104) (v : Fin 32) (s : State) : Res :=
  if 8 ≤ f.val ∨ !s.exists_ f.val then .next s else
  .next ((s.updFn f.val (fun h => { h with msiMask := setBit h.msiMask v.val false })).release f.val v.val)

/-- FW_EVENT_TAKE: the firmware takes an occurrence and its source's pending bit clears (R36). -/
def execFwEventTake (s : State) : Res :=
  if s.kite.fw ≠ .running ∧ s.kite.fw ≠ .maintenance then .next s else
  match s.evt.fwQueue with
  | [] => .next s
  | n :: rest => .next ({ s with evt := { s.evt with fwQueue := rest } }.setPend n false)

/-- TETHER_EVENT_TAKE: the Tether takes an occurrence while it monitors; the pending bit clears where the occurrence came by
the route and not by the fixed wiring alone (R33, R36). -/
def execTetherEventTake (s : State) : Res :=
  if s.rdf R.TETHER_STATE 29 3 ≠ 2 then .next s else
  match s.evt.tetherQueue with
  | [] => .next s
  | n :: rest =>
    let routed := mapGet (fun _ => false) s.evt.routed n
    let s := { s with evt := { s.evt with tetherQueue := rest, routed := mapDel s.evt.routed n } }
    .next (if routed then s.setPend n false else s)

/-- A write of EVT_ROUTE[n]: ENABLE 0 withdraws a pending occurrence and any message held for it (R36). -/
def State.setRoute (s : State) (n : Nat) (v : Nat) : State :=
  let s := s.wr (R.EVT_ROUTE n) (BitVec.ofNat 64 (v &&& 0xF0FFFFFF))
  if v / 2147483648 % 2 = 0 then s.withdraw n else s

/-- EVT_ROUTE_SET (code 0x04). -/
def execEvtRouteSet (ch : BitVec 13) (seq : BitVec 4) (s : State) : Res :=
  .next (s.gcs ch seq 0x04 (fun s c =>
    if fld c.arg 43 5 ≠ 0 ∨ fld c.arg 24 4 ≠ 0 then (s, .badArg) else (s.setRoute (fld c.arg 32 11) (fld c.arg 0 32), .ok 0)))

end Sys2Proof.Machine
end

