-- ==== Sys2Proof/Machine/Fetch.lean ====
section
/-!
DEFINITION. Machine/Fetch.lean: the commands that read host memory as they run: descriptor fetches (R297, R301, R322), the
fetch of queue pair contexts (R352), and of the storage commands, command fetches and those with a data pointer (R228, R230, R361 to R367).
-/
namespace Sys2Proof.Machine
open Sys2Proof

/-- The descriptors of `descs` that one read brings: no more than the turn allows and the ring holds, up to its last slot. -/
def Ring.fetchable (k : Ring) (left : Nat) (descs : List (BitVec 512)) : List (BitVec 512) :=
  descs.take (min left (min k.fill (k.size - k.c.toNat % k.size)))

/-- DESCRIPTOR_FETCH: `descs` is what the slots from the device's C on hold; one read brings them, ending as `e` says, and one write
of C covers those taken (R297, R301). It is the ring's turn (R322), and a tag is free; the turn passes where the ring takes fewer than
were read. A read that fails fetches nothing: the slots are read again (DESIGN CHOICE, log entry 95). -/
def execDescriptorFetch (ring : BitVec 20) (descs : List (BitVec 512)) (s : State) (e : ReadEnd := .cpl .ok) : Res :=
  let r := ring.toNat
  let k := s.ring r
  match s.fetchTurn with
  | none => .next s
  | some (at_, left) =>
    let got := k.fetchable left descs
    if at_ ≠ r ∨ got = [] ∨ !s.canRead k.func then .next s else
    let s := (s.useCtx r).1.readNow k.func (s.ringPasid k) (BitVec.ofNat 64 (ctxBase k.ctx + k.c.toNat % k.size * 64))
      (64 * got.length) e
    if (readStatus e).isSome then .next (s.readAfter k.func e) else
    let (s, n) := State.fetchAll r got s
    let s := match s.qpOfSq r with
      | some (i, _) => s.beginDone i (s.opFuel i)
      | none => s
    let left := if n < got.length then 0 else left - n
    let s := { s with rings := { s.rings with drrAt := r, drrLeft := left } }
    .next ((s.if_ (decide (0 < n)) (fun s => s.writeC r)).ctxPump)

/-- CONTEXT_FETCH_COMPLETE: a completion of the read that fetches the context of a queue pair, or what follows once the last of them
has come (R352). Only the device writes that memory (R329), so what it holds is the context. -/
def execContextFetchComplete (qp : Fin 262144) (cpl : CplStatus) (mems : List (ReadEnd × Bytes)) (s : State) : Res :=
  let i := qp.val
  match s.tagOf (.context i) with
  | none => .next (s.contextHere i mems)
  | some t => .next (s.tlp t.link (fun s => ((s.cplTaken t cpl []).contextHere i mems).turnOffDone t.link))

/-- How many commands a submission queue gives in its turn: Arbitration Burst of the Arbitration feature; none: no limit (R361;
the encoding is PRESUMED from NVM Express). -/
def Ctrl.burst (c : Ctrl) : Option Nat :=
  let n := fld (mapGet (fun _ => 0) c.features 1) 0 3
  if n = 7 then none else some (2 ^ n)

/-- The submission queue of a controller whose turn it is to be fetched from, and how many commands it may yet give in it: round
robin over the queues that hold commands, the admin queue among them (R361). The order of the turns, by queue identifier, is DESIGN
CHOICE (log entry 103). -/
def State.sqTurn (s : State) (f : Nat) : Option (Nat × Option Nat) :=
  let c := s.ctrl f
  let work := (s.sce.sq.filter (fun e => e.1 / 2048 == f && e.2.live && e.2.head != e.2.tail)).map (fun e => e.1 % 2048)
  if c.sqAt ∈ work ∧ c.sqLeft ≠ some 0 then some (c.sqAt, c.sqLeft)
  else ((work.find? (fun q => decide (c.sqAt < q))).or work.head?).map (fun q => (q, c.burst))

/-- The head command of a submission queue is taken from it; the turn goes on while it has more. -/
def State.sqTake (s : State) (f q : Nat) (left : Option Nat) : State :=
  let k := s.nvSq f q
  let head := if k.size ≤ k.head + 1 then 0 else k.head + 1
  (s.setNvSq f q { k with head := head }).updCtrl f (fun c => { c with
    sqAt := q, sqLeft := if head = k.tail then some 0 else left.map (· - 1), slotWait := false })

/-- NVME_COMMAND_FETCH: `sqe` is what the head slot of submission queue `sq` holds, whose turn it is (R361). A command that finds no
slot waits, which is counted once. A command fetched in power state 2 brings the controller back to its last operational state. A
read that fails fetches nothing: the slot is read again (DESIGN CHOICE, log entry 95). -/
def execNvmeCommandFetch (f : Fin 4104) (sq : Fin 1025) (sqe : BitVec 512) (s : State) (e : ReadEnd := .cpl .ok) : Res :=
  let f := f.val
  let k := s.nvSq f sq.val
  let c := s.ctrl f
  match s.sqTurn f with
  | none => .next s
  | some (q, left) =>
    if q ≠ sq.val ∨ c.st ≠ .ready ∨ (s.inst f).st ≠ .active ∨ !s.canRead f then .next s
    else if 262144 ≤ s.sce.cmds.length then
      .next (if c.slotWait then s
        else ((s.bump R.SCE_SLOT_WAIT_CNT).raise 0x688 f s.sce.cmds.length 0).updCtrl f (fun c => { c with slotWait := true }))
    else
      let s := s.readNow f none (k.base + BitVec.ofNat 64 (64 * k.head)) 64 e
      if (readStatus e).isSome then .next (s.readAfter f e) else
      let slot := s.newSlot
      let s := s.drew.sqTake f sq.val left
      let s := s.if_ c.psEntry.isSome (fun s => s.bump R.SCE_PS_HOLD_CNT)
      let s := s.if_ (c.ps == 2) (fun s => s.updCtrl f (fun c => { c with ps := c.lastOper }))
      let x : NCmd := ⟨slot, f, sq.val, sqe, [], [], [], none, false⟩
      let s := { s with sce := { s.sce with cmds := s.sce.cmds ++ [x] } }
      .next (if !nvSupported (sq.val != 0) (fld sqe 0 8) ∨ fld sqe 8 2 ≠ 0 then s.nvFail slot 0x001 else s)

/-- The entries that a command's PRP lists or SGL segments hold are read where its data pointer says: from PRP entry 2 on, or from
its SGL segment; what a further list adds to the addresses the command does not give. -/
def State.nvLists (s : State) (c : NCmd) (ptrs : List (BitVec 128)) (e : ReadEnd) : State :=
  if ptrs.isEmpty then s
  else if fld c.sqe 14 2 = 0 then s.readNow c.func none (BitVec.ofNat 64 (fld c.sqe 256 64)) (8 * ptrs.length) e
  else s.readNow c.func none (BitVec.ofNat 64 (fld c.sqe 192 64)) (16 * ptrs.length) e

/-- A command finds the host ranges of its data pointer, its lists read, or fails: with the pointer's own status, or a Data
Transfer Error (PRESUMED from NVM Express) where the function can make no request or the read fails. It waits where no tag is
free. -/
def State.nvRanges (s : State) (c : NCmd) (len : Nat) (ptrs : List (BitVec 128)) (e : ReadEnd)
    (g : State → List (Nat × Nat) → State) : State :=
  if (s.hostStop c.func).isSome then s.nvFail c.slot 0x004
  else if !s.canRead c.func && !ptrs.isEmpty then s
  else match dptrRanges c.sqe (s.ctrl c.func).page len ptrs with
  | .error st => s.nvFail c.slot st
  | .ok r =>
    let s := s.nvLists c ptrs e
    if !ptrs.isEmpty && (readStatus e).isSome then (s.nvFail c.slot 0x004).readAfter c.func e else g s r

/-- A command's output goes where its data pointer says, and the command completes. -/
def State.nvOut (s : State) (c : NCmd) (ptrs : List (BitVec 128)) (e : ReadEnd) (out : Bytes) : State :=
  s.nvRanges c out.length ptrs e (fun s r => match s.scatter c.func r out with
    | (s, true) => s.nvEnd c.slot 0 0
    | (s, false) => s.nvFail c.slot 0x004)

/-- GET_LOG_PAGE. -/
def execGetLogPage (slot : Fin 262144) (ptrs : List (BitVec 128)) (s : State) (e : ReadEnd := .cpl .ok) : Res :=
  .next (s.nvRun slot.val false 0x02 (fun s c =>
    match s.logPage c.func (c.dw 10 % 256) with
    | none => s.nvFail c.slot 0x109
    | some (b, s) =>
      let n := 4 * (c.dw 10 / 65536 + c.dw 11 % 65536 * 65536 + 1)
      s.nvOut c ptrs e (slice b (c.dw 12 + at' (c.dw 13) 32) n)))

/-- IDENTIFY. -/
def execIdentify (slot : Fin 262144) (ptrs : List (BitVec 128)) (s : State) (e : ReadEnd := .cpl .ok) : Res :=
  .next (s.nvRun slot.val false 0x06 (fun s c =>
    match c.dw 10 % 256 with
    | 0 => let (b, s) := s.identNs c.func c.nsid; s.nvOut c ptrs e b
    | 1 => let (b, s) := s.identCtrl c.func; s.nvOut c ptrs e b
    | 2 => s.nvOut c ptrs e (padTo 4096 (((s.nsids c.func).filter (fun n => decide (c.nsid < n))).map (fun n => leBytes 4 n)).flatten)
    | 3 => if (s.attached c.func c.nsid).isNone then s.nvFail c.slot 0x00B else
        let (b, s) := s.freeBytes 4096; s.nvOut c ptrs e b
    | _ => s.nvFail c.slot 0x002))

/-- Host ranges read in turn, the last of them ending as `e` says. -/
def State.readRanges (s : State) (f : Nat) (e : ReadEnd) : List (Nat × Nat) → State
  | [] => s
  | [(a, l)] => s.readNow f none (BitVec.ofNat 64 a) l e
  | (a, l) :: r => (s.readNow f none (BitVec.ofNat 64 a) l (.cpl .ok)).readRanges f e r

/-- A command's host data is read: it goes on with it, or fails as the read did (a Data Transfer Error, PRESUMED from NVM
Express); it waits where no tag is free. -/
def State.nvTake (s : State) (c : NCmd) (len : Nat) (ptrs : List (BitVec 128)) (e : ReadEnd) (data : Bytes)
    (g : State → NCmd → State) : State :=
  if (s.hostStop c.func).isNone && !s.canRead c.func then s else
  s.nvRanges c len ptrs (.cpl .ok) (fun s r =>
    let s := s.readRanges c.func e r
    if (readStatus e).isSome then (s.nvFail c.slot 0x004).readAfter c.func e
    else g s { c with data := padTo len data, ranges := r })

/-- NVME_WRITE: `data` is what host memory holds at its data pointer. -/
def execNvmeWrite (slot : Fin 262144) (ptrs : List (BitVec 128)) (e : ReadEnd) (data : Bytes) (s : State) : Res :=
  .next (s.nvRun slot.val true 0x01 (fun s c => s.nvPath c true (fun s n k =>
    let len := c.blocks * (s.conn k).blockBytes
    if 2097152 < len then s.nvFail c.slot 0x002
    else s.nvTake c len ptrs e data (fun s c => s.toBackend c n k c.blocks))))

/-- NVME_READ. -/
def execNvmeRead (slot : Fin 262144) (ptrs : List (BitVec 128)) (s : State) (e : ReadEnd := .cpl .ok) : Res :=
  .next (s.nvRun slot.val true 0x02 (fun s c => s.nvPath c false (fun s n k =>
    let len := c.blocks * (s.conn k).blockBytes
    if 2097152 < len then s.nvFail c.slot 0x002
    else s.nvRanges c len ptrs e (fun s r => s.toBackend { c with ranges := r } n k c.blocks))))

/-- DATASET_MANAGEMENT: the deallocate attribute only; `data` holds the ranges. -/
def execDatasetManagement (slot : Fin 262144) (ptrs : List (BitVec 128)) (e : ReadEnd) (data : Bytes) (s : State) : Res :=
  .next (s.nvRun slot.val true 0x09 (fun s c => s.nvPath c true (fun s n k =>
    if c.dw 11 % 8 ≠ 4 then s.nvFail c.slot 0x002
    else s.nvTake c (16 * (c.dw 10 % 256 + 1)) ptrs e data (fun s c => s.toBackend c n k 0))))

end Sys2Proof.Machine
end

