-- ==== Sys2Proof/Machine/HostCfg.lean ====
section
/-!
DEFINITION. Machine/HostCfg.lean: configuration requests, the function control page's interrupt register, unused BAR offsets,
and peer windows (R222 to R227, R234, R240 to R244, R397).
-/
namespace Sys2Proof.Machine
open Sys2Proof

/-- Whether Trailhead presents `f` for a push, with BAR0 only (R450). -/
def State.bar0Only (s : State) (f : Nat) : Bool :=
  (s.kite.fw == .recovery || s.kite.fw == .booting) && s.recoveryPf == some f

/-- Whether an extended capability of a function is among those of Table 10-2: AER, ARI, ATS, PASID and Device 3, whose register
has the 14-bit tag and L0p bits, of every function, and of a PF Device Serial Number, SR-IOV, DOE, IDE, L1 PM Substates, LTR, Data
Link Feature, Physical Layer 16.0, 32.0 and 64.0 GT/s, Lane Margining and Flit Logging. Capability IDs are those of the PCIe
Base Specification (PRESUMED). -/
def extCap (pf : Bool) (id : Nat) : Bool :=
  decide (id ∈ [0x01, 0x0E, 0x0F, 0x1B, 0x2F]) ||
    (pf && decide (id ∈ [0x03, 0x10, 0x18, 0x1E, 0x25, 0x26, 0x27, 0x2A, 0x2E, 0x30, 0x31, 0x32]))

/-- A configuration register as it reads: its value, and the bits of it that the spec or the register itself fixes; the other
bits are left to the PCIe Base Specification. Words are laid out as that specification lays them out (PRESUMED). -/
def State.cfgRead (s : State) (f : Nat) (r : CfgReg) : Nat × Nat :=
  let h := s.fn f
  let pf := decide (f < 8)
  let kept := (mapGet (fun _ => (0 : Word)) h.cfgRw (cfgKey r)).toNat
  let all := 0xFFFFFFFF
  match r with
  | .vendorDevice => if pf then (0x80161F8A, all) else (0x81160000, 0xFFFF0000)
  | .commandStatus =>
    (at' (b2n (s.memOn f)) 1 + at' (b2n h.bme) 2 + at' (b2n h.intxDisable) 10 + at' (b2n h.intxOut) 19, 0x00080406)
  | .revisionClass =>
    let i := s.inst ((s.fnPf f).getD f)
    let rev := (s.rd R.IDENT_STEP).toNat % 256
    if i.st = .absent then (rev, 0xFF)
    else (rev + at' (if i.persona = 1 then 0x010802 else 0x020000) 8, all)
  | .bar i =>
    if !pf || (s.bar0Only f && decide (2 ≤ i.val)) then (0, all)
    else match i.val with
      | 0 | 2 => (kept &&& 0xFE000000 ||| 4, all)
      | 4 => (kept &&& 0xFFFF0000 ||| 4, all)
      | _ => (kept, all)
  | .subsystem => (s.cfgField 6 2 + at' (s.cfgField 8 2) 16, all)
  | .interrupt => (kept % 256 + (if pf then 256 else 0), 0xFFFF)
  | .pmCsr =>
    (h.dstate.toNat + at' 1 3 + at' (b2n h.pmeEn) 8 + at' (b2n h.pmeStatus) 15, 0x810B)
  | .msiControl =>
    if pf then (at' (b2n h.msiEnable + at' 5 1 + at' (Nat.log2 h.msiCount) 4 + at' 1 7 + at' 1 8) 16, 0x01FF0000) else (0, 0)
  | .msiAddrLow => if pf then (kept &&& 0xFFFFFFFC, all) else (0, 0)
  | .msiAddrHigh => if pf then (kept, all) else (0, 0)
  | .msiData => if pf then (kept % 65536, 0xFFFF) else (0, 0)
  | .msiMask => if pf then (h.msiMask.toNat, all) else (0, 0)
  | .msiPending => if pf then (h.msiPend.toNat, all) else (0, 0)
  | .msixControl =>
    (at' (s.vectors f - 1) 16 + at' (b2n h.msixFnMask) 30 + at' (b2n h.msixEnable) 31,
      if (s.inst f).st = .absent then 0xC0000000 else 0xC7FF0000)
  | .msixTable => (if pf then 4 else 0x10000, all)
  | .msixPba => (if pf then 0x8004 else 0x18000, all)
  | .devCap => (2 + at' 1 5 + at' 1 28, 0x1000003F)
  | .devControl =>
    (at' (b2n h.relaxed) 4 + at' (Nat.log2 (h.maxPayload / 128)) 5 + (kept &&& 0x100) + at' (Nat.log2 (h.maxRead / 128)) 12 +
      at' (b2n (decide (0 < s.readsOut f))) 21, 0x002071F0)
  | .devCap2 => (15 + at' (b2n pf) 11 + at' 1 17, 0x000E3BFF)
  | .devControl2 => (h.cto.toNat + (kept &&& 0x700), 0x71F)
  | .devCap3 => (0xC, 0xC)
  | .linkCap => (6 + at' (s.lanes (s.fnLink f)) 4 + at' 2 10 + at' 4 15, 0x00038FFF)
  | .linkControl => (kept &&& 3, 3)
  | .pmCap => (1 + at' 1 30, 0xFE0000FF)
  | .aerControl => (0xA0 + (kept &&& 0x140), 0x1E0)
  | .ariCap => (0, 3)
  | .doeCap => if pf then (0, 1) else (0, 0)
  | .ideCap => if pf then (0x42 + at' 3 16, 0x01FFFFFF) else (0, 0)
  | .ideControl _ => if pf then (kept &&& 0xFF000001, 0xFF000001) else (0, 0)
  | .ideStatus i =>
    if pf then (if mapGet (fun _ => 0) s.hiu.ide (s.fnLink f * 4 + i.val) = 1 then 2 else 0, 0xF) else (0, 0)
  | .l1ssCap => if pf then (0x1F, 0x1F) else (0, 0)
  | .l1ssControl => if pf then (kept &&& 0xF, 0xF) else (0, 0)
  | .ltr => if pf then (kept, all) else (0, 0)
  | .capHeader id => if id.toNat ∈ [0x01, 0x10, 0x11] ∨ (pf ∧ id = 0x05) then (id.toNat, 0xFF) else (0, all)
  | .extCapHeader id => if extCap pf id.toNat then (id.toNat, 0xFFFF) else (0, all)
  | .aerUncorr => (h.aerUncorr.toNat, all)
  | .aerCorr => (h.aerCorr.toNat, all)
  | .aerHeader i => (fld h.aerHeader (32 * i.val) 32, all)
  | .serial high => if pf then (fld (s.rd R.IDENT_SERIAL) (cond high 32 0) 32, all) else (0, 0)
  | .sriovControl => if pf then (kept &&& 0x18 ||| b2n h.vfEnable, 0x19) else (0, 0)
  | .sriovTotal => if pf then (s.totalVfs f + at' (s.totalVfs f) 16, all) else (0, 0)
  | .sriovNumVfs => if pf then (h.numVfs, 0xFFFF) else (0, 0)
  | .sriovOffset =>
    let j := ((List.range f).filter (fun q => s.pfPresent q && s.pfLink q == s.pfLink f)).length
    if pf then (8 + 1023 * j + at' 1 16, all) else (0, 0)
  | .sriovDevice => if pf then (at' 0x8116 16, 0xFFFF0000) else (0, 0)
  | .sriovBar i =>
    if !pf then (0, 0)
    else match i.val with
      | 0 => (kept &&& 0xFFFE0000, 0xFFFFFFF0)
      | _ => (kept, 0)
  | .atsControl => (at' (b2n h.ats) 31, 0x8000001F)
  | .pasidControl => (at' 20 8 + at' (b2n h.pasid) 16, 0x00011F06)
  | .other _ => (0, 0)

/-- A value kept in configuration space. -/
def State.cfgKeep (s : State) (f : Nat) (r : CfgReg) (v : Nat) : State :=
  s.updFn f (fun h => { h with cfgRw := mapSet (fun _ => 0) h.cfgRw (cfgKey r) (BitVec.ofNat 32 v) })

/-- A configuration register written (Table 10-2): the fields this device acts on. -/
def State.cfgWrite (s : State) (f : Nat) (r : CfgReg) (v : Word) : State :=
  let pf := decide (f < 8)
  match r with
  | .commandStatus =>
    let s := s.updIntx f (fun h => { h with mse := pf && bit v 1, intxDisable := bit v 10 })
    if bit v 2 then s.bmeSet f else s.bmeClear f
  | .bar i => if pf && !(s.bar0Only f && decide (2 ≤ i.val)) then s.cfgKeep f r v.toNat else s
  | .sriovBar _ => if pf then s.cfgKeep f r v.toNat else s
  | .interrupt => s.cfgKeep f r (v.toNat % 256)
  | .pmCsr =>
    let s := s.updFn f (fun h => { h with pmeEn := bit v 8, pmeStatus := h.pmeStatus && !bit v 15 })
    match fld v 0 2 with
    | 0 => s.d0Return f
    | 3 => s.d3Enter f
    | _ => s
  | .msiControl =>
    if pf then (s.updIntx f (fun h => { h with msiEnable := bit v 16, msiCount := 2 ^ min 5 (fld v 20 3) })).releaseAll f
    else s
  | .msiAddrLow => if pf then s.cfgKeep f r (v.toNat - v.toNat % 4) else s
  | .msiAddrHigh => if pf then s.cfgKeep f r v.toNat else s
  | .msiData => if pf then s.cfgKeep f r (v.toNat % 65536) else s
  | .msiMask => if pf then (s.updFn f (fun h => { h with msiMask := v })).releaseAll f else s
  | .msixControl => (s.updIntx f (fun h => { h with msixEnable := bit v 31, msixFnMask := bit v 30 })).releaseAll f
  | .devControl =>
    let s := s.updFn f (fun h => { h with
      relaxed := bit v 4, maxPayload := 128 * 2 ^ min 2 (fld v 5 3), maxRead := 128 * 2 ^ min 5 (fld v 12 3) })
    let s := s.cfgKeep f r (v.toNat &&& 0x100)
    if bit v 15 then s.flrStart f else s
  | .devControl2 => (s.updFn f (fun h => { h with cto := BitVec.ofNat 4 (fld v 0 4) })).cfgKeep f r (v.toNat &&& 0x700)
  | .linkControl => s.cfgKeep f r (v.toNat &&& 3)
  | .aerControl => s.cfgKeep f r (v.toNat &&& 0x140)
  | .ideControl _ => if pf then s.cfgKeep f r (v.toNat &&& 0xFF000001) else s
  | .l1ssControl => if pf then s.cfgKeep f r (v.toNat &&& 0xF) else s
  | .ltr => if pf then s.cfgKeep f r v.toNat else s
  | .aerUncorr => s.updFn f (fun h => { h with aerUncorr := h.aerUncorr &&& ~~~v })
  | .aerCorr => s.updFn f (fun h => { h with aerCorr := h.aerCorr &&& ~~~v })
  | .sriovControl => if pf then (s.cfgKeep f r (v.toNat % 32)).setVfs f (bit v 0) (s.fn f).numVfs else s
  | .sriovNumVfs => if pf then s.setVfs f (s.fn f).vfEnable (v.toNat % 65536) else s
  | .atsControl => s.updFn f (fun h => { h with ats := bit v 31 })
  | .pasidControl => s.updFn f (fun h => { h with pasid := bit v 16 })
  | _ => s

/-- CONFIG_REQUEST: answered, RRS until CFG_READY and during a reset, or Unsupported Request where there is no such function
(R225, R241; completion status codes 0, 2 and 1 of the PCIe Base Specification, PRESUMED). -/
def execConfigRequest (f : Fin 4104) (write : Bool) (reg : CfgReg) (v : Word) (s : State) : Res :=
  let f := f.val
  if !(s.link (s.fnLink f)).dlUp then .next s
  else if !s.exists_ f then .next (s.emit (.completion f 1 []))
  else if !s.cfgAnswers f then .next (s.emit (.completion f 2 []))
  else if write then .next ((s.emit (.completion f 0 [])).cfgWrite f reg v)
  else
    let (x, known) := s.cfgRead f reg
    let free := fld s.fresh 0 32
    .next (s.drew.emit (.completion f 0 (leBytes 4 ((x &&& known) ||| (free ^^^ (free &&& known))))))

/-- BAR_UNUSED_ACCESS: a read of a BAR offset that holds nothing returns 0, a write has no effect; both are counted (R227). -/
def execBarUnusedAccess (f : Fin 4104) (write : Bool) (s : State) : Res :=
  .next (if write then s.barWrite f.val (fun s => s.bump R.HIU_BAD_ACCESS_CNT)
    else s.barRead f.val (fun s => (s.bump R.HIU_BAD_ACCESS_CNT).emit (.completion f.val 0 (leBytes 4 0))))

/-- FCTL_INTX_STATUS: writing 1 to ASSERTED clears it, and COUNT with it, and sends Deassert_INTA (R234). A VF has no such
register (Table 10-7). -/
def execFctlIntxStatus (f : Fin 4104) (v : Word) (s : State) : Res :=
  .next (s.barWrite f.val (fun s =>
    if 8 ≤ f.val then s.bump R.HIU_BAD_ACCESS_CNT
    else if bit v 0 then s.updIntx f.val (fun h => { h with intxAsserted := false, intxCount := 0 })
    else s))

/-- A request that a peer window refuses (R242). -/
def State.peerRefuse (s : State) (f : Nat) (write : Bool) : State :=
  (s.bump (R.HIU_INBOUND_DISCARD_CNT (s.fnLink f))).if_ (!write) (fun s => s.emit (.completion f 1 []))

/-- PEER_REQUEST: a memory request at `off` of the peer windows of PF `f` (R242). `poison`: the HBM word read is
uncorrectable, and the completion's data is poisoned (R400, Table 17-1); 16 stands for that completion. -/
def execPeerRequest (f : Fin 8) (write : Bool) (off len : Nat) (data : Bytes) (poison : Bool) (s : State) : Res :=
  let p := f.val
  let x := off % 1048576
  if !s.exists_ p || !(s.link (s.fnLink p)).dlUp || decide (8388608 ≤ off) || decide (len = 0) ||
      decide (4096 < x % 4096 + len) then .next s
  else .next (s.tlp (s.fnLink p) (fun s =>
    if (s.fn p).flr then s.peerRefuse p write
    else if !s.memOn p then if write then s else s.emit (.completion p 1 [])
    else
      let w := s.rd (R.HIU_PEER_WIN_ACTIVE p (off / 1048576))
      if !bit w 63 || !bit w (if write then 61 else 62) then s.peerRefuse p write else
      let a := fld w 20 17 * 1048576 + x
      if write then s.hbmPut a (padTo len data)
      else if poison then (s.hbmUncorr a 11).emit (.completion p 16 (s.hbmRead a len))
      else s.emit (.completion p 0 (s.hbmRead a len))))

/-- The peer region of PF `p`: base and bytes; none has 0 bytes. -/
def State.peerRegion (s : State) (p : Nat) : Nat × Nat := mapGet (fun _ => (0, 0)) s.hiu.peer p

/-- Whether a window value points into the peer region of PF `p`. -/
def State.inRegion (s : State) (p : Nat) (w : DWord) : Bool :=
  let (b, n) := s.peerRegion p
  let t := fld w 20 17 * 1048576
  decide (b ≤ t) && decide (t + 1048576 ≤ b + n)

/-- A commit of peer windows (R243): refused whole, or every masked window takes its shadow values at once. True where it was
taken. -/
def State.winCommit (s : State) (p mask : Nat) : State × Bool :=
  let ws := (List.range 8).filter (fun w => mask.testBit w)
  if ws.any (fun w => !s.inRegion p (s.rd (R.HIU_PEER_WIN_SHADOW p w))) then
    ({ s with hiu := { s.hiu with winRefused := true } }, false)
  else
    let s := s.each ws (fun s w => s.wr (R.HIU_PEER_WIN_ACTIVE p w) (s.rd (R.HIU_PEER_WIN_SHADOW p w)))
    let s := { s with hiu := { s.hiu with winRefused := false, winBusy := true } }
    ((s.bump R.HIU_WIN_SWITCH_CNT).raise 0x014 p p mask, true)

/-- WINDOW_COMMIT: the firmware writes HIU_WINDOW_COMMIT (Table 10-13). -/
def execWindowCommit (v : Word) (s : State) : Res := .next (s.winCommit (fld v 8 3) (fld v 0 8)).1

/-- The commands that wait for BUSY to fall are answered. -/
def State.winAnswer (s : State) : State :=
  let mine := s.channels.flatMap (fun ch => ((s.opened ch).filter (fun c =>
    c.waiting && (c.code == 0x60 || c.code == 0x61))).map (fun c => (ch, c.seq.toNat)))
  s.each mine (fun s w => s.finish (some w) 0 0)

/-- WINDOW_DRAINED: every TLP decoded under the old mappings has been applied; BUSY falls, and the commands that waited for it
are answered (R243 step 4). -/
def execWindowDrained (s : State) : Res :=
  .next (if s.hiu.winBusy then ({ s with hiu := { s.hiu with winBusy := false } }).winAnswer else s)

/-- PEER_WINDOW (code 0x60): a PF moves a window of its own, the manager one of any PF (R287); a target outside the region is
GCS_OUTSIDE_REGION, and the shadow is as before (R243 step 2, R285). -/
def execPeerWindow (ch : BitVec 13) (seq : BitVec 4) (s : State) : Res :=
  .next (s.gcs ch seq 0x60 (fun s c =>
    let p := fld c.arg 23 3
    let w := fld c.arg 20 3
    if fld c.arg 26 22 ≠ 0 then (s, .badArg)
    else if p ≠ ch.toNat ∧ ch.toNat ≠ s.manager then (s, .notOwned)
    else
      let v := BitVec.ofNat 64 (at' (fld c.arg 17 3) 61 + at' (fld c.arg 0 17) 20)
      let old := s.rd (R.HIU_PEER_WIN_SHADOW p w)
      match (s.wr (R.HIU_PEER_WIN_SHADOW p w) v).winCommit p (2 ^ w) with
      | (t, true) => (t, .wait)
      | (t, false) => (t.wr (R.HIU_PEER_WIN_SHADOW p w) old, .no 0x2081)))

/-- PEER_REGION_SET (code 0x61, R397); 0 bytes take a region away. Windows that point into a region that moves or goes are
disabled first, and the answer waits for BUSY. -/
def execPeerRegionSet (ch : BitVec 13) (seq : BitVec 4) (s : State) : Res :=
  .next (s.gcs ch seq 0x61 (fun s c =>
    let b := padTo 24 c.args
    let p := leAt b 0 1
    let base := leAt b 8 8
    let n := leAt b 16 8
    let m := 1048576
    let clash := (List.range 8).any (fun q => q != p && (let (qb, qn) := s.peerRegion q
      decide (0 < qn) && decide (base < qb + qn) && decide (qb < base + n)))
    if 7 < p ∨ leAt b 1 7 ≠ 0 then (s, .badArg)
    else if n ≠ 0 ∧ (base % m ≠ 0 ∨ n % m ≠ 0 ∨ base < 0x800000000 ∨ 0x800000000 + 39 * 1073741824 < base + n ∨ clash) then
      (s, .badArg)
    else
      let old := s.peerRegion p
      let mine := (List.range 8).filter (fun w => bit (s.rd (R.HIU_PEER_WIN_ACTIVE p w)) 63 &&
        s.inRegion p (s.rd (R.HIU_PEER_WIN_ACTIVE p w)))
      let set := fun (s : State) => { s with hiu := { s.hiu with peer := mapSet (fun _ => (0, 0)) s.hiu.peer p (base, n) } }
      if old = (base, n) ∨ mine.isEmpty then (set s, .ok 0) else
      let mask := (mine.map (fun w => 2 ^ w)).sum
      let s := s.each mine (fun s w => s.wrf (R.HIU_PEER_WIN_SHADOW p w) 63 1 0)
      (set (s.winCommit p mask).1, .wait)))

end Sys2Proof.Machine
end

