-- ==== Sys2Proof/Machine/Fnm.lean ====
section
/-!
DEFINITION. Machine/Fnm.lean: the resource pool and the life of an instance (R254 to R267, R504).
-/
namespace Sys2Proof.Machine
open Sys2Proof

/-- The allocation record as Table 11-5 lays it out. -/
def Alloc.bytes (a : Alloc) (persona : Nat) : Bytes :=
  leBytes 4 a.ringBase ++ leBytes 4 a.ringCount ++ leBytes 2 a.vectors ++ leBytes 2 a.portId ++ leBytes 1 a.hostNode ++
  leBytes 1 persona ++ leBytes 2 a.serviceCount ++ leBytes 2 a.serviceBase ++ leBytes 2 0 ++
  leBytes 4 (a.subBase + at' a.subCount 16) ++ leBytes 4 a.tollBase ++ leBytes 4 a.tollCount ++ leBytes 2 a.tenantBase ++
  leBytes 2 a.tenantCount ++ leBytes 4 a.qpQuota ++ leBytes 2 a.nvmeIoq ++ leBytes 2 a.engThreads ++ bvBytes a.engClasses ++
  bvBytes a.tableGrant ++ leBytes 8 0

/-- A record of Table 11-5 read from its 64 bytes; reserved bits are not kept. -/
def Alloc.ofBytes (b : Bytes) : Alloc :=
  { ringBase := leAt b 0 4 % 1048576, ringCount := leAt b 4 4 % 1048576, vectors := leAt b 8 2, vecBase := 0
    portId := leAt b 10 2 % 1024, hostNode := leAt b 12 1 % 16, serviceCount := leAt b 14 2
    serviceBase := leAt b 16 2 % 16384, subBase := leAt b 20 2, subCount := leAt b 22 2 % 32768
    tollBase := leAt b 24 4 % 1048576, tollCount := leAt b 28 4 % 1048576, tenantBase := leAt b 32 2
    tenantCount := leAt b 34 2, qpQuota := leAt b 36 4 % 524288, nvmeIoq := leAt b 40 2, engThreads := leAt b 42 2
    engClasses := bytesBv 64 (slice b 44 8), tableGrant := bytesBv 32 (slice b 52 4) &&& 0xFFFFFFFE }

/-- The bits of the record that are reserved (Table 11-5). -/
def allocReserved (b : Bytes) : Bool :=
  decide (1048576 ≤ leAt b 0 4) || decide (1048576 ≤ leAt b 4 4) || decide (1024 ≤ leAt b 10 2) ||
  decide (16 ≤ leAt b 12 1) || decide (16384 ≤ leAt b 16 2) || decide (leAt b 18 2 ≠ 0) || decide (32768 ≤ leAt b 22 2) ||
  decide (1048576 ≤ leAt b 24 4) || decide (1048576 ≤ leAt b 28 4) || decide (524288 ≤ leAt b 36 4) ||
  decide (leAt b 56 8 ≠ 0)

/-- What an allocation takes of resource `r` (Table 11-1). -/
def Alloc.uses (a : Alloc) (r : Nat) : Nat := match r with
  | 0 => a.ringCount
  | 1 => a.vectors
  | 2 => a.serviceCount
  | 3 => a.subCount
  | 4 => a.tollCount
  | 5 => if a.portId = 0 then 0 else 1
  | 6 => a.tenantCount
  | 7 => a.qpQuota
  | 8 => a.nvmeIoq
  | 9 => a.engThreads
  | _ => (bitsSet a.engClasses 64).length

/-- Where an allocation's range of resource `r` begins; resources 7 to 10 are no ranges. -/
def Alloc.base (a : Alloc) (r : Nat) : Nat := match r with
  | 0 => a.ringBase
  | 1 => a.vecBase
  | 2 => a.serviceBase
  | 3 => a.subBase
  | 4 => a.tollBase
  | 5 => a.portId
  | _ => a.tenantBase

/-- The pool of resource `r` (Table 11-1). -/
def State.poolTotal (s : State) (r : Nat) : Nat := match r with
  | 0 => 1048576
  | 1 => 16384
  | 2 => 16384
  | 3 => 65536
  | 4 => 1048576
  | 5 => 1008
  | 6 => 65536
  | 7 => 262144
  | 8 => 131072
  | 9 => 8 * s.rdf R.IDENT_ENG 16 8
  | _ => 64

/-- The allocations that hold something of the pool: those of every instance until it is scrubbed (R264). -/
def State.allocs (s : State) : List Alloc := (s.fnm.inst.filter (fun e => e.2.st != .absent)).map (fun e => e.2.alloc)

/-- FNM_POOL_FREE. -/
def State.poolFree (s : State) (r : Nat) : Nat := s.poolTotal r - (s.allocs.map (fun a => a.uses r)).sum

/-- The granule of resource `r`. -/
def granule (r : Nat) : Nat := if r = 0 ∨ r = 4 then 64 else if r = 9 then 8 else 1

/-- A count rounded up to its resource's granule (R257). -/
def roundUp (r n : Nat) : Nat := ceilDiv n (granule r) * granule r

/-- The lowest free range of `n` from `first` on, in a pool of `size`, beside those in use (R257). Ranges in use begin and end
at multiples of the granule, so a lowest fit begins at `first` or where one of them ends. -/
def lowestFit (used : List (Nat × Nat)) (first size n : Nat) : Option Nat :=
  if n = 0 then some 0 else
  let fits := fun c => decide (c + n ≤ first + size) &&
    used.all (fun u => u.2 == 0 || decide (c + n ≤ u.1) || decide (u.1 + u.2 ≤ c))
  ((first :: used.map (fun u => u.1 + u.2)).filter fits).min?

/-- A free range of resource `r`, or a free share of it, for `n`. -/
def State.grant (s : State) (r n : Nat) : Option Nat :=
  if r ≤ 6 then
    lowestFit (s.allocs.map (fun a => (a.base r, a.uses r))) (if r = 5 then 16 else 0) (s.poolTotal r) n
  else if n ≤ s.poolFree r then some 0 else none

/-- The allocation for a request whose counts are rounded, or the first resource that cannot be granted (R258, R504). -/
def State.draw (s : State) (q : Alloc) : Except Nat Alloc :=
  match (List.range 10).find? (fun r => (s.grant r (q.uses r)).isNone) with
  | some r => .error r
  | none =>
    if s.allocs.any (fun a => a.engClasses &&& q.engClasses != 0) then .error 10 else
    let at_ := fun r => (s.grant r (q.uses r)).getD 0
    .ok { q with
      ringBase := at_ 0, vecBase := at_ 1, serviceBase := at_ 2, subBase := at_ 3, tollBase := at_ 4, portId := at_ 5
      tenantBase := at_ 6 }

/-- The checks of R504 on a request. -/
def requestOk (b : Bytes) (persona : Nat) : Bool :=
  let a := Alloc.ofBytes b
  !allocReserved b && decide (a.ringCount ≤ 262144) && decide (1 ≤ a.vectors) && decide (a.vectors ≤ 2048) &&
  decide (a.serviceCount ≤ 1024) && decide (a.subCount ≤ 16384) && decide (a.tollCount ≤ 262144) && decide (a.portId ≤ 1) &&
  decide (a.tenantCount ≤ 4096) && decide (a.qpQuota ≤ 262144) && decide (a.nvmeIoq ≤ 1024) &&
  (persona != 0 || a.nvmeIoq == 0) && decide (a.engThreads ≤ 1024) && decide (8 ≤ a.hostNode) && !bit (bytesBv 8 (slice b 52 1)) 0

/-- A request with its counts rounded up. -/
def Alloc.rounded (a : Alloc) : Alloc :=
  { a with ringCount := roundUp 0 a.ringCount, tollCount := roundUp 4 a.tollCount, engThreads := roundUp 9 a.engThreads }

/-- Whether the device presents `f` for an instance: HIU_PF_MAP names the PF, or a TotalVFs covers the VF (R256). -/
def State.hasFunc (s : State) (f : Nat) : Bool :=
  if f < 8 then mapTakes (s.rd R.HIU_PF_MAP).toNat f else (s.fnPf f).isSome

/-- The nodes, leaf queues and toll gates of `f` return to their reset state, queued packets flushed with reason 10 (R259,
R264). -/
def State.scrubNodes (s : State) (f : Nat) : State :=
  let a := (s.inst f).alloc
  let s := s.each (s.leavesOf f) (fun s l => s.flushLeaf l 10)
  let l0 := 4 * a.subBase
  let l1 := 4 * (a.subBase + a.subCount)
  let v0 := svcKey a.serviceBase
  let v1 := v0 + a.serviceCount
  let u1 := a.subBase + a.subCount
  { s with tm := { s.tm with
    leafCfg := mapClear s.tm.leafCfg l0 l1, leafCnt := mapClear s.tm.leafCnt l0 l1
    leafDef := mapClear s.tm.leafDef l0 l1
    node := mapClear (mapClear s.tm.node a.subBase u1) v0 v1
    toll := mapClear s.tm.toll a.tollBase (a.tollBase + a.tollCount)
    turn := mapClear (mapClear s.tm.turn (a.subBase * 32) (u1 * 32)) (v0 * 32) (v1 * 32) } }

/-- The rings, queue pairs, controller and host reads of `f` end without completions (R307, R353, R372). -/
def State.endWork (s : State) (f : Nat) (gone : Bool) : State :=
  let s := s.each (s.ringsOf f) (fun s r => s.ringReset r)
  let s := s.each (s.qpsOf f) (fun s i => s.qpAbandon i gone)
  ((s.ctrlReset f).dropWaiting f)

/-- The engine classes of an allocation are in their reset state: disabled, with JCT_CLASS_CFG at its reset value, their packets
dropped and counted (R189, R259, R264). -/
def State.classesOff (s : State) (a : Alloc) : State :=
  s.each (bitsSet a.engClasses 64) (fun s c =>
    let q := s.classQueue c
    let s := (s.setClassQueue c []).wr (R.JCT_CLASS_CFG c) 0
    let s := { s with eng := { s.eng with classTurn := mapSet (fun _ => 0) s.eng.classTurn c 0 } }
    s.each q (fun s e => (s.raise 0x512 noFunc c 1).dropEarly e.1 (R.JCT_CLASS_DROP_CNT c) 11 c))

/-- An instance command ends with a refusal, counted (Table 11-7). -/
def State.fnmNo (s : State) (st : Status) : State × Reply := (s.bump R.FNM_REFUSED_CNT, .no st)

/-- A creation is refused (Table 11-6). -/
def State.createNo (s : State) (f r : Nat) (st : Status) : State × Reply :=
  ((s.bump R.FNM_REFUSED_CNT).raise 0x046 f r st.toNat, .done st r [])

/-- INST_CREATE (code 0x10, R256 to R259, R504). -/
def execInstCreate (ch : BitVec 13) (seq : BitVec 4) (s : State) : Res :=
  .next (s.gcs ch seq 0x10 (fun s c =>
    let b := padTo 72 c.args
    let f := leAt b 0 2
    let persona := leAt b 2 1
    let q := slice b 8 64
    if !allZero (slice b 3 5) || decide (0x1007 < f) || !requestOk q persona || !s.hasFunc f then s.createNo f 0 0x1082
    else if 1 < persona then s.createNo f 0 0x1070
    else
      let pf := s.inst ((s.fnPf f).getD f)
      if (s.inst f).st ≠ .absent ∨ (8 ≤ f ∧ pf.st = .absent) then s.createNo f 0 0x3071
      else if 8 ≤ f ∧ pf.persona ≠ persona then s.createNo f 0 0x1070
      else match s.draw (Alloc.ofBytes q).rounded with
      | .error r => s.createNo f r 0x3070
      | .ok a =>
        let s := s.setInst f { Inst.absent with st := .created, persona := persona, alloc := a }
        let s := ((s.scrubNodes f).irqReset f).classesOff a
        ((s.bump R.FNM_CREATE_CNT).raise 0x040 f persona 0, .ok 0)))

/-- A command about the instance of FUNC, imm [12:0] (R260, R278). -/
def State.instCmd (s : State) (c : OpenCmd) (g : State → Nat → State × Reply) : State × Reply :=
  if 0x1007 < c.imm then s.fnmNo 0x1082 else g s c.imm

/-- INST_ENABLE (code 0x11). -/
def execInstEnable (ch : BitVec 13) (seq : BitVec 4) (s : State) : Res :=
  .next (s.gcs ch seq 0x11 (fun s c => s.instCmd c (fun s f =>
    if (s.inst f).st ≠ .created then s.fnmNo 0x3073 else (s.instActive f, .ok 0))))

/-- INST_QUIESCE (code 0x12, R261 steps 1 to 4); answered when the instance is QUIESCED. -/
def execInstQuiesce (ch : BitVec 13) (seq : BitVec 4) (s : State) : Res :=
  .next (s.gcs ch seq 0x12 (fun s c => s.instCmd c (fun s f =>
    if (s.inst f).st ≠ .active then s.fnmNo 0x3073 else
    let n := s.outstandingOf f
    let s := s.updInst f (fun i => { i with
      st := .quiescing, atQuiesce := n, aborted := 0, resetting := false, waiter := some (ch.toNat, seq.toNat) })
    ((s.holdRings f).stopLeaves f, .wait))))

/-- The operations of a queue pair end with INST_QUIESCE_ABORT (R353): one that has sent a packet takes the queue pair to
ERROR. -/
def State.quiesceQp (s : State) (i : Nat) : State :=
  let q := s.qp i
  if q.ops.any (fun x => decide (0 < x.sent) && decide (x.kind ≤ 8)) then
    let s := s.each (s.ring q.sqRing).ops (fun s o =>
      match q.ops.find? (fun x => x.no == o.no) with
      | some x => s.endROp i x 0x5070 (q.ackedBytes x) 0
      | none => s.endUnrun q.sqRing o.no 0x5070)
    (s.updQp i (fun q => { q with st := .error, timerOn := false, rnrPsn := none, ops := [] })).qpErrorEvent i 0x5070
  else s.abortAll q.sqRing 0x5070

/-- Every operation of `f` still outstanding completes with INST_QUIESCE_ABORT (R261 step 5). An NVMe completion entry has no place
for the 16 bits of that code, and the spec names no NVMe status for it: a command's status is a free value other than success
(DESIGN CHOICE, log entry 101). -/
def State.abortOutstanding (s : State) (f : Nat) : State :=
  let s := s.each (s.qpsOf f) (fun s i => s.quiesceQp i)
  let s := s.each (s.ringsOf f) (fun s r => s.abortAll r 0x5070)
  s.each (s.sce.cmds.filter (fun c => c.func == f)) (fun s c =>
    let s := s.each c.pieces (fun s p => s.sendAbort p)
    s.drew.nvEnd c.slot (1 + fld s.fresh 0 11 % 2047 + at' (fld s.fresh 11 1) 11) 0)

/-- QUIESCE_TIMEOUT: QUIESCE_MS have passed since the quiesce began (R261 step 5). -/
def execQuiesceTimeout (f : Fin 4104) (s : State) : Res :=
  let i := s.inst f.val
  if i.st ≠ .quiescing ∨ i.resetting then .next s else
  let n := s.outstandingOf f.val
  let s := (s.abortOutstanding f.val).bumpN R.FNM_QUIESCE_ABORT_CNT n
  .next (s.updInst f.val (fun i => { i with aborted := i.aborted + n }))

/-- Whether a quiesce of `f` is done: no operation outstanding, no completion backlogged, QUIET 1 (R261 step 6); one that met an
FLR waits for its FLR_DONE (R263 step 4). -/
def State.quiet (s : State) (f : Nat) : Bool :=
  s.outstandingOf f == 0 && !s.backlogged f && s.readsOut f == 0 && !((s.fn f).flr && !(s.fn f).portReset)

/-- QUIESCE_COMPLETE: QUIESCED, or, for an instance reset, CREATED in the state of R259 (R260, R261 steps 6 and 7, R263). -/
def execQuiesceComplete (f : Fin 4104) (s : State) : Res :=
  let f := f.val
  let i := s.inst f
  if i.st ≠ .quiescing ∨ !s.quiet f then .next s
  else if i.resetting then
    let s := (s.setInst f { i with st := .created, resetting := false, waiter := none, savedEnable := [] }).scrubNodes f
    .next ((s.raise 0x042 f 0 (satTo 65535 i.aborted)).finish i.waiter 0 i.aborted)
  else
    let s := s.setInst f { i with st := .quiesced, waiter := none }
    .next ((s.raise 0x041 f i.atQuiesce (satTo 65535 i.aborted)).finish i.waiter 0 i.aborted)

/-- INST_RESUME (code 0x13, R262). -/
def execInstResume (ch : BitVec 13) (seq : BitVec 4) (s : State) : Res :=
  .next (s.gcs ch seq 0x13 (fun s c => s.instCmd c (fun s f =>
    if (s.inst f).st ≠ .quiesced then s.fnmNo 0x3073 else ((s.resumeLeaves f).instActive f, .ok 0))))

/-- INST_RESET (code 0x14): through QUIESCING with a limit of 0 ms; the work ends without completions (R260, R307), and
QUIESCE_COMPLETE brings the instance to CREATED. -/
def execInstReset (ch : BitVec 13) (seq : BitVec 4) (s : State) : Res :=
  .next (s.gcs ch seq 0x14 (fun s c => s.instCmd c (fun s f =>
    let st := (s.inst f).st
    if st ≠ .active ∧ st ≠ .quiesced then s.fnmNo 0x3073 else
    let n := s.outstandingOf f
    let s := s.updInst f (fun i => { i with
      st := .quiescing, atQuiesce := n, aborted := n, resetting := true, waiter := some (ch.toNat, seq.toNat) })
    (((s.endWork f false).stopLeaves f).irqReset f, .wait))))

/-- INST_REMOVE (code 0x15): scrubbing begins (R264, R486); answered when it ends. -/
def execInstRemove (ch : BitVec 13) (seq : BitVec 4) (s : State) : Res :=
  .next (s.gcs ch seq 0x15 (fun s c => s.instCmd c (fun s f =>
    match (s.inst f).st with
    | .active | .quiescing => s.fnmNo 0x3072
    | .absent | .removing => s.fnmNo 0x3073
    | .created | .quiesced | .detached =>
      let s := s.updInst f (fun i => { i with
        st := .removing, since := s.now, waiter := some (ch.toNat, seq.toNat), savedEnable := [] })
      let s := ((s.saAbandon f).sinksOff f).endWork f true
      let s := ((s.scrubNodes f).irqReset f).classesOff (s.inst f).alloc
      let s := { s with
        obs := { s.obs with grant := mapKeep (fun k => k / 64 != f) s.obs.grant }
        sce := { s.sce with attach := mapKeep (fun k => k / 1025 != f) s.sce.attach } }
      (s.updInst f (fun i => { i with alloc := { i.alloc with tableGrant := 0 } }), .wait))))

/-- SCRUB_COMPLETE: every resource returns to the pool (R264). -/
def execScrubComplete (f : Fin 4104) (s : State) : Res :=
  let i := s.inst f.val
  if i.st ≠ .removing then .next s else
  let s := (s.setInst f.val Inst.absent).bump R.FNM_REMOVE_CNT
  .next ((s.raise 0x043 f.val 0 (satTo 65535 (ceilDiv (s.now - i.since).toNat 1000000))).finish i.waiter 0 0)

/-- Whether TotalVFs of PF `p` may become `n`: at most 1,024, at most 4,096 in all, and not while its VF Enable is 1 (R254). -/
def State.vfsAllowed (s : State) (p n : Nat) : Bool :=
  decide (n ≤ 1024) && decide ((((List.range 8).filter (· ≠ p)).map s.totalVfs).sum + n ≤ 4096) && !(s.fn p).vfEnable

/-- SET_TOTALVFS (code 0x16, R254). -/
def execSetTotalvfs (ch : BitVec 13) (seq : BitVec 4) (s : State) : Res :=
  .next (s.gcs ch seq 0x16 (fun s c =>
    let p := fld c.arg 16 3
    let n := fld c.arg 0 11
    if fld c.arg 11 5 ≠ 0 ∨ fld c.arg 19 29 ≠ 0 ∨ !s.vfsAllowed p n then s.fnmNo 0x1082
    else (s.wr (R.FNM_PF_CFG p) (BitVec.ofNat 64 n), .ok 0)))

/-- TABLE_GRANT (code 0x17). -/
def execTableGrant (ch : BitVec 13) (seq : BitVec 4) (s : State) : Res :=
  .next (s.gcs ch seq 0x17 (fun s c =>
    let f := fld c.arg 32 13
    if fld c.arg 45 3 ≠ 0 ∨ bit c.arg 0 ∨ 0x1007 < f then s.fnmNo 0x1082
    else if (s.inst f).st = .absent then s.fnmNo 0x3073
    else (s.updInst f (fun i => { i with alloc := { i.alloc with tableGrant := BitVec.ofNat 32 (fld c.arg 0 32) } }), .ok 0)))

/-- FNM_INST_STATE of a function (Table 11-8). -/
def State.instState (s : State) (f : Nat) : Nat :=
  let i := s.inst f
  at' i.st.code.toNat 29 + at' (i.persona % 4) 27 + at' (b2n (f == s.manager)) 26 + satTo 1048575 (s.outstandingOf f)

/-- INST_INFO (code 0x18): a function's own, or for the manager any. -/
def execInstInfo (ch : BitVec 13) (seq : BitVec 4) (s : State) : Res :=
  .next (s.gcs ch seq 0x18 (fun s c => s.instCmd c (fun s f =>
    if ch.toNat ≠ f ∧ ch.toNat ≠ s.manager then s.fnmNo 0x2071 else (s, .ok (s.instState f)))))

/-- The allocation record of a function as the FNM_IND window shows it. -/
def State.allocBytes (s : State) (f : Nat) : Bytes := (s.inst f).alloc.bytes (s.inst f).persona

/-- The 32 bits at offset `o` of the registers of Table 11-4, as function `f` reads them (R266, Table 10-7). A read has no
effect. -/
def State.fctlRead (s : State) (f o : Nat) : Word :=
  let h := s.fn f
  if o = 0 then BitVec.ofNat 32 (s.instState f)
  else if 0x40 ≤ o ∧ o < 0x80 then
    if (s.inst f).st = .absent then 0 else BitVec.ofNat 32 (leAt (s.allocBytes f) (o - 0x40) 4)
  else if o = 0x100 ∧ f < 8 then BitVec.ofNat 32 (at' (h.intxCount % 65536) 16 + b2n h.intxAsserted)
  else if o = 0x108 ∨ o = 0x10C then BitVec.ofNat 32 (h.dbHeld.toNat >>> (8 * (o - 0x108)))
  else 0

/-- FNM_IND_READ: FNM_IND_CTL written with OP 0b01. -/
def execFnmIndRead (v : Word) (s : State) : Res :=
  if s.blockHeld 2 ∨ fld v 30 2 ≠ 1 then .next s else
  let s := s.wr R.FNM_IND_CTL ((v &&& 0xC0001FFF).setWidth 64)
  let f := fld v 0 13
  if 0x1007 < f then .next (s.wr R.FNM_IND_STATUS 0xC0000000) else
  let b := s.allocBytes f
  .next ((s.each (List.range 16) (fun s k => s.wr (R.FNM_IND_DATA k) (BitVec.ofNat 64 (leAt b (4 * k) 4)))).wr
    R.FNM_IND_STATUS 0x80000000)

/-- FNM_IND_WRITE: FNM_IND_CTL written with OP 0b10: the record of an ABSENT instance is loaded (Table 11-7). -/
def execFnmIndWrite (v : Word) (s : State) : Res :=
  if s.blockHeld 2 ∨ fld v 30 2 ≠ 2 then .next s else
  let s := s.wr R.FNM_IND_CTL ((v &&& 0xC0001FFF).setWidth 64)
  let f := fld v 0 13
  if 0x1007 < f ∨ (s.inst f).st ≠ .absent then .next (s.wr R.FNM_IND_STATUS 0xC0000000) else
  let b := (List.range 16).flatMap (fun k => leBytes 4 (s.rd (R.FNM_IND_DATA k)).toNat)
  .next ((s.updInst f (fun i => { i with alloc := Alloc.ofBytes b, persona := leAt b 13 1 })).wr R.FNM_IND_STATUS 0x80000000)

end Sys2Proof.Machine
end

