-- ==== Sys2Proof/Machine/Hbm.lean ====
section
/-!
DEFINITION. Machine/Hbm.lean: staging, and the scrubbing of HBM and the packet buffer (R394 to R402).
-/
namespace Sys2Proof.Machine
open Sys2Proof

/-- The used HBM regions in rising order: base, size, owner code (Table 17-1). -/
def State.hbmRegions (s : State) : List (Nat × Nat × Nat) :=
  let mib := 1048576
  ((List.range 5).flatMap (fun i => [(i * 0x80000000, 1088 * mib, 0), (0x44000000 + i * 0x80000000, 64 * mib, 1)])) ++
  [(0x280000000, 512 * mib, 2), (0x2A0000000, 128 * mib, 3), (0x2A8000000, 128 * mib, 4), (0x2B0000000, 32 * mib, 5),
   (0x2B2000000, 4 * mib, 6), (0x2C0000000, 256 * mib, 7)] ++
  s.inService.map (fun n => (0x300000000 + n * 0x4000000, 64 * mib, 8)) ++
  [(0x540000000, 1024 * mib, 9), (0x600000000, 8192 * mib, 10), (0x800000000, 39 * 1024 * mib, 11),
   (0x11C0000000, 1024 * mib, 12)]

/-- The owner code of an address. -/
def State.hbmOwner (s : State) (a : Nat) : Option Nat :=
  (s.hbmRegions.find? (fun r => decide (r.1 ≤ a) && decide (a < r.1 + r.2.1))).map (fun r => r.2.2)

/-- The next used address from `a` on; none past the last. -/
def State.nextUsed (s : State) (a : Nat) : Option Nat :=
  match s.hbmRegions.find? (fun r => decide (a < r.1 + r.2.1)) with
  | some r => some (max a r.1)
  | none => none

/-- A word whose patrol read is uncorrectable is handled as its owner gives (Table 17-1): a bucket is emptied, a counter pair
set to 0; what mirrors repair is data this model keeps whole. -/
def State.patrolBad (s : State) (a owner : Nat) : State :=
  let s := s.hbmUncorr a owner
  let r := a / 0x80000000
  let off := a % 0x80000000
  match owner with
  | 0 =>
    let t := if off < 0x40000000 then 0 else 1
    let b := off % 0x40000000 / 256
    s.setBucket r t b { Bucket.empty with version := (s.bucket r t b).version + 1 }
  | 1 =>
    let x := r * 4194304 + (off - 0x44000000) / 16
    { s with rtbl := { s.rtbl with pairs := mapSet (fun _ => (0, 0)) (mapSet (fun _ => (0, 0)) s.rtbl.pairs x (0, 0)) (x + 1) (0, 0) } }
  | _ => s

/-- A corrected error of a lane: counted by stack and lane; the one beyond HBMC_LANE_THRESH in the hour raises LANE_WEAK
(R400, R401). -/
def State.laneCorr (s : State) (a lane : Nat) : State :=
  let k := a / 256 % 3
  let pc := a / 768 % 32
  let x := k * 2048 + pc * 64 + lane
  let s := if s.hbm.laneHour = s.hour then s else { s with hbm := { s.hbm with laneErr := [], laneHour := s.hour } }
  let n := mapGet (fun _ => 0) s.hbm.laneErr x + 1
  let s := { s with hbm := { s.hbm with laneErr := mapSet (fun _ => 0) s.hbm.laneErr x n } }.bump (R.HBMC_CORR_CNT k)
  if n = s.rdf R.HBMC_LANE_THRESH 0 32 + 1 then s.raise (0x747 + k) noFunc (pc * 64 + lane) (satTo 65535 n) else s

/-- The patrol moves on by one 32-byte word; past the last used address a pass is complete (R402). -/
def State.patrolNext (s : State) : State :=
  match s.nextUsed (s.hbm.patrol.toNat + 32) with
  | some a => { s with hbm := { s.hbm with patrol := BitVec.ofNat 64 a } }
  | none =>
    let s := { s with hbm := { s.hbm with patrol := 0 } }.bump R.HBMC_PATROL_PASS_CNT
    s.raise 0x74A noFunc (s.rd R.HBMC_PATROL_PASS_CNT).toNat 0

/-- SCRUB_READ: the patrol scrubber reads the word at its position and writes it back where it is corrected, unless its owner has
changed it since (R402): the owner's data stands either way, so `raced` changes nothing that is kept. A pass that has begun goes on
after ENABLE is cleared: a change of HBMC_PATROL_CFG applies from the next pass. -/
def execScrubRead (err : HbmErr) (lane : Fin 64) (_raced : Bool) (s : State) : Res :=
  if (!bit (s.rd R.HBMC_PATROL_CFG) 31 && s.hbm.patrol == 0) ∨ s.blockHeld 16 then .next s else
  let a := s.hbm.patrol.toNat
  let s := match err with
    | .clean => s
    | .corrected => s.laneCorr a lane.val
    | .uncorrectable => s.patrolBad a ((s.hbmOwner a).getD 0)
  .next s.patrolNext

/-- PBUF_SCRUB: a row of the packet buffer is read: `bank` holds a word of `cell` (R390, R395, R402). -/
def execPbufScrub (err : HbmErr) (cell : Fin 524288) (bank : Fin 32) (s : State) : Res :=
  if s.blockHeld 15 ∨ bank.val / 4 ≠ cell.val % 8 then .next s else
  match err with
  | .clean => .next s
  | .corrected => .next ((s.bump R.PBUF_ECC_CORR_CNT).bump (R.PBUF_BANK_CORR_CNT bank.val))
  | .uncorrectable => .next ((s.bump R.PBUF_ECC_UNCORR_CNT).raise 0x740 noFunc cell.val bank.val)

/-- STAGE_COMPLETE: the spilled packet at place `pos` of a leaf queue has been copied into staging cells (R394). -/
def execStageComplete (q : Fin 262144) (pos : Fin 4) (s : State) : Res :=
  let l := s.leafQ q.val
  match l[pos.val]? with
  | none => .next s
  | some e =>
    let n := e.pkt.cells
    if e.pkt.place ≠ 1 ∨ s.stageCells < s.hbm.stageUsed + n ∨ s.blockHeld 15 then .next s else
    let s := { s with hbm := { s.hbm with stageUsed := s.hbm.stageUsed + n } }.bump R.PBUF_STAGE_CNT
    .next (s.setLeafQ q.val (l.set pos.val { e with pkt := { e.pkt with place := 2 } }))

end Sys2Proof.Machine
end

