-- ==== Sys2Proof/Machine/Line.lean ====
section
/-!
DEFINITION. Machine/Line.lean: the line ports, the management port and Milepost time (chapter 7).
-/
namespace Sys2Proof.Machine
open Sys2Proof

/-- A frame enters the packet buffer and parse unit 0 or 1, taken alternately, or finds no cell (Table 2-1, R391). `port` is
its SRC_PORT, `tol` the tolerance of its timestamp, `reason` its PBUF_DROP_CNT. -/
def State.ingress (s : State) (frame : Bytes) (port tol reason : Nat) (linePort : Option Nat) : State :=
  let (s, p) := s.newPkt frame 0 port noFunc
  if s.cellsFor true < p.cells then (s.bump (R.PBUF_DROP_CNT reason)).raise 0x742 noFunc port reason else
  let (s, t) := s.stampTime tol
  let s := s.takeCells p.cells
  let prio := spGet (s.parsedSp (s.walk p)) SP.PCP
  let key := linePort.map (fun n => n * 8 + prio)
  let p := { p with entered := t, linePort := key }
  let s := match key with
    | some k => (s.setHeldCells k (s.heldCells k + p.cells)).flowCheck (k / 8) (k % 8)
    | none => s
  let u := b2n s.parse.lineTurn
  { s with parse := { s.parse with lineTurn := !s.parse.lineTurn } }.toUnit u p

/-- A pause or PFC frame consumed by the MAC (R165): the quanta of each class it names; it acts in the mode FLOW selects. -/
def State.pauseFrame (s : State) (p : Nat) (f : Bytes) : State :=
  let pfc := beAt f 14 2 == 0x0101
  let named := if pfc then bitsSet (BitVec.ofNat 8 (beAt f 16 2)) 8 else List.range 8
  let quanta := fun t => if pfc then beAt f (18 + 2 * t) 2 else beAt f 16 2
  let s := if pfc then s.each named (fun s t => s.bump (R.LINE_PFC_RX_CNT p t)) else s.bump (R.LINE_PAUSE_RX_CNT p)
  if s.flow p ≠ (if pfc then 2 else 1) then s else
  let l := s.port p
  s.setPort p { l with paused := (List.range 8).map (fun t =>
    if t ∈ named then quanta t else l.paused.getD t 0) }

/-- Whether a frame is a pause or PFC frame: MAC control, opcode 0x0001 or 0x0101. -/
def isPause (f : Bytes) : Bool := beAt f 12 2 == 0x8808 && (beAt f 14 2 == 0x0001 || beAt f 14 2 == 0x0101)

/-- LINE_FRAME_RECEIVE: a frame, without its frame check sequence, at the MAC of a port that is UP; `ok` whether the check
sequence holds, `symErr` whether an uncorrectable FEC codeword touched it (R162, R387, R391). -/
def execLineFrameReceive (p : Fin 8) (frame : Bytes) (ok symErr : Bool) (s : State) : Res :=
  let n := p.val
  if (s.port n).st ≠ .up ∨ s.portOpt.1 ≤ n then .next s else
  let s := s.if_ symErr (fun s => s.bump (R.LINE_FEC_UNCORR_CNT n))
  if !ok || symErr || (s.port n).alignLost then .next (s.bump (R.LINE_DROP_CNT n 0))
  else if frame.length < 60 then .next (s.bump (R.LINE_DROP_CNT n 1))
  else if s.maxFrame n < frame.length then .next (s.bump (R.LINE_DROP_CNT n 2))
  else if isPause frame then .next (s.pauseFrame n frame)
  else
    let s := (s.bump (R.LINE_RX_PKT_CNT n)).bumpN (R.LINE_RX_BYTE_CNT n) frame.length
    match s.macsecRx n frame with
    | (s, .error r) => .next (s.bump (R.CIPH_MACSEC_DROP_CNT n r))
    | (s, .ok f) => .next (s.ingress f n 4 0 (some n))

/-- PAUSE_EXPIRE: the pause of class `c` runs out, in pause mode that of the whole port. -/
def execPauseExpire (p : Fin 8) (c : Fin 8) (s : State) : Res :=
  let l := s.port p.val
  .next (s.setPort p.val { l with paused := (List.range 8).map (fun t =>
    if t = c.val ∨ s.flow p.val = 1 then 0 else l.paused.getD t 0) })

/-- PFC_REFRESH: XOFF is repeated while the count stays above XON (R166). -/
def execPfcRefresh (p : Fin 8) (c : Fin 8) (s : State) : Res :=
  let n := p.val
  if (s.port n).st = .up ∧ s.flow n ≠ 0 ∧ bit (s.port n).xoff c.val ∧
      s.rdf (R.LINE_PFC_THRESH n) 0 16 < s.flowCells n c.val then .next (s.sendPfc n c.val 0xFFFF)
  else .next s

/-- The state a port takes to come up from: TRAINING with AN, else ALIGNING (Table 7-2). -/
def State.bringUp (s : State) (p : Nat) : LinkSt := if bit (s.rd (R.LINE_PORT_CFG p)) 30 then .training else .aligning

/-- Frames cut at port `p` as its link fails (R162, R164): the one its port node is sending, which it started just then, and one
that arrives. -/
def State.cutFrames (s : State) (p : Nat) (tx rx : Bool) : State :=
  (s.if_ (tx && s.tmRuns) (fun s => s.portSend p false true (s.queued + 1))).if_ rx (fun s => s.bump (R.LINE_DROP_CNT p 3))

/-- A port leaves UP: counted, and its port node flushed (R146). LINK_DOWN is raised for lost alignment. Where its alignment holds
until then, frames under way are cut: whether there are any is a free value. -/
def State.leaveUp (s : State) (p : Nat) (goal : LinkSt) (event : Bool) : State :=
  let s := if (s.port p).alignLost then s else s.drew.cutFrames p (bit s.fresh 0) (bit s.fresh 1)
  let before := s
  let s := (s.setPort p { s.port p with st := goal, alignLost := false }).bump (R.LINE_LINK_DOWN_CNT p)
  (s.if_ event (fun s => s.raise (0x188 + p) noFunc goal.code.toNat 0)).flushFallen before

/-- A port goes to DISABLED. -/
def State.disablePort (s : State) (p : Nat) : State :=
  if (s.port p).st = .up then s.leaveUp p .disabled false else s.setPort p { s.port p with st := .disabled, alignLost := false }

/-- A port leaves DISABLED under its ENABLE bit, where the option gives it lanes (Table 7-2, R160). -/
def State.startPort (s : State) (p : Nat) : State :=
  if (s.port p).st = .disabled ∧ bit (s.rd (R.LINE_PORT_CFG p)) 31 ∧ p < s.portOpt.1 then
    s.setPort p { s.port p with st := s.bringUp p }
  else s

/-- ALIGNMENT_LOSS: a port in UP loses alignment; a frame leaving (`cutTx`) and one arriving (`cutRx`) are cut (R162, R164, R168). -/
def execAlignmentLoss (p : Fin 8) (cutTx cutRx : Bool) (s : State) : Res :=
  let l := s.port p.val
  if l.st ≠ .up ∨ l.alignLost then .next s else
  let s := s.cutFrames p.val cutTx cutRx
  .next (s.setPort p.val { s.port p.val with alignLost := true })

/-- ALIGNMENT_REGAINED within 10 µs: the port stays UP (R168). -/
def execAlignmentRegained (p : Fin 8) (s : State) : Res :=
  let l := s.port p.val
  if l.st ≠ .up ∨ !l.alignLost then .next s else .next (s.setPort p.val { l with alignLost := false })

/-- LINK_DOWN: alignment lost for more than 10 µs (Table 7-2). -/
def execLinkDown (p : Fin 8) (s : State) : Res :=
  let l := s.port p.val
  if l.st ≠ .up ∨ !l.alignLost then .next s else .next (s.leaveUp p.val (s.bringUp p.val) true)

/-- TRAINING_COMPLETE. Without the line reference no port trains (R408). -/
def execTrainingComplete (p : Fin 8) (s : State) : Res :=
  let l := s.port p.val
  if l.st ≠ .training ∨ !s.clk.lineRef then .next s else .next (s.setPort p.val { l with st := .aligning })

/-- TRAINING_TIMEOUT: one more of TRAIN_TRIES, which saturates. -/
def execTrainingTimeout (p : Fin 8) (s : State) : Res :=
  let l := s.port p.val
  if l.st ≠ .training then .next s
  else .next (s.setPort p.val { l with tries := if l.tries = 255 then 255 else l.tries + 1 })

/-- LINK_UP: alignment locked; the event tells of TRAIN_TRIES before it clears. -/
def execLinkUp (p : Fin 8) (s : State) : Res :=
  let l := s.port p.val
  if l.st ≠ .aligning ∨ !s.clk.lineRef then .next s else
  .next ((s.setPort p.val { l with st := .up, tries := 0, alignLost := false }).raise (0x180 + p.val) noFunc l.tries.toNat
    (s.rdf R.LINE_PORT_OPT 0 3))

/-- ALIGN_TIMEOUT: 10 ms in ALIGNING without lock. -/
def execAlignTimeout (p : Fin 8) (s : State) : Res :=
  let l := s.port p.val
  if l.st ≠ .aligning then .next s else .next (s.setPort p.val { l with st := s.bringUp p.val })

/-- FEC_DEGRADED: a 1 ms boundary, with the pre-FEC symbol errors of the millisecond (R169). -/
def execFecDegraded (p : Fin 8) (errors : Nat) (s : State) : Res :=
  let l := s.port p.val
  let on := decide ((s.rd R.LINE_FEC_THRESH).toNat < errors)
  let s := (s.bumpN (R.LINE_FEC_SYM_CNT p.val) errors).setPort p.val { l with fecDegraded := on }
  .next (s.if_ (on && !l.fecDegraded) (fun s => s.raise (0x190 + p.val) noFunc errors 0))

/-- MGMT_FRAME_RECEIVE (R167, R391). A frame whose check sequence fails, or too long for PKT_LEN, is not passed on. -/
def execMgmtFrameReceive (frame : Bytes) (ok : Bool) (s : State) : Res :=
  if !ok || !s.line.mgmtUp || decide (16384 ≤ frame.length) then .next s else .next (s.ingress frame 8 8 1 none)

/-- The management link changes: MGMT_LINK, and its port node follows (R146, R167). -/
def State.setMgmt (s : State) (up : Bool) : State :=
  if s.line.mgmtUp = up then s else
  (({ s with line := { s.line with mgmtUp := up } }).raise 0x1A0 noFunc (b2n up) 0).flushFallen s

/-- MGMT_LINK: it comes up only while the port is enabled. -/
def execMgmtLink (up : Bool) (s : State) : Res :=
  if up ∧ !bit (s.rd R.LINE_MGMT_CFG) 31 then .next s else .next (s.setMgmt up)

/-- LINE_PORT_OPT written: a change takes every port to DISABLED, from which each starts again (R160). -/
def State.setPortOption (s : State) (v : Nat) : State :=
  if s.rdf R.LINE_PORT_OPT 0 3 = v % 8 then s else
  let s := s.each (List.range 8) (fun s p => s.disablePort p)
  (s.wr R.LINE_PORT_OPT (BitVec.ofNat 64 (v % 8))).each (List.range 8) (fun s p => s.startPort p)

/-- LINE_PORT_CFG written: ENABLE takes the port out of DISABLED or into it. -/
def State.setPortCfg (s : State) (p : Nat) (v : DWord) : State :=
  let s := s.wr (R.LINE_PORT_CFG p) (v &&& 0xF8003FFF)
  if bit v 31 then s.startPort p else s.disablePort p

/-- LINE_PFC_THRESH written: flow control compares with the new thresholds (R166). -/
def State.setPfcThresh (s : State) (p : Nat) (v : DWord) : State :=
  (s.wr (R.LINE_PFC_THRESH p) (v &&& 0xFFFFFFFF)).each (List.range 8) (fun s t => s.flowCheck p t)

/-- LINE_MGMT_CFG written: ENABLE 0 takes the link down, TM_PORT moves the port node's UP (R146, R167). -/
def State.setMgmtCfg (s : State) (v : DWord) : State :=
  let s := (s.wr R.LINE_MGMT_CFG (v &&& 0xC000000F)).flushFallen s
  if bit v 31 then s else s.setMgmt false

/-- PORT_OPTION (code 0x50). -/
def execPortOption (ch : BitVec 13) (seq : BitVec 4) (s : State) : Res :=
  .next (s.gcs ch seq 0x50 (fun s c => if 7 < c.imm then (s, .badArg) else (s.setPortOption c.imm, .ok 0)))

/-- PORT_CFG (code 0x51). -/
def execPortCfg (ch : BitVec 13) (seq : BitVec 4) (s : State) : Res :=
  .next (s.gcs ch seq 0x51 (fun s c =>
    if fld c.arg 35 13 ≠ 0 ∨ c.arg &&& 0x07FFC000 ≠ 0 then (s, .badArg)
    else (s.setPortCfg (fld c.arg 32 3) (BitVec.ofNat 64 (fld c.arg 0 32)), .ok 0)))

/-- PFC_THRESH (code 0x52). -/
def execPfcThresh (ch : BitVec 13) (seq : BitVec 4) (s : State) : Res :=
  .next (s.gcs ch seq 0x52 (fun s c =>
    if fld c.arg 35 13 ≠ 0 then (s, .badArg)
    else (s.setPfcThresh (fld c.arg 32 3) (BitVec.ofNat 64 (fld c.arg 0 32)), .ok 0)))

/-- MGMT_CFG (code 0x53). -/
def execMgmtCfg (ch : BitVec 13) (seq : BitVec 4) (s : State) : Res :=
  .next (s.gcs ch seq 0x53 (fun s c =>
    if fld c.arg 32 16 ≠ 0 ∨ c.arg &&& 0x3FFFFFF0 ≠ 0 then (s, .badArg)
    else (s.setMgmtCfg (BitVec.ofNat 64 (fld c.arg 0 32)), .ok 0)))

/-- TIME_SLEW written: the amount to move the count by, in 2⁻³² ns (R171). An amount beyond ±1,000,000 ns, which the register has
room for, acts as the nearer limit, as TIME_INCR does (DESIGN CHOICE: R171 does not say). -/
def State.setSlew (s : State) (ns : Int) : State :=
  { s with line := { s.line with slew := max (-1000000) (min 1000000 ns) * 4294967296 } }

/-- A step of Milepost time (R170): `obj` 0 SET, 1 OFFSET. -/
def State.timeStep (s : State) (goal : BitVec 96) (obj : Nat) : State :=
  ((({ s with line := { s.line with now := goal } }).bump R.TIME_STEP_CNT).raise 0x1A1 noFunc obj 0).gateResync

/-- TIME_CTL bit 0: TIME_SET applied. -/
def State.applySet (s : State) : State := s.timeStep (BitVec.ofNat 96 (at' (s.rd R.TIME_SET).toNat 32)) 0

/-- TIME_CTL bit 1: TIME_OFFSET added. -/
def State.applyOffset (s : State) : State := s.timeStep (s.line.now + BitVec.ofNat 96 (at' (s.rd R.TIME_OFFSET).toNat 32)) 1

/-- The value of a TIME_ADJUST block, where its reserved bytes are 0. -/
def OpenCmd.timeValue (c : OpenCmd) : Option Nat := if leAt c.args 1 7 ≠ 0 then none else some (leAt c.args 8 8)

/-- TIME_ADJUST (code 0x54), operation 0; operations that are not used are answered here. -/
def execTimeIncrWrite (ch : BitVec 13) (seq : BitVec 4) (s : State) : Res :=
  .next (s.gcsPick ch seq 0x54 (fun c => byteAt c.args 0 == 0 || decide (3 < (byteAt c.args 0).toNat)) (fun s c =>
    match c.timeValue with
    | none => (s, .badArg)
    | some v =>
      if byteAt c.args 0 ≠ 0 ∨ 2 ^ 40 ≤ v then (s, .badArg) else (s.wr R.TIME_INCR (BitVec.ofNat 64 v), .ok 0)))

/-- TIME_ADJUST, operation 1: a slew of at most 1,000,000 ns either way (R171). -/
def execTimeSlew (ch : BitVec 13) (seq : BitVec 4) (s : State) : Res :=
  .next (s.gcsPick ch seq 0x54 (fun c => byteAt c.args 0 == 1) (fun s c =>
    match c.timeValue with
    | none => (s, .badArg)
    | some v =>
      let ns := (BitVec.ofNat 64 v).toInt
      if ns < -1000000 ∨ 1000000 < ns then (s, .badArg) else (s.setSlew ns, .ok 0)))

/-- TIME_ADJUST, operation 2: a step to TIME_SET. -/
def execTimeSetStep (ch : BitVec 13) (seq : BitVec 4) (s : State) : Res :=
  .next (s.gcsPick ch seq 0x54 (fun c => byteAt c.args 0 == 2) (fun s c =>
    match c.timeValue with
    | none => (s, .badArg)
    | some v => ((s.wr R.TIME_SET (BitVec.ofNat 64 v)).applySet, .ok 0)))

/-- TIME_ADJUST, operation 3: a step by TIME_OFFSET. -/
def execTimeOffsetStep (ch : BitVec 13) (seq : BitVec 4) (s : State) : Res :=
  .next (s.gcsPick ch seq 0x54 (fun c => byteAt c.args 0 == 3) (fun s c =>
    match c.timeValue with
    | none => (s, .badArg)
    | some v => ((s.wr R.TIME_OFFSET (BitVec.ofNat 64 v)).applyOffset, .ok 0)))

/-- Milepost time stands at a whole second, within 4 ns. -/
def State.wholeSecond (s : State) : Bool :=
  let r := s.now.toNat % 1000000000
  decide (r ≤ 4) || decide (999999996 ≤ r)

/-- PPS_OUT: the pulse of a whole second, while the output is enabled: high for PULSE_NS (R174). -/
def execPpsOut (s : State) : Res :=
  let w := s.rdf R.TIME_PPS_CFG 0 30
  if !bit (s.rd R.TIME_PPS_CFG) 31 || w == 0 || !s.wholeSecond then .next s
  else .next ((s.emit (.pps true s.now)).emit (.pps false (s.now + BitVec.ofNat 64 w)))

/-- PPS_IN: a rising edge of the input, while it is enabled (R174). -/
def execPpsIn (s : State) : Res :=
  if !bit (s.rd R.TIME_PPS_CFG) 30 then .next s else .next ((s.wr R.TIME_PPS_IN_TS s.now).raise 0x1A2 noFunc 0 0)

/-- LINE_REF_LOST: every port in UP leaves it as for lost alignment (R408). -/
def execLineRefLost (s : State) : Res :=
  if !s.clk.lineRef then .next s else
  let s := { s with clk := { s.clk with lineRef := false } }.raise 0x782 noFunc 0 0
  .next (s.each (List.range 8) (fun s p => if (s.port p).st = .up then s.leaveUp p (s.bringUp p) true else s))

/-- LINE_REF_RETURN: the ports can train again. -/
def execLineRefReturn (s : State) : Res := .next { s with clk := { s.clk with lineRef := true } }

/-- TIME_INCR in force: within 1,000 ppm of 2.5 ns (R171). -/
def State.timeIncr (s : State) : Nat :=
  max (10737418240 - 10737418) (min (10737418240 + 10737418) (s.rdf R.TIME_INCR 0 40))

/-- What one cycle of PER_CLK slews by at most: 500 ppm of the increment. -/
def State.slewStep (s : State) : Nat := s.timeIncr * 500 / 1000000

/-- SLEW_COMPLETE: the cycles of PER_CLK pass in which what is left of the slew is used up at 500 ppm; then the increment is
TIME_INCR again (R171). -/
def execSlewComplete (s : State) : Res :=
  if !bit s.clk.running 5 then .next s else
  let n := ceilDiv s.line.slew.natAbs s.slewStep
  .next { s with line := { s.line with
    now := s.line.now + BitVec.ofNat 96 (n * s.timeIncr) + BitVec.ofInt 96 s.line.slew, slew := 0 } }

/-- One cycle of PER_CLK: Milepost time advances by TIME_INCR, and by 500 ppm of it more or less while a slew runs; the count
stands still while the clock does (R170, R171, R407). -/
def State.tick (s : State) : State :=
  if !bit s.clk.running 5 then s else
  let i := s.timeIncr
  let d : Int := (s.slewStep : Nat)
  let step := max (-d) (min d s.line.slew)
  { s with line := { s.line with now := s.line.now + BitVec.ofNat 96 i + BitVec.ofInt 96 step, slew := s.line.slew - step } }

end Sys2Proof.Machine
end

