-- ==== Sys2Proof/Machine/Shoulder.lean ====
section
/-!
DEFINITION. Machine/Shoulder.lean: shadow windows, the comparison, the vote and the substitution (R117 to R131).
-/
namespace Sys2Proof.Machine
open Sys2Proof

def State.setShld (s : State) (v : ShldState) : State := { s with shld := v }

/-- Whether shadow verification is on. -/
def State.shadowing (s : State) : Bool := s.shld.st == .standing || s.shld.st == .shadowing

/-- The next slot of the rotation, from `a` on (R118). -/
def State.rotate (s : State) (a : Nat) : Option Nat :=
  ([0, 1, 2, 3].map (fun k => (a + k) % 4)).find? (fun k => bit (s.rd R.CWAY_SHLD_CFG) k)

/-- SHADOW_WINDOW_OPEN (R118). -/
def execShadowWindowOpen (s : State) : Res :=
  if s.shld.st ≠ .standing ∨ !bit (s.rd R.CWAY_SHLD_CFG) 31 then .next s else
  match s.rotate s.shld.nextSlot with
  | none => .next s
  | some slot =>
    match s.slotInst slot with
    | none => .next s
    | some i =>
      .next ((s.setShld { s.shld with st := .shadowing, window := some slot, target := i }).bump R.CWAY_SHLD_WINDOW_CNT)

/-- SHADOW_WINDOW_END (Table 5-1). -/
def execShadowWindowEnd (s : State) : Res :=
  match s.shld.st, s.shld.window with
  | .shadowing, some slot =>
    .next (s.setShld { s.shld with st := .standing, window := none, nextSlot := (slot + 1) % 4 })
  | _, _ => .next s

/-- A run of a retained copy on instance `i`, with its echo, toll and inline records (R120, R121). -/
def State.runCopy (s : State) (i : Nat) (flip : Word) (c : ShadowCopy) : State × Word :=
  let (s, r) := s.runPass true i [] flip c.pkt.bytes (.start c.pkt.sp c.echoes c.tolls c.inlines)
  (s, r.digest)

/-- CWAY_SHLD_MM_INFO of a mismatch. -/
def State.mmInfo (s : State) (c : ShadowCopy) (outcome : Nat) : State :=
  s.wr R.CWAY_SHLD_MM_INFO (BitVec.ofNat 64 (at' c.inst 8 + at' (s.replayInst c.inst) 4 + outcome))

/-- The record of a mismatch as it happens (R125, Table 5-6): not replayed, so far. DESIGN CHOICE: until its vote the outcome reads
3 and the replay's digest 0. -/
def State.mismatch (s : State) (c : ShadowCopy) : State :=
  let s := s.each (List.range 16) (fun s k => s.wr (R.CWAY_SHLD_MM_SIGNPOST k) (BitVec.ofNat 64 (fld c.pkt.sp (32 * k) 32)))
  ((((s.wr (R.CWAY_SHLD_MM_DIGEST 0) (c.digest.setWidth 64)).wr (R.CWAY_SHLD_MM_DIGEST 1) (c.shoulder.setWidth 64)).wr
    (R.CWAY_SHLD_MM_DIGEST 2) 0).wr R.CWAY_SHLD_MM_TIME c.seen).mmInfo c 3

/-- The vote on a mismatch completes its record, where no later mismatch has taken its place. -/
def State.voted (s : State) (c : ShadowCopy) (outcome : Nat) (d : Word) : State :=
  if c.no = s.shld.mmNo then (s.wr (R.CWAY_SHLD_MM_DIGEST 2) (d.setWidth 64)).mmInfo c outcome else s

/-- SHADOW_PASS: the Shoulder takes its oldest copy (R119 to R124). -/
def execShadowPass (flip : Word) (s : State) : Res :=
  match s.shld.copies with
  | [] => .next s
  | c :: rest =>
    if !s.shadowing ∨ s.blockHeld 28 then .next s else
    let s := s.setShld { s.shld with copies := rest }
    if c.void then .next (s.bump R.CWAY_SHLD_VOID_CNT) else
    let (s, d) := s.runCopy 4 flip c
    let s := s.bump R.CWAY_SHLD_CMP_CNT
    if d = c.digest then .next (s.bump R.CWAY_SHLD_MATCH_CNT) else
    let c := { c with shoulder := d, seen := s.now, no := s.shld.mmNo + 1 }
    let s := (s.setShld { s.shld with mmNo := c.no }).bump R.CWAY_SHLD_MISMATCH_CNT
    let s := s.mismatch c
    if 64 ≤ s.shld.replays.length then .next (s.bump R.CWAY_SHLD_NO_REPLAY_CNT)
    else .next (s.setShld { s.shld with replays := s.shld.replays ++ [c] })

/-- The Shoulder is retired (R126). -/
def State.retireShoulder (s : State) : State :=
  let s := s.setShld { s.shld with st := .retired, window := none, copies := [] }
  let s := s.updCinst 4 (fun c => { c with role := .suspect })
  (s.wrf R.IDENT_CWAY 7 1 0).raise 0x286 noFunc 4 0

/-- The decision to substitute instance `n` (R127 steps 1 and 2): the window closes, replays on `n` are abandoned, `n` is
closed, and dispatch of every lane map entry naming it is held. -/
def State.decide_ (s : State) (n : Nat) : State :=
  let mine := s.shld.replays.filter (fun c => s.replayInst c.inst == n)
  let s := (s.each mine (fun s c => s.voted c 2 0)).bumpN R.CWAY_SHLD_NO_MAJ_CNT mine.length
  let rest := s.shld.replays.filter (fun c => s.replayInst c.inst != n)
  let s := (s.setShld { s.shld with
    st := .substituting, window := none, target := n, replayed := 0, copies := [], replays := rest }).wr
      R.CWAY_SHLD_SUB_TIME s.now
  s.each ((List.range 16).filter (fun i => s.rdf (R.PARSE_LANE_MAP i) 0 3 == n)) (fun s i => s.beginHold n i)

/-- The charges of an instance whose times lie within 1 s of now. -/
def State.chargesNow (s : State) (n : Nat) : List DWord :=
  (mapGet (fun _ => ([] : List DWord)) s.shld.charges n).filter (fun t =>
    decide (s.now.toNat - t.toNat ≤ 1000000000) && decide (t.toNat - s.now.toNat ≤ 1000000000))

/-- A charge (R124, R126, Table 5-5); two within 1 s make an active instance suspect, or retire the Shoulder. -/
def State.charge (s : State) (n replay : Nat) : State :=
  let near := s.now :: s.chargesNow n
  let s := (s.bump (R.CWAY_SHLD_CHARGE_CNT n)).wr (R.CWAY_SHLD_LAST_CHARGE n) s.now
  let s := s.setShld { s.shld with charges := mapSet (fun _ => []) s.shld.charges n near }
  let s := s.raise (0x280 + n) noFunc near.length replay
  if near.length < 2 || !s.shadowing then s
  else if n = 4 then s.retireShoulder
  else if (s.cinst n).role = .active then s.decide_ n else s

/-- Whether the replay of a mismatch can enter its instance: no recirculated pass or return waits there before it (R124). -/
def State.replayOpen (s : State) (c : ShadowCopy) : Bool :=
  s.instRuns (s.replayInst c.inst) && (s.cinst (s.replayInst c.inst)).recirc.isEmpty

/-- The vote on a mismatch whose replay on instance `i` gave digest `d` (R124 to R126, Table 5-2). -/
def State.vote (s : State) (c : ShadowCopy) (i : Nat) (d : Word) : State :=
  if d = c.digest then (s.voted c 1 d).charge 4 i
  else if d = c.shoulder then (s.voted c 0 d).charge c.inst i
  else ((s.voted c 2 d).bump R.CWAY_SHLD_NO_MAJ_CNT).raise 0x287 noFunc c.inst i

/-- TIE_BREAK_REPLAY: the oldest mismatch whose replay can enter is replayed and voted on; the lane map's packets follow it. -/
def execTieBreakReplay (flip : Word) (s : State) : Res :=
  match takeFirst s.replayOpen s.shld.replays with
  | none => .next s
  | some (c, rest) =>
    let i := s.replayInst c.inst
    let s := s.setShld { s.shld with replays := rest }
    let (s, d) := s.runCopy i flip c
    .next (((s.bump R.CWAY_SHLD_REPLAY_CNT).vote c i d).startPasses i)

/-- What a write of a slot to CWAY_SHLD_FORCE does (R127, R129). -/
def State.force (s : State) (slot : Nat) : State :=
  match s.slotInst slot with
  | some n => if s.shadowing && decide (n < 4) then s.decide_ n else s
  | none => s

/-- The passes inside a suspect instance are abandoned where they stand: which stages each has run a free value says, and what those
did stays, so that a gate metered before is metered again by the replay (R128). -/
def State.abandonRuns (s : State) (n : Nat) : State :=
  s.each (s.cinst n).retain (fun s h => match s.slotOf (spGet h.pkt.sp SP.WAYMARK) with
    | some g => (s.drew.stages false n g [] h.pkt.bytes (.start h.pkt.sp [] [] []) (List.range (fld s.fresh 0 5 % 24))).1
    | none => s)

/-- The registers of a replaced instance keep the values they have after step 3 (R129). -/
def State.freeze (s : State) (n : Nat) : State :=
  let r := s.regionOf n
  let s := s.wr (R.CWAY_RETAIN_LEVEL n) (BitVec.ofNat 64 (s.cinst n).retain.length)
  let s := s.each [0, 1] (fun s t =>
    (((s.wr (R.RTBL_ENTRIES n t) (BitVec.ofNat 64 (s.emEntries r t).length)).wr (R.RTBL_OVF_USED n t)
      (BitVec.ofNat 64 (s.ovfList r t).length)).wr (R.RTBL_DIGEST n t) (BitVec.ofNat 64 (s.emDigest r t))).wr
        (R.CWAY_TCAM_CRC n t) ((s.tcamCrc t).setWidth 64))
  (s.wr (R.RTBL_COPY_LEVEL n) 0).wr (R.RTBL_LEARN_LEVEL n) 0

/-- Step 3 of R127: queued requests and copies are discarded, instance 4 reaches the regions of `n`, and its learning-event
ring (Table 5-3). -/
def State.adopt (s : State) (n : Nat) : State :=
  let s := s.bumpN R.CWAY_SHLD_LEARN_LOST_CNT (s.learnQ n).length
  let s := s.bumpN (R.RTBL_COPY_LOST_CNT n) (s.copyQ n).length
  let s := (s.setLearnQ n []).setCopyQ n []
  let ring := mapGet (fun _ => (none : Option Nat)) s.rtbl.levRing n
  let lev := if ring.isSome then mapSet (fun _ => none) (mapSet (fun _ => none) s.rtbl.levRing 4 ring) n none
    else s.rtbl.levRing
  { s with rtbl := { s.rtbl with region := mapSet (fun i => i) s.rtbl.region 4 (s.regionOf n), levRing := lev } }

/-- Every lane map entry naming `n` is rewritten to 4, LANE_MOVED raised for each, and holds behind `n` stand behind 4. -/
def State.remap (s : State) (n : Nat) : State :=
  s.each (List.range 16) (fun s i =>
    let s := match s.hold i with
      | some (old, held) => if old = n then s.setHold i (some (4, held)) else s
      | none => s
    if s.rdf (R.PARSE_LANE_MAP i) 0 3 = n then (s.wr (R.PARSE_LANE_MAP i) 4).raise 0x218 noFunc i 4 else s)

/-- Steps 4 and 5 of R127: the passes of `n` run again on instance 4 in order of entry, then what waited for `n`; then the
holds of the entries that named `n` end. -/
def State.takeOver (s : State) (n : Nat) : State :=
  let c := s.cinst n
  let again := c.retain.map (fun h =>
    { h with pkt := { h.pkt with sp := spSet h.pkt.sp SP.CWAY 4 }, time := s.now, copied := false, void := false })
  let s := s.setCinst n ⟨.suspect, c.slot, [], [], []⟩
  let s := s.setCinst 4 ⟨.serving, c.slot, c.input, c.recirc, again⟩
  let s := s.bumpN (R.CWAY_IN_PKT_CNT 4) again.length
  let s := (s.setShld { s.shld with st := .serving, replayed := again.length }).startPasses 4
  s.each ((List.range 16).filter (fun i =>
    s.rdf (R.PARSE_LANE_MAP i) 0 3 == 4 && (s.hold i).any (fun h => h.1 == 4))) (fun s i => s.endHold i)

/-- SUBSTITUTION: instance 4 takes the place of the suspect (R127, R128). The time to the first new pass is a free value of
at most 5,000 ns. -/
def execSubstitution (s : State) : Res :=
  if s.shld.st ≠ .substituting then .next s else
  let n := s.shld.target
  let k := (s.cinst n).retain.length
  let s := (((((s.abandonRuns n).pauseEnd n (s.paused n)).freeze n).adopt n).remap n).takeOver n
  let s := s.drew.wr R.CWAY_SHLD_SUB_NS (BitVec.ofNat 64 (s.fresh.toNat % 5001))
  let s := (s.wrf R.IDENT_CWAY 7 1 0).wrf R.IDENT_CWAY 4 3 n
  let s := s.raise 0x285 noFunc n k
  .next (s.setXing 0x285 { s.xing 0x285 with time := s.rd R.CWAY_SHLD_SUB_TIME })

/-- SHOULDER_FORCE (code 0x37). -/
def execShoulderForce (ch : BitVec 13) (seq : BitVec 4) (s : State) : Res :=
  .next (s.gcs ch seq 0x37 (fun s c => if 3 < c.imm then (s, .badArg) else (s.force c.imm, .ok 0)))

/-- SHOULDER_CFG (code 0x36): reserved bits of the register are not written (R18). -/
def execShoulderCfg (ch : BitVec 13) (seq : BitVec 4) (s : State) : Res :=
  .next (s.gcs ch seq 0x36 (fun s c =>
    if fld c.arg 32 16 ≠ 0 ∨ c.arg &&& 0x7C0000F0 ≠ 0 then (s, .badArg)
    else (s.wr R.CWAY_SHLD_CFG (BitVec.ofNat 64 c.imm), .ok 0)))

end Sys2Proof.Machine
end

