-- ==== Sys2Proof/Machine/Recorder.lean ====
section
/-!
DEFINITION. Machine/Recorder.lean: the Milestone recorder: samples, checkpoints, the record log in flash, its clearing, and what
it loads at a cold start (R470 to R477).
-/
namespace Sys2Proof.Machine
open Sys2Proof

/-- The slots of the record log (Table 21-9). -/
def logSlots : Nat := 1048576

/-- SEQ of a record. -/
def recSeq (r : BitVec 512) : Nat := fld r 0 32

/-- The number by which the recorder counts merged records that are not EVENT records (R474). -/
def kindSrc (kind : Nat) : Nat := 2048 + kind

/-- A change of the debug level: its record and its event (R463, Tables 21-13, 21-14). -/
def State.levelChanged (s : State) (old new : Nat) : State :=
  (s.record (kindSrc 11) 11 0 1 (evDetail noFunc new old) (at' new 0 + at' old 8 + at' s.boot.fuse.sec.toNat 16)).raise
    0x7E5 noFunc new old

/-- Whether a record's CRC holds (Table 21-12). -/
def recGood (r : BitVec 512) : Bool := (crc32c (bvBytes r |>.take 60)).toNat == fld r 480 32

/-- A flash operation at `addr` has failed: RECORDER_FLASH_ERROR, and MLST_STATUS shows it (Tables 21-14, 21-15). -/
def State.flashErr (s : State) (addr code : Nat) : State :=
  ((s.wrf R.MLST_STATUS 30 2 2).bump R.MLST_FLASH_ERR_CNT).raise 0x7E2 noFunc (addr / 256) code

/-- The oldest SEQ kept (R475). -/
def State.firstSeq (s : State) : Nat := (s.rd R.MLST_NEXT_SEQ).toNat - logSlots

/-- A record reaches its flash slot. The first overwrite of each pass round the log makes a LOG_WRAP record (R475). A program
that fails leaves an unknown content in the slot. -/
def State.logPut (s : State) (r : BitVec 512) (ok : Bool) : State :=
  let seq := recSeq r
  let slot := seq % logSlots
  let put := fun (s : State) (v : BitVec 512) =>
    { s with obs := { s.obs with log := mapSet (fun _ => 0) s.obs.log slot v } }
  let s := if ok then (put s r).wrf R.MLST_STATUS 30 2 0 else ((put s s.fresh).drew).flashErr (0x800000 + slot * 64) 1
  if logSlots ≤ seq ∧ slot = 0 then
    let s := s.bump R.MLST_WRAP_CNT
    let first := (s.rd R.MLST_NEXT_SEQ).toNat + 1 - logSlots
    (s.record (kindSrc 9) 9 0 1 0 first).raise 0x7E0 noFunc first 0
  else s

/-- The records still queued are programmed, oldest first. -/
def State.drainLog (s : State) : State :=
  ({ s with obs := { s.obs with queue := [] } }).each s.obs.queue (fun s r => s.logPut r true)

/-- A record the Tether writes directly (R474): what is queued reaches flash before it, in SEQ order. -/
def State.recordDirect (s : State) (kind : Nat) (detail : DWord) (data : Nat) : State :=
  let s := s.drainLog
  let r := recordOf s kind 1 1 detail data
  (s.bump R.MLST_NEXT_SEQ).logPut r true

/-- RECORD_WRITE: the oldest queued record is programmed (R474). -/
def execRecordWrite (ok : Bool) (s : State) : Res :=
  match s.obs.queue with
  | [] => .next s
  | r :: rest => .next (({ s with obs := { s.obs with queue := rest } }).logPut r ok)

/-- The MLST registers a checkpoint holds: operating seconds, power cycles, cold counts, histograms, extremes (Table 21-9). -/
def ckptReg (a : Nat) : Bool :=
  a == R.MLST_OP_SECONDS || a == R.MLST_POWER_CYCLES || (decide (0x210080 ≤ a) && decide (a < 0x2100A0)) ||
  (decide (0x210200 ≤ a) && decide (a < 0x210400)) || (decide (0x210800 ≤ a) && decide (a < 0x211000))

/-- A checkpoint written to the next sector of its ring, or failing there: in its erase or its programming (R471). -/
def State.checkpoint (s : State) (ok : Bool) : State :=
  let seq := match s.obs.ckpt with
    | some c => c.seq + 1
    | none => 0
  if ok then
    { s with obs := { s.obs with ckpt := some ⟨seq, mapKeep ckptReg s.regs, (s.rd R.MLST_NEXT_SEQ).toNat⟩ } }
  else s.drew.flashErr (0x20000 + seq % 64 * 65536) (fld s.fresh 0 1)

/-- CHECKPOINT (R471): every 60 s, outside COLD_HELD. -/
def execCheckpoint (ok : Bool) (s : State) : Res := .next (if s.clk.dev = .coldHeld then s else s.checkpoint ok)

/-- HOUR_END: one SUMMARY record for each source with merged occurrences (R474, Table 21-13). -/
def execHourEnd (s : State) : Res :=
  let pend := s.obs.pendCnt
  let s := { s with obs := { s.obs with pendCnt := [], hourCnt := [] } }
  .next (s.each pend (fun s e =>
    let src := if 2048 ≤ e.1 then e.1 - 2048 else e.1
    (s.record e.1 7 2 e.2 0 (src + at' (e.2 % 4294967296) 32)).raise 0x7E3 noFunc src (satTo 65535 e.2)))

/-- A signed 16-bit reading. -/
def sInt16 (x : Nat) : Int := (BitVec.ofNat 16 x).toInt

/-- The readings of the sensors from `a`, `n` of them, the hottest. -/
def State.hottest (s : State) (a n : Nat) : Int :=
  (List.range n).foldl (fun (m : Int) i => max m (sInt16 (s.rdf (R.TETHER_TEMP (a + i)) 0 16))) (sInt16 (s.rdf (R.TETHER_TEMP a) 0 16))

/-- The bin of a temperature in 1/16 °C (Table 21-10, h = 0 and 1). -/
def tempBin (t : Int) : Nat := if t < 0 then 0 else min 31 (1 + t.toNat / 64)

/-- One second more in a bin. -/
def State.histAdd (s : State) (h b : Nat) : State := s.bump (R.MLST_HIST h b)

/-- Extreme `q` meets a new greatest and least value (Table 21-11). -/
def State.extreme (s : State) (q : Nat) (hi lo : Int) : State :=
  let w := s.rd (R.MLST_EXTREME q 0)
  let hour := BitVec.ofNat 64 (s.hour % 16777216)
  let s := if sInt16 (fld w 0 16) < hi then
      (s.wrf (R.MLST_EXTREME q 0) 0 16 (BitVec.ofInt 16 hi).toNat).wr (R.MLST_EXTREME q 1) hour else s
  if lo < sInt16 (fld w 16 16) then
    (s.wrf (R.MLST_EXTREME q 0) 16 16 (BitVec.ofInt 16 lo).toNat).wr (R.MLST_EXTREME q 2) hour else s

/-- RECORDER_SAMPLE: a second of operation (R471, R472, R465's and R464's limits by the second). The operands give the
second's mean power in units of 0.1 W, passes begun, bits received, sent and moved by DMA, and the share of issue cycles in
units of 1/1,024. -/
def execRecorderSample (power passes lineRx lineTx dma issue : Nat) (s : State) : Res :=
  if s.clk.dev = .coldHeld ∨ s.tether.boardTest then .next s else
  let s := s.bump R.MLST_OP_SECONDS
  let s := s.wr R.MLST_HOURS (BitVec.ofNat 64 (s.hour % 16777216))
  let die := s.tether.secDie.getD (s.hottest 0 16)
  let hbm := s.tether.secHbm.getD (s.hottest 16 3)
  let now := s.rdf R.TETHER_POWER 0 16
  let (lo, hi) := s.tether.secPower.getD (now, now)
  let s := (s.histAdd 0 (tempBin die)).histAdd 1 (tempBin hbm)
  let s := (s.histAdd 2 (min 31 (power / 60))).histAdd 3 (min 31 (passes / 200000000))
  let s := (s.histAdd 4 (min 31 (lineRx / 50000000000))).histAdd 5 (min 31 (lineTx / 50000000000))
  let s := (s.histAdd 6 (min 31 (dma / 120000000000))).histAdd 7 (min 31 (issue / 32))
  let s := s.each (List.range 19) (fun s q => let t := sInt16 (s.rdf (R.TETHER_TEMP q) 0 16); s.extreme q t t)
  let s := s.each (List.range 8) (fun s r => let v := sInt16 (s.rdf (R.TETHER_RAIL_MV r) 0 16); s.extreme (19 + r) v v)
  let s := (s.extreme 27 hi lo).wrf R.TETHER_POWER 16 16 hi
  let s := { s with tether := { s.tether with secDie := none, secHbm := none, secPower := none } }
  let s := s.each (List.range 8) (fun s k => s.setSink k { s.sink k with inSecond := 0 })
  .next { s with obs := { s.obs with fabricInSecond := 0 } }

/-- The histogram seconds there are: each second adds 1 to one bin of every histogram. -/
def State.histSeconds (s : State) : Nat := ((List.range 32).map (fun b => (s.rd (R.MLST_HIST 0 b)).toNat)).sum

/-- RECORDER_CLEAR (code 0x82, R477): the manager's, on its own Kite line, while the firmware is RUNNING. -/
def execRecorderClear (ch : BitVec 13) (seq : BitVec 4) (s : State) : Res :=
  .next (s.gcs ch seq 0x82 (fun s c =>
    let mask := leAt c.args 0 1
    let reason := leAt c.args 4 4
    if ch.toNat ≠ s.manager ∨ s.kite.fw ≠ .running then (s, .denied)
    else if 3 < mask ∨ leAt c.args 1 3 ≠ 0 then (s, .badArg)
    else
      let s := s.record (kindSrc 8) 8 0 1 0 (mask + at' ch.toNat 8 + at' reason 32 + at' s.histSeconds 64)
      let s := s.checkpoint true
      let s := if mask % 2 = 1 then { s with regs := mapKeep (fun a => !(decide (0x210800 ≤ a) && decide (a < 0x211000))) s.regs } else s
      let s := if mask / 2 % 2 = 1 then { s with regs := mapKeep (fun a => !(decide (0x210200 ≤ a) && decide (a < 0x210400))) s.regs } else s
      let s := (s.bump R.MLST_CLEAR_CNT).wr R.MLST_LAST_CLEAR_HOUR (BitVec.ofNat 64 (s.hour % 16777216))
      (s.raise 0x7E1 noFunc mask (reason % 65536), .ok 0)))

/-- The recorder loads its latest checkpoint and goes on after the newest record of the log; records that fail their CRC are
skipped and counted (R470). -/
def State.recorderLoad (s : State) : State :=
  let s := match s.obs.ckpt with
    | some c => s.each c.regs (fun s e => s.wr e.1 e.2)
    | none => s
  let s := s.wr R.MLST_HOURS (BitVec.ofNat 64 (s.hour % 16777216))
  let bad := s.obs.log.filter (fun e => !recGood e.2)
  let next := (s.obs.log.filter (fun e => recGood e.2)).foldl (fun m e => max m (recSeq e.2 + 1)) 0
  let next := match s.obs.ckpt with
    | some c => max next c.nextSeq
    | none => next
  let s := s.wr R.MLST_NEXT_SEQ (BitVec.ofNat 64 next)
  s.each bad (fun s e => (s.bump R.MLST_FLASH_ERR_CNT).raise 0x7E2 noFunc ((0x800000 + e.1 * 64) / 256) 2)

/-- A cold start is counted and recorded (R471, Table 21-13). -/
def State.coldStart (s : State) : State :=
  let cause := s.clk.coldCause.toNat
  let s := if cause = 0 then s.bump R.MLST_POWER_CYCLES else s
  let s := s.bump (R.MLST_COLD_CNT cause)
  let state := s.rdf R.IDENT_STATE 0 3 + at' (b2n s.boot.fuse.trust) 5 + at' s.boot.fuse.sec.toNat 6
  s.record (kindSrc 2) 2 0 1 0 (cause + at' (b2n s.tether.boardTest) 8 + at' (s.rd R.TETHER_ST_RESULT).toNat 32 +
    at' (s.rd R.IDENT_ENG).toNat 64 + at' (s.rd R.IDENT_CWAY).toNat 96 + at' state 128)

end Sys2Proof.Machine
end

