-- ==== Sys2Proof/Machine/Reset.lean ====
section
/-!
DEFINITION. Machine/Reset.lean: what the warm, cold and block resets clear and keep (Table 18-2, R409, R416), and the Tether's
escalation (R429).
-/
namespace Sys2Proof.Machine
open Sys2Proof

/-- First offset of a block of Table 1-4, or for 24 + i of carriageway instance i, and its size. -/
def blockBase (b : Nat) : Nat :=
  if b ≤ 6 then b * 0x10000 else if b = 7 then 0x80000 else if b = 8 then 0xD0000 else if b = 9 then 0xE0000
  else if b = 10 then 0x100000 else if b < 24 then 0x190000 + (b - 11) * 0x10000 else 0x80000 + (b - 24) * 0x10000

def blockSize (b : Nat) : Nat :=
  if b = 6 ∨ b = 9 then 0x20000 else if b = 7 then 0x50000 else if b = 10 then 0x88000 else 0x10000

/-- Whether device offset `a` lies in block `b`. -/
def inBlock (b a : Nat) : Bool := decide (blockBase b ≤ a) && decide (a < blockBase b + blockSize b)

/-- The event sources of a block (the event tables of the chapters). -/
def blockEvent (b n : Nat) : Bool :=
  let within := fun lo hi => decide (lo ≤ n) && decide (n ≤ hi)
  match b with
  | 1 => within 0x000 0x03F
  | 2 => within 0x040 0x05F
  | 3 => within 0x100 0x17F
  | 4 => within 0x180 0x1A0
  | 5 => within 0x200 0x23F
  | 8 => within 0x300 0x37F
  | 9 => within 0x380 0x3FF
  | 10 => within 0x400 0x511 || n == 0x513
  | 11 => n == 0x512 || n == 0x514
  | 12 => within 0x600 0x67F
  | 13 => within 0x680 0x6FF
  | 14 => within 0x700 0x73F
  | 15 => within 0x740 0x742
  | 16 => within 0x743 0x77F
  | 19 => within 0x7E0 0x7E3
  | 20 => within 0x7E4 0x7FF
  | 21 => within 0x1A1 0x1FF
  | 23 => within 0x7C0 0x7DF
  | _ => 24 ≤ b && (n == 0x240 + (b - 24) || n == 0x245 + (b - 24) || n == 0x24A + (b - 24) || n == 0x255 + (b - 24))

/-- Whether a bit of CLKRST_BLOCK_RESET has an effect (Table 18-11). -/
def blockCan (b : Nat) : Bool := decide (b < 29) && !(b ∈ [0, 6, 7, 17, 18, 22] : Bool)

/-- The packets in the parser and the follow tables are dropped for the reset of block `b`. -/
def State.parseDrop (s : State) (b : Nat) : State :=
  let ps := s.parse.input.flatMap (fun e => e.2) ++ s.parse.follow.flatMap (fun e => e.2.held) ++
    s.parse.hold.flatMap (fun e => match e.2 with | some h => h.2 | none => [])
  let s := { s with parse := { ParseState.reset with nextHandle := s.parse.nextHandle } }
  s.each ps (fun s p => s.heldDrop b p)

/-- The packets in carriageway instance `i`. -/
def State.instDrop (s : State) (i b : Nat) : State :=
  let c := s.cinst i
  let s := s.updCinst i (fun c => { c with input := [], recirc := [], retain := [] })
  let s := if i = 4 then { s with shld := { s.shld with copies := [], replays := [] } } else s
  let s := s.if_ (i == 4) (fun s => s.each [0, 1, 2, 3] State.startPasses)
  s.each (c.input ++ c.recirc ++ c.retain.map (fun h => h.pkt)) (fun s p => s.heldDrop b p)

/-- The packets in the traffic manager. -/
def State.tmDrop (s : State) (b : Nat) : State :=
  let qs := s.tm.leafQ.flatMap (fun e => e.2.map (fun q => q.pkt))
  let ins := s.tm.input
  let s := { s with tm := { s.tm with leafQ := [], input := [] } }
  (s.each qs (fun s p => s.heldDropLate b p)).each ins (fun s e => s.tmHeldDrop b e.1 e.2)

/-- The packets the Path Engines hold: in slots, in channels and in orphan queues. -/
def State.engDrop (s : State) (b : Nat) : State :=
  let ps := s.eng.thread.flatMap (fun e => e.2.held) ++
    s.eng.chan.flatMap (fun e => e.2.msgs.filterMap (fun m => m.pkt)) ++
    s.eng.orphan.flatMap (fun e => e.2.filterMap (fun o => o.msg.pkt))
  let s := { s with eng := { s.eng with thread := [], chan := [], orphan := [] } }
  s.each ps (fun s p => s.heldDrop b p)

/-- The packets the Junction holds; threads that wait for it to take their messages go on. -/
def State.jctDrop (s : State) (b : Nat) : State :=
  let js := s.eng.jct
  let ps := s.eng.classQ.flatMap (fun e => e.2.map (fun x => x.1)) ++ js.filterMap (fun j => j.msg.pkt)
  let s := { s with eng := { s.eng with classQ := [], jct := [], fwInbox := [], classTurn := [] } }
  let s := s.each js (fun s j => (s.wakeSender j.fromEng j.fromThr).wakeWriters j.toEng j.toCh)
  s.each ps (fun s p => s.heldDrop b p)

/-- The packets the RTE holds; those not yet in cells are only counted. -/
def State.rteDropAll (s : State) (b : Nat) : State :=
  let ps := s.rte.input ++ s.rte.layby.map (fun l => l.pkt)
  let n := s.rte.waitTx.length
  let s := { s with rte := { s.rte with input := [], layby := [], waitTx := [] } }
  (s.each ps (fun s p => s.heldDropLate b p)).bumpN (R.CLKRST_BLOCK_DROP_CNT b) n

/-- The packets the SCE holds. -/
def State.sceDropAll (s : State) (b : Nat) : State :=
  let ps := s.sce.input
  { s with sce := { s.sce with input := [] } }.each ps (fun s p => s.heldDropLate b p)

/-- The packets the Ring Manager holds. -/
def State.ringDropAll (s : State) (b : Nat) : State :=
  let ps := s.rings.rxIn.map (fun e => e.2) ++ s.rings.rxWait.map (fun e => e.2.2)
  { s with rings := { s.rings with rxIn := [], rxWait := [] } }.each ps (fun s p => s.heldDropLate b p)

/-- The queue pair indices with the generations the QP index table in HBM keeps (R325). -/
def keepGens (m : SMap Qp) : SMap Qp :=
  m.filterMap (fun e => if e.2.gen = 0 then none else some (e.1, { Qp.absent with gen := e.2.gen }))

/-- What the HIU keeps of a link through a reset: the level of its PERST_N input. -/
def linkPins (m : SMap HLink) : SMap HLink :=
  m.filterMap (fun e => if e.2.perst then some (e.1, { HLink.reset with perst := true }) else none)

/-- The reads that rings have asked for serve nothing any more. -/
def State.ringReadsGone (s : State) : State :=
  let ofRing := fun (o : DmaOwner) => match o with
    | .indexRead _ => true
    | .descriptor _ _ => true
    | _ => false
  { s with hiu := { s.hiu with
    waitRead := s.hiu.waitRead.filter (fun r => !ofRing r.owner)
    tags := s.hiu.tags.map (fun t => if ofRing t.req.owner then { t with req := { t.req with owner := .gone } } else t) } }

/-- The state of block `b` returns to its reset values, and the packets in it are dropped (R416 steps 3 and 4). -/
def State.blockClear (s : State) (b : Nat) : State :=
  match b with
  | 1 =>
    let s := s.each [0, 1, 2, 3] (fun s k => if (s.link k).dlUp then s.linkDown k .reset else s)
    { s with hiu := { s.hiu with
      link := linkPins s.hiu.link, tags := [], waitRead := [], winBusy := false, winRefused := false, peer := [], atc := []
      ide := [], doe := [], turnOff := [] } }
  | 2 => { s with fnm := .reset }
  | 3 => { (s.ringDropAll 3).ringReadsGone with rings := .reset }
  | 4 => { s with line := { s.line with port := [], mgmtUp := false } }.flushFallen s
  | 5 => s.parseDrop 5
  | 8 => { s with rtbl := { RtblState.reset with region := s.rtbl.region } }
  | 9 => let s := s.tmDrop 9
         { s with tm := { TmState.reset with drains := s.tm.drains } }
  | 10 => let s := s.engDrop 10
          { s with eng := { s.eng with
            run := [], preg := [], sreg := [], imem := [], dmem := [], badImem := [], badDmem := [], armed := []
            ptr := [], slots := [], late := [] } }
  | 11 => s.jctDrop 11
  | 12 => let s := s.rteDropAll 12
          { s with rte := { RteState.reset with qp := keepGens s.rte.qp } }
  | 13 => { s.sceDropAll 13 with sce := .reset }
  | 14 =>
    let waits := s.ciph.switchWait
    let st := openStatus s.fresh
    let s := { s.drew with ciph := { CiphState.reset with cores := s.ciph.cores, deleting := s.ciph.deleting } }
    s.each waits (fun s w => s.finish (some (w.2.1, w.2.2)) st 0)
  | 15 =>
    let s := (s.parseDrop 15).each [0, 1, 2, 3, 4] (fun s i => s.instDrop i 15)
    let s := ((((s.tmDrop 15).engDrop 15).jctDrop 15).rteDropAll 15).sceDropAll 15
    let s := s.ringDropAll 15
    { s with hbm := { s.hbm with dieUsed := 0, spillUsed := 0, stageUsed := 0, stageRes := 32768, ingressRes := 65536 } }
  | 16 => { s with hbm := { s.hbm with laneErr := [], patrol := 0 } }
  | 19 => { s with obs := { s.obs with queue := [], hourCnt := [], pendCnt := [], extraOwn := [] } }
  | 20 => { s with obs := { s.obs with sink := [], fabricInSecond := 0 } }
  | 21 => { s with line := { s.line with now := 0, slew := 0 } }
  | 23 => { s with boot := { s.boot with meas := [], log := [] } }
  | _ => if 24 ≤ b then s.instDrop (b - 24) b else s

/-- The registers that stay as they are through a reset of their block: CWAY_INST_STATUS and ENG_STATUS are states and not kept
here; BOOT_MEAS_LOCK clears only when control core 0 enters reset (R31, R447). -/
def blockKeeps (b a : Nat) : Bool := !inBlock b a || a == R.BOOT_MEAS_LOCK

/-- The words the crossings into a block hold. -/
def State.wordsInto (s : State) (b : Nat) : Nat :=
  ((s.evt.words.filter (fun e => e.1 % 32 == b)).map (fun e => e.2.length)).sum

/-- The crossings of a block in reset (R416 steps 2 and 3): words into and out of it are discarded, its events are cleared
without delivery, its counts are delivered. -/
def State.crossingsReset (s : State) (b : Nat) : State :=
  let ns := (List.range 2048).filter (blockEvent b)
  let s := { s with evt := { s.evt with
    words := mapKeep (fun x => x % 32 != b && x / 32 != b) s.evt.words
    xing := mapKeep (fun n => !blockEvent b n) s.evt.xing } }
  s.each ns (fun s n => if s.delta (R.EVT_COUNT n) = 0 then s else s.deliverDelta (R.EVT_COUNT n))

/-- The reset value of lane map entry `i` under the assignment in force (R49, R130, R433). -/
def State.laneReset (s : State) (i : Nat) : Nat :=
  match s.slotInst (i % 4) with
  | some n => n
  | none =>
    let v := s.rd R.CWAY_SHLD_SPLIT
    if i < 8 then fld v 0 3 else if i < 12 then fld v 3 3 else fld v 6 3

/-- Every lane map entry at its reset value (R49). DESIGN CHOICE: a reset, and the Tether's write at self-test, raise no
LANE_MOVED, which the spec gives for LANE_MAP_SET and the substitution. -/
def State.lanesReset (s : State) : State :=
  s.each (List.range 16) (fun s i => s.wr (R.PARSE_LANE_MAP i) (BitVec.ofNat 64 (s.laneReset i)))

/-- A block enters reset (R416 steps 1 to 4). -/
def State.blockReset (s : State) (b : Nat) : State :=
  if !blockCan b || s.blockHeld b then s else
  let n := s.wordsInto b
  let s := { s with clk := { s.clk with
    blockDrops := mapSet (fun _ => 0) s.clk.blockDrops b (s.rd (R.CLKRST_BLOCK_DROP_CNT b)) } }
  let s := s.wrf R.CLKRST_BLOCK_RESET b 1 1
  let s := s.blockClear b
  let s := { s with regs := mapKeep (blockKeeps b) s.regs }.if_ (b == 5) State.lanesReset
  ((s.crossingsReset b).bumpN (R.CLKRST_FLUSH_CNT b) n).raise 0x786 noFunc b (satTo 65535 n)

/-- A block leaves reset (R416 step 5). The recorder loads again from its flash (DEDUCED from R470). -/
def State.blockRelease (s : State) (b : Nat) : State :=
  if !s.blockHeld b then s else
  let dropped := (s.rd (R.CLKRST_BLOCK_DROP_CNT b) - mapGet (fun _ => 0) s.clk.blockDrops b).toNat
  let s := { s with clk := { s.clk with blockDrops := mapDel s.clk.blockDrops b } }
  let s := (s.wrf R.CLKRST_BLOCK_RESET b 1 0).raise 0x787 noFunc b (satTo 65535 dropped)
  if b = 19 then s.recorderLoad else s

/-- BLOCK_RESET: the Tether sets a bit of CLKRST_BLOCK_RESET. -/
def execBlockReset (b : Fin 29) (s : State) : Res := .next (s.blockReset b.val)

/-- BLOCK_RESET_RELEASE: the Tether clears it. -/
def execBlockResetRelease (b : Fin 29) (s : State) : Res := .next (s.blockRelease b.val)

/-- The registers a warm reset keeps: those of TETHER, MLST, TIME and CLKRST, and those of the Keeps column that are not states
(Table 18-2). -/
def warmKeeps (a : Nat) : Bool :=
  inBlock 17 a || inBlock 18 a || inBlock 19 a || inBlock 21 a || a == R.IDENT_ENG || a == R.IDENT_CWAY || a == R.PBUF_ROWS ||
  (decide (R.HBMC_REPAIR 0 ≤ a) && decide (a < R.HBMC_REPAIR 3)) || a == R.CWAY_SHLD_SPLIT || a == R.CWAY_SHLD_SUB_TIME ||
  a == R.CWAY_SHLD_SUB_NS


/-- The substitution in force is marked in the field map and recorded, where its event has not brought that about yet (R129). -/
def State.subKept (s : State) : State :=
  let d := evDetail noFunc (fld (s.rd R.IDENT_CWAY) 4 3) s.shld.replayed
  (s.watch 0x285 1 d).recOccur 0x285 1 d

/-- A substitution that a warm reset finds under way is in force after it (R129): the instance retired, the Shoulder serving,
marked and recorded as one that completes. One that has completed is, too, where its event is still on its way. -/
def State.subHolds (s : State) : State :=
  if s.shld.st ≠ .substituting then (if s.delta (R.EVT_COUNT 0x285) = 0 then s else s.subKept) else
  let n := s.shld.target
  let slot := (s.cinst n).slot
  let s := (s.setCinst n ⟨.suspect, slot, [], [], []⟩).setCinst 4 ⟨.serving, slot, [], [], []⟩
  let s := { s with
    shld := { s.shld with st := .serving }
    rtbl := { s.rtbl with region := mapSet (fun i => i) s.rtbl.region 4 (mapGet (fun i => i) s.rtbl.region n) } }
  ((s.wrf R.IDENT_CWAY 7 1 0).wrf R.IDENT_CWAY 4 3 n).subKept

/-- Everything a warm reset clears is cleared and all else kept (Table 18-2). Blocks the spec says the firmware reinitialises
are in their reset states, the bytes of HBM as they were. -/
def State.warmClear (s : State) : State :=
  let s := s.subHolds
  let st := if s.shld.st = .shadowing then ShldSt.standing else s.shld.st
  let insts := (List.range 5).foldl (fun m i => mapSet CwayInst.reset m i
    { s.cinst i with input := [], recirc := [], retain := [] }) ([] : SMap CwayInst)
  let t : State := { State.reset with
    regs := mapKeep warmKeeps s.regs
    clk := s.clk
    cway := { CwayState.reset with insts := insts }
    rtbl := { RtblState.reset with region := s.rtbl.region }
    shld := { ShldState.reset with st := st, target := s.shld.target, replayed := s.shld.replayed }
    line := { LineState.reset with now := s.line.now, slew := s.line.slew }
    eng := { EngState.reset with role := s.eng.role, faults := s.eng.faults }
    hiu := { HiuState.reset with
      hostSplit := s.hiu.hostSplit, perstFull := s.hiu.perstFull, mgrSel := s.hiu.mgrSel, link := linkPins s.hiu.link }
    kite := { KiteState.reset with fwGen := s.kite.fwGen }
    rte := { RteState.reset with qp := keepGens s.rte.qp }
    ciph := { CiphState.reset with cores := s.ciph.cores }
    hbm := { HbmState.reset with byte := s.hbm.byte }
    tether := { s.tether with ping := none, hungHeld := [] }
    boot := { BootState.reset with
      flash0 := s.boot.flash0, flash1 := s.boot.flash1, fuse := s.boot.fuse, strapOrder := s.boot.strapOrder
      eid := s.boot.eid, busOwnerSet := s.boot.busOwnerSet, chunkIn := s.boot.chunkIn, chunkOut := s.boot.chunkOut }
    obs := { s.obs with cwSelect := [], rwCursor := [], grant := [], sink := [], fabricInSecond := 0 }
    out := s.out, free := s.free, pending := s.pending }
  t.lanesReset

/-- A fall of the debug level is recorded (R463, R486). -/
def State.levelFell (s : State) (old : Nat) : State :=
  if old = 0 then s else s.levelChanged old 0

/-- A warm trigger in BOOT or RUNNING (R409, R410): every block of the scope is cleared and held; the control complex enters
reset, so FW_ABSENT is raised (R288, R430). -/
def State.warmReset (s : State) (cause : Nat) : State :=
  if s.inReset then s else
  let old := s.level
  let gen := s.kite.fwGen.toNat
  let s := (s.wr R.CLKRST_LAST_WARM_TIME s.now).bump R.CLKRST_WARM_CNT
  let s := s.warmClear
  let s := { s with clk := { s.clk with dev := .warmHeld, warmCause := BitVec.ofNat 4 cause } }
  (s.levelFell old).raise 0x065 noFunc 0 gen

/-- A cold reset (Table 18-2): everything on the die is cleared but fuses, boot flash and recorder flash, and held. -/
def State.coldReset (s : State) (cause : Nat) : State :=
  let t : State := { State.reset with
    clk := { ClkState.reset with
      dev := .coldHeld, lock := false, running := 0, coldCause := BitVec.ofNat 4 cause
      suppliesValid := s.clk.suppliesValid, sysRstN := s.clk.sysRstN }
    hiu := { HiuState.reset with link := linkPins s.hiu.link }
    tether := { TetherState.reset with startRuns := false, mapFlash := s.tether.mapFlash, mapSeq := s.tether.mapSeq }
    boot := { BootState.reset with flash0 := s.boot.flash0, flash1 := s.boot.flash1, fuse := s.boot.fuse }
    obs := { ObsState.reset with log := s.obs.log, ckpt := s.obs.ckpt }
    out := s.out, free := s.free, pending := s.pending }
  let t := if s.tether.tripN then t else t.emit (.tripN false)
  if s.tether.faultN then t else t.emit (.faultN false)

/-- An occurrence of the Tether's reaches EVT, the recorder and the Tether's queue before the reset that follows it. -/
def State.raiseNow (s : State) (n obj code : Nat) : State :=
  let s := s.raise n noFunc obj code
  (s.occurrence n (evDetail noFunc obj code) s.now).setXing n .idle

/-- Operating seconds. -/
def State.opSeconds (s : State) : Nat := (s.rd R.MLST_OP_SECONDS).toNat

/-- A warm reset that the Tether causes, or the cold reset in its place when it is the third in an hour of operation (R429). -/
def State.tetherReset (s : State) (cause : Nat) : State :=
  if s.inReset then s else
  let recent := s.tether.warmTimes.filter (fun t => decide (s.opSeconds < t + 3600))
  if 2 ≤ recent.length then (s.coldReset 3).raise 0x798 noFunc (recent.length + 1) 0
  else ({ s with tether := { s.tether with warmTimes := s.opSeconds :: recent } }).warmReset cause

/-- WARM_RESET: WARM_RST_N goes low (cause 1). -/
def execWarmReset (s : State) : Res := .next (s.warmReset 1)

/-- CLKRST_RESET_REQ: a keyed write by the firmware (Table 18-10, cause 3). -/
def execClkrstResetReq (v : Word) (s : State) : Res :=
  .next (if fld v 16 16 = 0x5752 ∧ bit v 0 then s.warmReset 3 else s)

/-- PERST_ASSERT: PERST_N of link `k` goes low; with PERST_FULL on link 0 it is a warm trigger (R250, Table 10-8). -/
def execPerstAssert (k : Fin 4) (s : State) : Res :=
  let n := k.val
  if !s.linkThere n || (s.link n).perst then .next s else
  let full := s.hiu.perstFull && n == 0
  let s := (s.setLink n { s.link n with perst := true })
  if full then .next ((s.raiseNow (0x00C + n) 0 1).warmReset 2)
  else
    let s := s.raise (0x00C + n) noFunc 0 0
    .next (if (s.link n).dlUp then s.linkDown n .reset
      else (s.setLink n { s.link n with st := .reset }).portReset n)

/-- The device enters BOOT: control core 0 is released and the start watchdog runs (Table 18-3, R428). -/
def State.toBoot (s : State) : State :=
  { s with clk := { s.clk with dev := .boot }, tether := { s.tether with startRuns := true } }

/-- WARM_RELEASE: the blocks are released once the PLL is locked (R410). CODE gives the µs from the trigger; while Milepost time
was held the spec gives no count of them: a free value. -/
def execWarmRelease (s : State) : Res :=
  if s.clk.dev ≠ .warmHeld ∨ !s.clk.lock then .next s else
  let us := (s.now - s.rd R.CLKRST_LAST_WARM_TIME).toNat / 1000
  let held := s.clk.warmCause = 5 ∨ s.clk.warmCause = 6
  let code := if held then fld s.fresh 0 16 else satTo 65535 us
  .next ((if held then s.drew else s).toBoot.raise 0x785 noFunc s.clk.warmCause.toNat code)

/-- COLD_RESET: SYS_RST_N goes low (cause 1). -/
def execColdReset (s : State) : Res :=
  .next ({ s with clk := { s.clk with sysRstN := false } }.coldReset 1)

/-- COLD_RELEASE: SYS_RST_N is high; with every supply valid the device leaves COLD_HELD and samples its straps, in the order of
Table 23-2 (R418, R448, R491). In board-test mode nothing else starts (R469). -/
def execColdRelease (straps : BitVec 12) (s : State) : Res :=
  if s.clk.dev ≠ .coldHeld then .next s else
  let s := { s with clk := { s.clk with sysRstN := true } }
  if !s.clk.suppliesValid then .next s else
  let s := { s with
    clk := { s.clk with dev := .tetherStart }
    hiu := { s.hiu with
      hostSplit := BitVec.ofNat 2 (fld straps 0 2), perstFull := bit straps 2, mgrSel := BitVec.ofNat 3 (fld straps 3 3) }
    boot := { s.boot with strapOrder := BitVec.ofNat 3 (fld straps 6 3) }
    tether := { s.tether with boardTest := bit straps 9 } }
  .next (if s.tether.boardTest then (s.recorderLoad.coldStart).wrf R.TETHER_STATE 29 3 2 else s)

/-- PLL_LOCK: the Root PLL locks (R405, R407, Table 18-3). After a cold reset Milepost time starts at 0. -/
def execPllLock (us : BitVec 16) (s : State) : Res :=
  if s.clk.lock ∨ s.tether.trip.isSome ∨ !(s.clk.dev = .pllLock ∨ s.clk.dev = .warmHeld) then .next s else
  let s' := { s with clk := { s.clk with lock := true, lockUs := us, running := 0x3F, streak := [], unlockObj := none } }
  let s' := match s.clk.unlockObj with
    | some o => s'.raise 0x780 noFunc o us.toNat
    | none => s'
  .next (if s.clk.dev = .pllLock then { s' with line := { s'.line with now := 0, slew := 0 } }.toBoot else s')

/-- PLL_LOCK_TIMEOUT: no lock within 1 ms (Table 18-3). -/
def execPllLockTimeout (s : State) : Res :=
  if s.clk.dev ≠ .pllLock ∨ s.clk.lock then .next s else .next (s.bump R.CLKRST_UNLOCK_CNT)

/-- Loss of lock, found by the detector (`obj` 0) or by R406 (1): the divided clocks stop, the Tether learns of it by its own
wire, Milepost time is held, and the device is warm reset (R407). -/
def State.lockLost (s : State) (obj cause : Nat) : State :=
  if !s.clk.lock then s else
  let s := s.bump R.CLKRST_UNLOCK_CNT
  let s := s.warmReset cause
  let s := s.wrf R.CLKRST_PLL_STATUS 30 1 1
  { s with clk := { s.clk with lock := false, running := 0, unlockObj := some obj } }.tetherWaits 0x780

/-- PLL_UNLOCK: the lock detector drops LOCK (cause 5). -/
def execPllUnlock (s : State) : Res := .next (s.lockLost 0 5)

/-- Nominal frequencies of the measured clocks, in kHz (Table 18-1). -/
def nominalKhz : List Nat := [4800000, 2400000, 1600000, 1600000, 1200000, 400000]

/-- One clock measured against TETHER_CLK: more than 2 % from nominal deviates (R406). -/
def State.clockMeasured (s : State) (k m : Nat) : State :=
  let nom := nominalKhz.getD k 0
  let s := s.wr (R.CLKRST_FREQ_MEAS k) (BitVec.ofNat 64 (m % 8388608))
  let off := (m : Int) - nom
  let set := fun (s : State) (n : Nat) => { s with clk := { s.clk with streak := mapSet (fun _ => 0) s.clk.streak k n } }
  if off.natAbs * 50 ≤ nom then set s 0 else
  let code := (BitVec.ofInt 16 (off * 1000 / nom)).toNat
  let s := (s.bump R.CLKRST_DEVIATION_CNT).raise 0x781 noFunc k code
  let n := mapGet (fun _ => 0) s.clk.streak k + 1
  if 3 ≤ n then (set s 0).lockLost 1 6 else set s n

/-- CLOCK_MEASURE: the Tether's measurements of the clocks that run, in kHz (R406). -/
def execClockMeasure (counts : List Word) (s : State) : Res :=
  if !s.clk.lock then .next s else
  .next (s.each (List.range 6) (fun s k =>
    if bit s.clk.running k then s.clockMeasured k (counts.getD k 0).toNat else s))

end Sys2Proof.Machine
end

