-- ==== Sys2Proof/Machine/Tether.lean ====
section
/-!
DEFINITION. Machine/Tether.lean: the Tether partition: self-test and the assignments it makes, temperatures and supplies, the
watchdogs, the repair maps and hung blocks (R418 to R439, R480).
-/
namespace Sys2Proof.Machine
open Sys2Proof

/-- A value taken within the limits of its field. -/
def clampTo (lo hi x : Nat) : Nat := max lo (min hi x)

/-- The configuration record's values for the TETHER block, within the limits of their fields (R431, Tables 19-7, 19-9, 19-10,
20-2). -/
def State.tetherConfig (s : State) : State :=
  match s.cfgRecord with
  | none => s
  | some b =>
    let valid := byteAt b 11
    let s := if bit valid 0 then
        let v := BitVec.ofNat 32 (leAt b 12 4)
        let trip := clampTo 105 125 (fld v 24 8)
        let thr := clampTo 90 (trip - 5) (fld v 16 8)
        s.wr R.TETHER_THERM_CFG (BitVec.ofNat 64 (at' trip 24 + at' thr 16 + at' (clampTo 70 thr (fld v 8 8)) 8 +
          clampTo 2 20 (fld v 0 8)))
      else s
    let s := if bit valid 1 then
        let v := BitVec.ofNat 32 (leAt b 16 4)
        s.wr R.TETHER_RAIL_CFG (BitVec.ofNat 64 (at' (clampTo 2 10 (fld v 8 8)) 8 + clampTo 1 5 (fld v 0 8)))
      else s
    if bit valid 2 then
      let v := BitVec.ofNat 32 (leAt b 20 4)
      s.wr R.TETHER_WDT_CFG (BitVec.ofNat 64 (at' (clampTo 10 1000 (fld v 22 10)) 22 + at' (clampTo 100 10000 (fld v 8 14)) 8 +
        clampTo 10 255 (fld v 0 8)))
    else s

/-- TETHER_MAP_INFO (Table 19-7). -/
def State.mapInfo (s : State) : State :=
  s.wr R.TETHER_MAP_INFO (BitVec.ofNat 64 (at' s.tether.mapFlash.length 21 + at' s.boot.fuse.factory.length 12 +
    s.tether.mapSeq % 4096))

/-- Both maps shown whole in TETHER_MAP. -/
def State.mapsShown (s : State) : State :=
  let s := s.each s.boot.fuse.factory (fun s e => s.wr (R.TETHER_MAP e.1) e.2)
  (s.each s.tether.mapFlash (fun s e => s.wr (R.TETHER_MAP (256 + e.1)) e.2)).mapInfo

/-- The objects that the repair maps hold under a kind. -/
def State.marked (s : State) (kind : Nat) : List Nat :=
  ((s.boot.fuse.factory ++ s.tether.mapFlash).filter (fun e => fld e.2 60 4 == kind)).map (fun e => fld e.2 0 34)

/-- The repairs in force: spare rows of the packet buffer, 64 a bank, and lanes and rows of each HBM stack, two spare lanes a
pseudo-channel (R390, R401, Tables 17-4, 17-5). -/
def State.repairsApplied (s : State) (faults : List MemFault) : State :=
  let found := fun (kind : Nat) => ((faults.filter (fun f => f.kind == kind && f.covered)).map (fun f => f.object.toNat))
  let rows := (s.marked 2 ++ found 2).eraseDups
  let done := ((List.range 32).map (fun b => min 64 (rows.filter (fun o => o / 65536 % 32 == b)).length)).sum
  let lanes := (s.marked 3 ++ found 3).eraseDups
  let hrows := (s.marked 4 ++ found 4).eraseDups
  let s := s.wr R.PBUF_ROWS (BitVec.ofNat 64 (at' (2048 - done) 16 + done))
  s.each [0, 1, 2] (fun s k =>
    let mine := lanes.filter (fun o => o / 2 ^ 28 % 4 == k)
    let n := ((List.range 32).map (fun p => min 2 (mine.filter (fun o => o / 2 ^ 23 % 32 == p)).length)).sum
    let r := (hrows.filter (fun o => o / 2 ^ 28 % 4 == k)).length
    s.wr (R.HBMC_REPAIR k) (BitVec.ofNat 64 (at' n 24 + at' (64 - n) 16 + satTo 65535 r)))

/-- ENGINE_ASSIGN (R432): the first 128 healthy engines are in service, the rest spare; with the engines retired. -/
def State.engineAssign (s : State) (failed : List Nat) : State × Nat :=
  let out := s.marked 1
  let bad := fun e => decide (e ∈ failed) || out.any (fun o => o % 256 == e)
  let healthy := (List.range 136).filter (fun e => !bad e)
  let n := min 128 healthy.length
  let retired := 136 - healthy.length
  let role := fun (e : Nat) => if bad e then (2 : BitVec 2) else if e ∈ healthy.take 128 then 0 else 1
  let roles := (List.range 136).foldl (fun m e => mapSet (fun e => if e < 128 then (0 : BitVec 2) else 1) m e (role e)) []
  let s := { s with eng := { s.eng with role := roles } }
  let s := s.wr R.IDENT_ENG (BitVec.ofNat 64 (at' 136 24 + at' n 16 + at' (healthy.length - n) 8 + retired))
  (s.if_ (decide (healthy.length < 128)) (fun s => s.raise 0x513 noFunc n 0), retired)

/-- What self-test makes of the carriageway instances: those of 0 to 3 held, whether the Shoulder is, the slot the Shoulder
serves, and the slots that none serves. -/
structure CwayPlan where
  held : List Nat
  shoulderOut : Bool
  served : Option Nat
  unserved : List Nat
  deriving DecidableEq, Repr

/-- R433. Of two slots without their instance the Shoulder serves the one the field map records it at, else the lower. -/
def State.cwayPlan (s : State) (failed : List Nat) : CwayPlan :=
  let subs := (s.marked 5).map (fun o => o % 8)
  let out := failed ++ subs ++ (s.marked 7).map (fun o => o % 256)
  let held := (List.range 4).filter (fun i => decide (i ∈ out))
  let shoulderOut := decide (4 ∈ out) || !(s.marked 6).isEmpty
  let served := if shoulderOut then none else ((held.find? (fun i => decide (i ∈ subs))).orElse (fun _ => held.head?))
  ⟨held, shoulderOut, served, held.filter (fun i => served != some i)⟩

/-- The healthy instances a plan leaves. -/
def CwayPlan.healthy (p : CwayPlan) : Nat := 4 - p.held.length + (if p.shoulderOut then 0 else 1)

/-- CWAY_ASSIGN (R433): roles, block resets, IDENT_CWAY, the Shoulder's state, the split and the lane map. -/
def State.cwayAssign (s : State) (p : CwayPlan) : State :=
  let s := s.each p.held (fun s i => (s.setCinst i ⟨.suspect, i, [], [], []⟩).blockReset (24 + i))
  let s := if p.shoulderOut then
      ({ s with shld := { s.shld with st := .retired } }.setCinst 4 ⟨.suspect, 0, [], [], []⟩).blockReset 28
    else match p.served with
    | some n => ({ s with
        shld := { s.shld with st := .serving, target := n, replayed := 0 }
        rtbl := { s.rtbl with region := mapSet (fun i => i) s.rtbl.region 4 n } }).setCinst 4 ⟨.serving, n, [], [], []⟩
    | none => s
  let active := 15 - ((p.unserved.map (fun i => 2 ^ i)).sum)
  let s := s.wr R.IDENT_CWAY (BitVec.ofNat 64 (at' (b2n (p.served.isNone && !p.shoulderOut)) 7 + at' (p.served.getD 7) 4 + active))
  let s := match p.unserved with
    | [n] =>
      let serving := (List.range 5).filter (fun i => (s.cinst i).role.serves)
      (s.wr R.CWAY_SHLD_SPLIT (BitVec.ofNat 64 (at' 1 31 + at' n 9 + at' (serving.getD 2 0) 6 + at' (serving.getD 1 0) 3 +
        serving.getD 0 0))).raise 0x288 noFunc n n
    | _ => s
  s.if_ (!p.held.isEmpty) (fun s => s.lanesReset)

/-- The OBJECT of an UNREPAIRED mark (Table 19-5, kind 8). -/
def mark8 (f : MemFault) : Nat :=
  if 2 ≤ f.kind ∧ f.kind ≤ 4 then at' f.kind 30 + f.object.toNat % 2 ^ 30 else f.object.toNat % 65536

/-- SELF_TEST (R431 to R435, R470, R471): the maps, the configuration record and the recorder are read, repairs applied, engines
and carriageways assigned; the device goes on to PLL_LOCK, or stays in SELF_TEST. -/
def execSelfTest (res : SelfTest) (s : State) : Res :=
  if s.clk.dev ≠ .tetherStart ∨ s.tether.boardTest then .next s else
  let s := s.mapsShown.tetherConfig.recorderLoad
  let s := s.repairsApplied res.faults
  let (s, retired) := s.engineAssign (res.engines.map (fun e => e.val))
  let insts := res.insts.map (fun i => i.val)
  let plan := s.cwayPlan insts
  let s := s.cwayAssign plan
  let cores := res.cores.foldl (fun (v : BitVec 20) c => setBit v c.val false) 0xFFFFF
  let s := { s with ciph := { s.ciph with cores := cores } }
  let s := s.each insts (fun s i => s.mark 7 1 i)
  let open_ := res.faults.filter (fun f => !f.covered)
  let s := s.each open_ (fun s f =>
    (s.mark 8 1 (mark8 f)).raise 0x79A noFunc (mark8 f / 2 ^ 30) (mark8 f % 65536))
  let held := plan.held.length + b2n plan.shoulderOut
  let s := s.wr R.TETHER_ST_RESULT (BitVec.ofNat 64 (at' retired 24 + at' held 16 + at' (20 - (bitsSet cores 20).length) 8 +
    satTo 255 open_.length))
  let s := s.wr R.TETHER_ST_TIME (BitVec.ofNat 64 res.ms.toNat)
  let fails := res.ctlCore || decide (plan.healthy < 3)
  let step := if res.ctlCore then 6 else 7
  let s := (s.wrf R.TETHER_STATE 29 3 (if fails then 4 else 2)).wrf R.TETHER_STATE 25 4 (if fails then step else 7)
  let s := s.coldStart
  if fails then
    let s := { s with clk := { s.clk with dev := .selfTest }, tether := { s.tether with faultN := false } }
    .next ((s.emit (.faultN true)).recordDirect 10 0
      (step + at' (s.rd R.TETHER_ST_RESULT).toNat 32 + at' (s.rd R.TETHER_STATE).toNat 64))
  else
    let s := { s with clk := { s.clk with dev := .pllLock } }
    .next (s.raise 0x799 noFunc (s.rdf R.IDENT_ENG 16 8) res.ms.toNat)

/-- The trip sequence begins (R424 steps 1 and 2): every divided clock stops, every block outside the partition is cleared and
held, TETHER_TRIP_N goes low, and the trip record is written. -/
def State.tripStart (s : State) (supply : Bool) (object : Nat) (reading : Word) (code : Nat) : State :=
  if s.tether.trip.isSome ∨ s.clk.dev = .coldHeld then s else
  let dev := s.clk.dev
  let at0 := s.now
  let s := { s.warmClear with line := .reset }
  let s := { s with
    regs := mapKeep (fun a => inBlock 18 a || inBlock 19 a) s.regs
    clk := { s.clk with dev := dev, running := s.clk.running &&& 1 }
    tether := { s.tether with trip := some ⟨supply, object, reading, at0⟩, tripN := false } }
  let s := (s.wrf R.TETHER_STATE 29 3 3).emit (.tripN true)
  s.recordDirect (if supply then 4 else 3) (evDetail noFunc object code) (object + at' (reading.toNat % 65536) 16)

/-- A temperature of TETHER_TEMP in whole °C, rounded down. -/
def wholeC (t : Int) : Nat := (BitVec.ofInt 16 (t / 16)).toNat

/-- The threshold of a thermal level, in °C (Table 19-1). -/
def State.levelC (s : State) (l : Nat) : Nat :=
  match l with
  | 1 => s.rdf R.TETHER_THERM_CFG 8 8
  | 2 => s.rdf R.TETHER_THERM_CFG 16 8
  | _ => s.rdf R.TETHER_THERM_CFG 24 8

/-- The greater of an optional reading and another. -/
def maxOpt (o : Option Int) (x : Int) : Option Int := match o with
  | some y => some (max y x)
  | none => some x

/-- The cycles of ENG_CLK withheld between two samples: one in two of 24,000, of each engine that runs (R423). -/
def State.withheld (s : State) : Nat := 12000 * ((List.range 136).filter (fun e => s.engLive e)).length

/-- TEMP_SAMPLE (R422, R423): the readings, in 1/16 °C; `cool` tells that every sensor has read at least HYST below the level's
threshold for 1 ms. -/
def execTempSample (temps : List (BitVec 16)) (cool : Bool) (s : State) : Res :=
  let s := s.each (List.range 19) (fun s i => s.wr (R.TETHER_TEMP i) ((temps.getD i 0).setWidth 64))
  let t := s.hottest 0 19
  let at_ := ((List.range 19).find? (fun i => sInt16 (s.rdf (R.TETHER_TEMP i) 0 16) == t)).getD 0
  let s := { s with tether := { s.tether with
    secDie := maxOpt s.tether.secDie (s.hottest 0 16), secHbm := maxOpt s.tether.secHbm (s.hottest 16 3) } }
  let old := s.rdf R.TETHER_THERM_STATUS 30 2
  let s := if old = 2 then s.bumpN R.TETHER_THROTTLE_CNT s.withheld else s
  let reach := fun l => decide ((s.levelC l : Int) * 16 ≤ t)
  let up : Nat := if reach 3 then 3 else if reach 2 then 2 else if reach 1 then 1 else 0
  let low := cool && decide (t ≤ ((s.levelC old : Int) - s.rdf R.TETHER_THERM_CFG 0 8) * 16)
  let new : Nat := if old < up then up else if 0 < old ∧ old < 3 ∧ low then old - 1 else old
  let s := s.wr R.TETHER_THERM_STATUS (BitVec.ofNat 64 (at' new 30 + at' at_ 24 + (BitVec.ofInt 16 t).toNat))
  let s := s.wrf R.TETHER_STATE 24 1 (b2n (new == 2))
  if old < new then
    if new = 3 then .next (s.tripStart false at_ (BitVec.ofInt 32 t) (wholeC t))
    else .next (s.raise (if new = 1 then 0x790 else 0x791) noFunc at_ (wholeC t))
  else if new < old then .next (s.raise 0x792 noFunc new (wholeC t))
  else .next s

/-- Nominal rail voltages in mV (Table 23-3). -/
def railMv : List Nat := [1800, 1800, 1800, 750, 850, 1100, 900, 900]

/-- Whether a rail lies within ±`pct` % of nominal. -/
def railWithin (r mv pct : Nat) : Bool :=
  let n := railMv.getD r 0
  decide (n * (100 - pct) ≤ mv * 100) && decide (mv * 100 ≤ n * (100 + pct))

/-- The deviation of a rail in mV, as an event's CODE. -/
def railDev (r mv : Nat) : Nat := (BitVec.ofInt 16 ((mv : Int) - (railMv.getD r 0 : Int))).toNat

/-- The division of a total over 11 groups, whose values add up to it; the shares come from a free value (R480). -/
def shares (f : Nat) : Nat → Nat → List Nat
  | 0, total => [total]
  | k + 1, total => let x := f % (total + 1)
                    x :: shares (f / 65536) k (total - x)

/-- POWER_COMPUTE (R480): the power of this sample in mW joins the latest 1 ms; NOW, the groups and the energy follow. -/
def State.powerCompute (s : State) (mw : Nat) : State :=
  let win := (mw :: s.tether.powers).take 100
  let now := satTo 65535 (win.sum / win.length / 100)
  let acc := s.tether.energyRem + mw
  let (lo, hi) := s.tether.secPower.getD (now, now)
  let s := { s with tether := { s.tether with
    powers := win, energyRem := acc % 100000, secPower := some (min lo now, max hi now) } }
  let s := (s.wrf R.TETHER_POWER 0 16 now).bumpN R.TETHER_ENERGY (acc / 100000)
  let parts := shares s.fresh.toNat 10 now
  s.drew.each (List.range 11) (fun s k =>
    let v := parts.getD k 0
    let peak := max v (s.rdf (R.TETHER_POWER_GROUP k) 16 16)
    s.wr (R.TETHER_POWER_GROUP k) (BitVec.ofNat 64 (at' peak 16 + v)))

def State.railWarned (s : State) (r : Nat) : Bool := mapGet (fun _ => false) s.tether.railWarn r

/-- SUPPLY_SAMPLE (R425, R480): the rails in mV and their currents in mA. -/
def execSupplySample (mv : List (BitVec 16)) (ma : List Nat) (s : State) : Res :=
  let warn := s.rdf R.TETHER_RAIL_CFG 0 8
  let s := s.each (List.range 8) (fun s r =>
    let v := (mv.getD r 0).toNat
    let s := s.wr (R.TETHER_RAIL_MV r) (BitVec.ofNat 64 v)
    let out := !railWithin r v warn
    let first := out && !s.railWarned r
    let s := { s with tether := { s.tether with railWarn := mapSet (fun _ => false) s.tether.railWarn r out } }
    if first then s.raise 0x794 noFunc r (railDev r v) else s)
  .next (s.powerCompute (((List.range 8).map (fun r => (mv.getD r 0).toNat * ma.getD r 0 / 1000)).sum))

/-- SUPPLY_TRIP: a rail has been below −TRIP_PCT or above +2 × TRIP_PCT for 10 µs (R425). -/
def execSupplyTrip (rail : Fin 8) (mv : BitVec 16) (s : State) : Res :=
  let pct := s.rdf R.TETHER_RAIL_CFG 8 8
  let n := railMv.getD rail.val 0
  let v := mv.toNat
  if decide (n * (100 - pct) ≤ v * 100) && decide (v * 100 ≤ n * (100 + 2 * pct)) then .next s
  else .next ((s.wr (R.TETHER_RAIL_MV rail.val) (BitVec.ofNat 64 v)).tripStart true rail.val (mv.setWidth 32)
    (railDev rail.val v))

/-- TRIP_RECOVERY: at least 1 s after the trip, with every sensor 20 °C below TRIP, or the rail back in its warning band, the
Tether causes a cold reset (R424 steps 3 and 4). -/
def execTripRecovery (s : State) : Res :=
  match s.tether.trip with
  | none => .next s
  | some t =>
    let ok := if t.supply then railWithin t.object (s.rdf (R.TETHER_RAIL_MV t.object) 0 16) (s.rdf R.TETHER_RAIL_CFG 0 8)
      else decide (s.hottest 0 19 ≤ ((s.levelC 3 : Int) - 20) * 16)
    .next (if ok then s.coldReset 2 else s)

/-- TETHER_RESTART (R421). The OBJECT of an event that concerns no block is left open. -/
def execTetherRestart (s : State) : Res :=
  .next ((s.bump R.TETHER_RESTART_CNT).drew.raise 0x79E noFunc (s.fresh.toNat % 1048576) 0xFFFF)

/-- WATCHDOG_PING: the Tether posts PING on its own Kite line once the previous one has been answered (R427). -/
def execWatchdogPing (s : State) : Res :=
  let k := s.page tetherCh
  let idle := (List.range 16).find? (fun i => !bit k.seqOpen i)
  if !(s.kite.fw == .running || s.kite.fw == .maintenance) || s.tether.ping.isSome || k.cmd.isSome then .next s else
  match idle with
  | none => .next s
  | some q =>
    let s := { s with tether := { s.tether with ping := some s.now } }
    .next (s.klPost tetherCh (BitVec.ofNat 64 (at' 1 52 + at' q 48)) false)

/-- A watchdog of the Tether expires (R427, R428). -/
def State.watchdog (s : State) (code : Nat) : State :=
  ((s.bump R.TETHER_FW_HANG_CNT).raiseNow 0x796 s.kite.fwGen.toNat code).tetherReset 4

/-- FW_HANG: a PING has not been answered within TIMEOUT_MS (R427). -/
def execFwHang (s : State) : Res := .next (if s.tether.ping.isSome && !s.inReset then s.watchdog 0 else s)

/-- START_WATCHDOG_EXPIRE (R428): while STATE is RECOVERY the time does not run. -/
def execStartWatchdogExpire (s : State) : Res :=
  .next (if s.tether.startRuns && s.kite.fw != .recovery && !s.inReset then s.watchdog 1 else s)

/-- TETHER_TRIAL with its state, outcome and time left (Table 19-11). -/
def State.trialShow (s : State) (st last ms : Nat) : State :=
  (((s.wrf R.TETHER_TRIAL 30 2 st).wrf R.TETHER_TRIAL 28 2 last).wrf R.TETHER_TRIAL 10 18 (ceilDiv ms 4))

/-- TRIAL_TICK: a tick of the trial watchdog: confirmation first, then the time (R430). -/
def execTrialTick (s : State) : Res :=
  if !s.trialArmed ∨ s.clk.dev = .warmHeld then .next s else
  if bit (s.rd R.BOOT_TRIAL) 30 then .next (s.trialShow 2 1 0) else
  let ms := s.tether.trialMs - 1
  .next ({ s with tether := { s.tether with trialMs := ms } }.trialShow 1 (s.rdf R.TETHER_TRIAL 28 2) ms)

/-- TRIAL_EXPIRED: the trial's time is up and it is not confirmed (R430); the warm reset is not counted by R429. -/
def execTrialExpired (s : State) : Res :=
  if !s.trialArmed ∨ bit (s.rd R.BOOT_TRIAL) 30 ∨ s.inReset then .next s else
  let s := { s with tether := { s.tether with trialMs := 0 } }.trialShow 0 2 0
  .next (((s.bump R.TETHER_TRIAL_EXPIRE_CNT).raiseNow 0x797 (s.rdf R.TETHER_TRIAL 0 10) 0).warmReset 4)

/-- FIELD_MAP_WRITE: the oldest mark is written into the field map, unless an entry of its KIND and OBJECT is there or the map
is full (R436, R437). -/
def execFieldMapWrite (s : State) : Res :=
  match s.tether.marks with
  | [] => .next s
  | m :: rest =>
    let s := { s with tether := { s.tether with marks := rest } }
    let kind := fld m 60 4
    let obj := fld m 0 34
    let same := s.tether.mapFlash.any (fun e => fld e.2 60 4 == kind && fld e.2 0 34 == obj)
    if same then .next s else
    match (List.range 1024).find? (fun i => mapGet (fun _ => (0 : DWord)) s.tether.mapFlash i == 0) with
    | none => .next ((s.bump R.TETHER_MAP_LOST_CNT).raise 0x79D noFunc 1024 kind)
    | some i =>
      let s := { s with tether := { s.tether with
        mapFlash := mapSet (fun _ => 0) s.tether.mapFlash i m, mapSeq := s.tether.mapSeq + 1 } }
      let s := (s.wr (R.TETHER_MAP (256 + i)) m).mapInfo
      let s := s.record (kindSrc 6) 6 0 1 0 m.toNat
      .next (if kind = 1 then s.raise 0x79B noFunc (obj % 256) (satTo 65535 (s.faultTimes (obj % 256)).length)
        else s.raise 0x79C noFunc kind (obj % 65536))

/-- The blocks the hang detector watches (R438). -/
def watchedBlocks : List Nat := [1, 2, 3, 4, 5, 8, 9, 12, 13, 14, 15, 16, 23]

/-- BLOCK_HANG: a word crossing into a watched block has held a word for 10 ms while the block's clock runs (R438). -/
def execBlockHang (b : Fin 29) (s : State) : Res :=
  let n := b.val
  if !(n ∈ watchedBlocks : Bool) || s.blockHeld n || s.inReset || !s.clocked n then .next s else
  let recent := s.tether.hangTimes.filter (fun e => decide (s.opSeconds < e.2 + 3600))
  let hangs := (n, s.opSeconds) :: recent
  let s := (s.bump (R.TETHER_HANG_CNT n))
  let s := { s with tether := { s.tether with hangTimes := hangs } }
  let mine := (hangs.filter (fun e => e.1 == n)).length
  if 3 ≤ hangs.length then .next ((s.raiseNow 0x79E n mine).tetherReset 7)
  else
    let s := (s.raise 0x79E noFunc n mine).blockReset n
    .next { s with tether := { s.tether with hungHeld := s.tether.hungHeld ++ [n] } }

/-- BLOCK_HANG_RELEASE: 100 µs later the block leaves reset (R438). -/
def execBlockHangRelease (b : Fin 29) (s : State) : Res :=
  if b.val ∈ s.tether.hungHeld then
    .next ({ s with tether := { s.tether with hungHeld := s.tether.hungHeld.filter (· ≠ b.val) } }.blockRelease b.val)
  else .next s

/-- POWER_UP: the rails up to `rails` of them, in ascending order, are valid (R418, R493). With all of them the supplies are
valid; the die stays in COLD_HELD until COLD_RELEASE. -/
def execPowerUp (rails : Nat) (s : State) : Res :=
  if s.clk.dev ≠ .coldHeld ∨ s.clk.suppliesValid then .next s else
  .next { s with clk := { s.clk with suppliesValid := decide (8 ≤ rails), coldCause := 0 } }

/-- POWER_DOWN: the rails fall in descending order, `rails` of them left (R494). While VDD_TETHER stays the recorder's queue
drains; else what is queued is lost. The next cold start is a power-up. -/
def execPowerDown (rails : Nat) (s : State) : Res :=
  if 8 ≤ rails then .next s else
  let s := if 0 < rails then s.drainLog else s
  .next ({ s with clk := { s.clk with suppliesValid := false } }.coldReset 0)

end Sys2Proof.Machine
end

