-- ==== Sys2Proof/Machine/Regs.lean ====
section
/-!
DEFINITION. Machine/Regs.lean: what a read of the device register space returns (R11, R13, R19, R30, R31): the registers that
show a level or a state held elsewhere, block by block, and the rest as they are held. Offsets are those of the register maps.
-/
namespace Sys2Proof.Machine
open Sys2Proof

/-- The number of the element at `o` in an array of `n` registers that begins at `base`, `step` bytes apart. -/
def elem (base n step o : Nat) : Option Nat :=
  if base ≤ o ∧ (o - base) % step = 0 ∧ (o - base) / step < n then some ((o - base) / step) else none

/-- A number as a register shows it. -/
def shows (n : Nat) : Option DWord := some (BitVec.ofNat 64 n)

/-- IDENT registers (Tables 1-5, 1-9): the security state and trust mode, and the blocks held in reset. -/
def State.showIdent (s : State) (o : Nat) : Option DWord :=
  if o = 0x10 then shows (s.level + at' (b2n s.boot.fuse.trust) 5 + at' s.boot.fuse.sec.toNat 6)
  else if o = 0x14 then
    let v := s.rd R.CLKRST_BLOCK_RESET
    shows (fld v 0 24 + at' (b2n (fld v 24 5 != 0)) 7)
  else none

/-- The follow tables of the parser (Table 2-8). -/
def State.showParse (s : State) (o : Nat) : Option DWord :=
  let slot := fun k => s.parse.follow.filter (fun e => e.1 / 65536 == k)
  match elem 0x500 4 4 o, elem 0x510 4 4 o with
  | some k, _ => shows ((slot k).filter (fun e => e.2.st != .free)).length
  | _, some k => shows ((slot k).map (fun e => e.2.held.length)).sum
  | _, _ => none

/-- CWAY common: the generations, stage programs, key templates and the Shoulder's state (Tables 3-10 to 3-13, 5-8). -/
def State.showCway (s : State) (o : Nat) : Option DWord :=
  if o = 0 then shows (at' s.liveSlot 4 + (s.gen s.liveSlot).waymark.toNat)
  else if o = 8 ∨ o = 12 then
    let g := s.gen ((o - 8) / 4)
    shows (at' g.st.code.toNat 30 + g.waymark.toNat)
  else if o = 0x10 ∨ o = 0x18 then some (s.gen ((o - 16) / 8)).inflight
  else if 0x1000 ≤ o ∧ o < 0x1200 ∧ o % 0x100 < 0xC0 ∧ o % 8 = 0 then some (s.stageCfg ((o - 0x1000) / 0x100) (o % 0x100 / 8))
  else if 0x2000 ≤ o ∧ o < 0x3000 then
    some ((mapGet (fun _ => tplReset) s.cway.tpl ((o - 0x2000) / 4)).setWidth 64)
  else if o = 0x8004 then shows (at' s.shld.st.code.toNat 29 + at' s.shld.target 24 + at' s.shld.replayed 12)
  else none

/-- One carriageway instance (Tables 3-14, 3-15). The registers of a replaced instance stay as R129 froze them. -/
def State.showInst (s : State) (i o : Nat) : Option DWord :=
  let c := s.cinst i
  if o = 0 then shows (at' (b2n (s.blockHeld (24 + i))) 5 + at' c.role.code.toNat 3 + c.slot)
  else if c.role = .suspect then none
  else if o = 4 then shows c.retain.length
  else if o = 0x50 ∨ o = 0x54 then some ((s.tcamCrc ((o - 0x50) / 4)).setWidth 64)
  else none

/-- The route tables (Table 4-15). -/
def State.showRtbl (s : State) (o : Nat) : Option DWord :=
  if o = 0x110 then shows s.rtbl.pfx4.length
  else if o = 0x114 then shows s.rtbl.pfx6.length
  else if o < 0x1000 ∨ 0x1500 ≤ o then none
  else
    let i := (o - 0x1000) / 0x100
    let r := s.regionOf i
    let k := o % 0x100
    if (s.cinst i).role = .suspect then none
    else if k = 0 ∨ k = 4 then shows (s.emEntries r (k / 4)).length
    else if k = 8 ∨ k = 12 then shows (s.ovfList r ((k - 8) / 4)).length
    else if k = 0x10 ∨ k = 0x18 then shows (s.emDigest r ((k - 16) / 8))
    else if k = 0x90 then shows (s.copyQ i).length
    else if k = 0x94 then shows (s.learnQ i).length
    else none

/-- The traffic manager: pools, port nodes and time gates (Tables 6-10, 6-15). -/
def State.showTm (s : State) (o : Nat) : Option DWord :=
  match elem 0x280 32 4 o, elem 0x500 16 4 o with
  | some p, _ => shows (s.poolUsed p)
  | _, some n => shows (b2n (s.nodeUp n))
  | _, _ =>
    if o < 0x1000 ∨ 0x1800 ≤ o then none
    else
      let g := s.gate ((o - 0x1000) / 0x100)
      let k := o % 0x100
      if k = 4 then shows (at' (b2n g.bank) 31 + at' (b2n g.pending.isSome) 30 + at' g.gates.toNat 16 + g.entry)
      else if k = 8 then some g.base
      else if k = 0x10 then shows (fld g.cycle 0 30)
      else if k = 0x14 then shows g.len
      else (elem 0x40 8 4 k).map (fun t => (g.maxOpen.getD t 0xFFFFFFFF).setWidth 64)

/-- The line ports (Tables 7-4, 7-6). -/
def State.showLine (s : State) (o : Nat) : Option DWord :=
  if o = 8 then shows (b2n s.line.mgmtUp)
  else (elem 0x1004 8 0x200 o).map (fun p =>
    let l := s.port p
    let paused := ((List.range 8).map (fun t => at' (b2n (decide (0 < l.paused.getD t 0))) t)).sum
    BitVec.ofNat 64 (at' l.st.code.toNat 30 + at' (b2n l.fecDegraded) 29 + at' l.tries.toNat 16 + at' paused 8 +
      l.xoff.toNat))

/-- Milepost time (Table 7-7): the count, and the whole ns still to slew. -/
def State.showTime (s : State) (o : Nat) : Option DWord :=
  if o = 0 then some s.now
  else if o = 0x24 then some ((BitVec.ofInt 64 (Int.tdiv s.line.slew 4294967296)) &&& 0x1FFFFF)
  else none

/-- A thread's status word (Table 8-15). -/
def Thread.status (t : Thread) : Nat :=
  at' t.st.code.toNat 29 +
  at' (match t.st.blocked, t.target with | true, _ => t.blockedCh | _, some x => fld x 8 5 | _, none => 0) 24 +
  at' (b2n t.target.isSome) 23 + at' (t.staged.filter (fun e => e.2.isSome)).length 18 + at' t.held.length 13 +
  at' t.outstanding.length 9

/-- ENG_STATUS (Table 8-13). -/
def State.engStatus (s : State) (e : Nat) : Nat :=
  let bits := fun (p : ThrSt → Bool) => ((List.range 8).map (fun t => at' (b2n (p (s.thr e t).st)) t)).sum
  at' (s.role e).toNat 30 + at' (b2n (s.engRun e)) 29 + at' (b2n (s.blockHeld 10)) 28 + at' (bits (·.live)) 16 +
  at' (bits (· == .retired)) 8 + bits (·.blocked)

/-- One Path Engine (Table 8-11). -/
def State.showEng (s : State) (e o : Nat) : Option DWord :=
  if o = 0 then shows (s.engStatus e)
  else if o = 4 then shows (s.orphanLevel e)
  else match elem 0x180 32 4 o, elem 0x200 8 0x40 o, elem 0x204 8 0x40 o with
  | some c, _, _ => shows (s.chan e c).level
  | _, some t, _ => shows (s.thr e t).status
  | _, _, some t => some ((s.thr e t).pc.setWidth 64)
  | _, _, _ => match elem 0x400 32 8 o, elem 0x800 256 8 o with
    | some k, _ => some (s.sreg e k)
    | _, some k => some (s.reg e (k / 32) (k % 32))
    | _, _ => none

/-- The Junction (Table 8-17). -/
def State.showJct (s : State) (o : Nat) : Option DWord :=
  if o = 0x30 then shows s.classStored
  else (elem 0x300 64 4 o).map (fun c => BitVec.ofNat 64 (mapGet (fun _ => []) s.eng.classQ c).length)

/-- HIU_LINK_STATUS (Table 10-10). -/
def State.linkStatus (s : State) (k : Nat) : Nat :=
  let l := s.link k
  if !s.linkThere k then 0 else
  at' l.st.code.toNat 29 + at' l.speed.toNat 26 + at' l.width.toNat 21 + at' (b2n l.flit) 20 + at' (b2n l.dlUp) 19 +
  l.retrains.toNat

/-- HIU_FN_STATE (Table 10-14). -/
def State.fnState (s : State) (f : Nat) : Nat :=
  let h := s.fn f
  let n := s.readsOut f
  if !s.exists_ f then at' 1 27 else
  at' 1 31 + at' (b2n h.bme) 30 + at' (b2n (s.memOn f)) 29 + at' (b2n h.flr) 28 + at' (b2n (n == 0)) 27 +
  at' h.dstate.toNat 24 + at' (s.fnLink f) 16 + satTo 8191 n

/-- The HIU (Table 10-9). -/
def State.showHiu (s : State) (o : Nat) : Option DWord :=
  let tags := fun k held => (s.hiu.tags.filter (fun t => t.link == k && t.quarUntil.isSome == held)).length
  if o = 0 then shows (s.hiu.hostSplit.toNat + at' (b2n s.hiu.perstFull) 2 + at' s.hiu.mgrSel.toNat 3)
  else if o = 0x4404 then shows (at' (b2n s.hiu.winBusy) 31 + at' (b2n s.hiu.winRefused) 30)
  else match elem 0x1000 4 0x400 o, elem 0x1008 4 0x400 o, elem 0x100C 4 0x400 o, elem 0x8000 4104 4 o with
  | some k, _, _, _ => shows (s.linkStatus k)
  | _, some k, _, _ => shows (tags k false)
  | _, _, some k, _ => shows (tags k true)
  | _, _, _, some f => shows (s.fnState f)
  | _, _, _, _ => none

/-- The Function Manager (Table 11-7). -/
def State.showFnm (s : State) (o : Nat) : Option DWord :=
  match elem 0x100 11 4 o, elem 0x140 11 4 o, elem 0x1000 4104 4 o with
  | some r, _, _ => shows (s.poolTotal r)
  | _, some r, _ => shows (s.poolFree r)
  | _, _, some f => shows (s.instState f)
  | _, _, _ => none

/-- RING, RTE, SCE, CIPH, PBUF, HBMC: the levels of Tables 13-15, 14-16, 15-11, 16-9, 17-4 and 17-5. -/
def State.showRing (s : State) (o : Nat) : Option DWord :=
  if o = 8 then shows s.rings.cached.length else if o = 0xC then shows s.backlogUsed else none

def State.showRte (s : State) (o : Nat) : Option DWord :=
  if o = 0x18 then shows (s.rte.qp.filter (fun e => e.2.st != .absent)).length
  else if o = 0x1C then shows s.rte.cached.length
  else if o = 0x20 then shows s.rte.layby.length
  else if o = 0x24 then shows (s.rte.tracker.filter (fun e => e.2.isSome)).length
  else if o = 0x28 then shows (s.rte.mr.filter (fun e => e.2.valid)).length
  else none

def State.showSce (s : State) (o : Nat) : Option DWord :=
  if o = 0xC then shows s.sce.cmds.length
  else if o = 0x10 then shows (s.sce.conn.filter (fun e => e.2.up)).length
  else none

def State.showCiph (s : State) (o : Nat) : Option DWord :=
  if o = 4 then shows s.ciph.cores.toNat
  else (elem 0x1008 8 0x100 o).map (fun p => BitVec.ofNat 64 (s.txCurrent p + at' (s.txNext p) 32))

def State.showPbuf (s : State) (o : Nat) : Option DWord :=
  if o = 0x10 then shows s.pbufFree else if o = 0x14 then shows s.hbm.spillUsed else none

def State.showHbmc (s : State) (o : Nat) : Option DWord := if o = 0x10 then some s.hbm.patrol else none

/-- Clocks and resets (Tables 18-6 to 18-9). -/
def State.showClk (s : State) (o : Nat) : Option DWord :=
  let c := s.clk
  if o = 0 then shows (at' (b2n c.lock) 31 + at' (s.rdf R.CLKRST_PLL_STATUS 30 1) 30 + c.lockUs.toNat)
  else if o = 4 then shows (at' c.dev.code.toNat 29 + at' (b2n c.tetherOsc) 11 + at' (b2n c.lineRef) 10 +
    at' c.hostRef.toNat 8 + c.running.toNat)
  else if o = 8 then shows (at' c.warmCause.toNat 28 + at' c.coldCause.toNat 24)
  else none

/-- The recorder (Table 21-15): loading until the start-up has passed the recorder's load. -/
def State.showMlst (s : State) (o : Nat) : Option DWord :=
  if o = 0 then
    let st := if s.rdf R.MLST_STATUS 30 2 = 2 then 2 else if s.clk.dev = .coldHeld ∨ s.clk.dev = .tetherStart then 0 else 1
    shows (at' st 30 + s.obs.queue.length)
  else if o = 0x1C then shows s.firstSeq
  else none

/-- The Sounding trace (Tables 21-2, 21-16). -/
def State.showSnd (s : State) (o : Nat) : Option DWord :=
  if o = 0 then
    shows (at' ((List.range 8).map (fun k => at' (b2n (bit (s.sinkCfg k) 31)) k)).sum 8 + s.level)
  else (elem 0x8018 1024 0x20 o).map (fun n => s.rd (R.SND_PORT n 0) - s.rd (R.SND_PORT n 1))

/-- EVT_PEND (Table 1-10). -/
def State.showEvt (s : State) (o : Nat) : Option DWord :=
  (elem 0x2000 64 4 o).map (fun m =>
    BitVec.ofNat 64 ((List.range 32).map (fun k => at' (b2n (mapGet (fun _ => false) s.evt.pend (32 * m + k))) k)).sum)

/-- The boot registers (Tables 20-16, 20-18): control core 0's release reads 1. -/
def State.showBoot (s : State) (o : Nat) : Option DWord :=
  if o = 4 then some (s.boot.fuse.word.setWidth 64)
  else if o = 0x10 then some (setBit (s.rd R.BOOT_CTL_RELEASE) 0 true)
  else if 0x400 ≤ o ∧ o < 0x700 then
    let k := o - 0x400
    shows (fld (mapGet (fun _ => (0 : BitVec 384)) s.boot.meas (k / 48)) (k % 48 * 8) 32)
  else none

/-- The value register `a` shows, `a` its first byte: 64 bits of it where it is 64 bits wide. -/
def State.shown (s : State) (a : Nat) : DWord :=
  let o := a % 0x10000
  let v : Option DWord :=
    if 0x60000 ≤ a ∧ a < 0x80000 then s.showCway (a - 0x60000)
    else if 0x80000 ≤ a ∧ a < 0xD0000 then s.showInst (a / 0x10000 - 8) o
    else if 0x100000 ≤ a ∧ a < 0x188000 then s.showEng ((a - 0x100000) / 0x1000) (a % 0x1000)
    else match a / 0x10000 with
    | 0x00 => s.showIdent o | 0x01 => s.showHiu o | 0x02 => s.showFnm o | 0x03 => s.showRing o
    | 0x04 => s.showLine o | 0x05 => s.showParse o | 0x0D => s.showRtbl o | 0x0E => s.showTm o
    | 0x19 => s.showJct o | 0x1A => s.showRte o | 0x1B => s.showSce o | 0x1C => s.showCiph o
    | 0x1D => s.showPbuf o | 0x1E => s.showHbmc o | 0x1F => s.showClk o | 0x21 => s.showMlst o
    | 0x22 => s.showSnd o | 0x23 => s.showTime o | 0x24 => s.showEvt o | 0x25 => s.showBoot o
    | _ => none
  v.getD (s.rd a)

/-- The block of Table 1-4 that device offset `a` lies in. -/
def blockOf (a : Nat) : Option Nat := (List.range 24).find? (fun b => inBlock b a)

/-- Whether the Tether holds the register at `a` in reset: its block, or its carriageway instance. -/
def State.regHeld (s : State) (a : Nat) : Bool := match blockOf a with
  | none => false
  | some 7 => s.blockHeld (24 + (a / 0x10000 - 8))
  | some b => s.blockHeld b

/-- What a register of a block held in reset reads (R31): its reset value, which for a lane map entry is the instance that
serves its slot (R49) and for BOOT_FUSE and HIU_STRAP what the fuses and straps hold. CWAY_INST_STATUS, and ENG_STATUS by ROLE
and IN_RESET, report the reset of their own block. -/
def State.heldView (s : State) (a : Nat) : DWord :=
  if (elem 0x80000 5 0x10000 a).isSome then s.shown a
  else if (elem 0x100000 136 0x1000 a).isSome then s.shown a &&& 0xD0000000
  else if a = R.BOOT_FUSE ∨ a = R.HIU_STRAPS then s.shown a
  else match elem (R.PARSE_LANE_MAP 0) 16 4 a with
  | some i => BitVec.ofNat 64 (s.laneReset i)
  | none => State.reset.shown a

/-- The register that covers `a`, as a read sees it (R13, R31): its descriptor, the byte of it at `a`, and its value; none
where no register is defined (R19). -/
def State.readAt (s : State) (a : Nat) : Option (RegDesc × Nat × Nat × DWord) :=
  (regFind a regRows).map (fun (d, e, b) =>
    (d, e, b, if d.acc == .wo then 0 else if s.regHeld e then s.heldView e else s.shown e))

/-- The 32 bits at an aligned offset (R11, R19). -/
def State.read32 (s : State) (a : Nat) : Word := match s.readAt a with
  | some (_, _, b, v) => BitVec.ofNat 32 (fld v (b * 8) 32)
  | none => 0

/-- An aligned read of 64 bits: a 64-bit register whole, or two registers. -/
def State.read64 (s : State) (a : Nat) : DWord := BitVec.ofNat 64 ((s.read32 a).toNat + at' (s.read32 (a + 4)).toNat 32)

end Sys2Proof.Machine
end

