-- ==== Sys2Proof/Machine/RegRead.lean ====
section
/-!
DEFINITION. Machine/RegRead.lean: the reads of registers that are commands (R1, R12, R17, R287), and what a read of the counter
and recorder windows returns (R459 to R461, R475, R476).
-/
namespace Sys2Proof.Machine
open Sys2Proof

/-- HOST_REGISTER_WRITE_DISCARD: the manager's host writes the device register space (R1). In another function's BAR0 the
offset holds nothing (R227). -/
def execHostRegisterWriteDiscard (f : Fin 4104) (_a : BitVec 24) (_v : DWord) (s : State) : Res :=
  .next (s.barWrite f.val (fun s =>
    s.bump (if f.val = s.manager then R.HIU_REGWRITE_DISCARD_CNT else R.HIU_BAD_ACCESS_CNT)))

/-- Whether an access of `len` bytes at offset `a` is an aligned one of 32 or 64 bits (R12). -/
def accessOk (a len : Nat) : Bool := (len == 4 && a % 4 == 0) || (len == 8 && a % 8 == 0)

/-- An access of function `f` that R12 turns away: zero data for a read, and the count. -/
def State.badAccess (s : State) (f : Nat) (write : Bool) (len : Nat) : State :=
  (s.bump R.HIU_BAD_ACCESS_CNT).if_ (!write) (fun s => s.emit (.completion f 0 (List.replicate len 0)))

/-- UNALIGNED_ACCESS: an access to a BAR that is not an aligned 32-bit or 64-bit one (R12), or, on the doorbell page, any but an
aligned 64-bit write (R302). -/
def execUnalignedAccess (f : Fin 4104) (write : Bool) (a : BitVec 24) (len : Nat) (s : State) (doorbell : Bool := false) : Res :=
  .next (
    if accessOk a.toNat len && (!doorbell || (write && len == 8)) then s
    else if write then s.barWrite f.val (fun s => s.badAccess f.val true len)
    else s.barRead f.val (fun s => s.badAccess f.val false len))

/-- What the manager's read does to the RC register at `a`, if one is there: it clears, a 64-bit one only by an aligned 64-bit
read (R17). -/
def State.clearRc (s : State) (a : Nat) (wide : Bool) : State := match s.readAt a with
  | some (d, e, b, _) => if d.acc == .rc && (!d.wide || (wide && b == 0)) && !s.regHeld e then s.wr e 0 else s
  | none => s

/-- The manager's read of 32 or 64 bits of the device register space: the bytes, and the state after it. -/
def State.managerRead (s : State) (a : Nat) (wide : Bool) : State × Bytes :=
  if wide then (((s.clearRc a true).clearRc (a + 4) true), bvBytes (s.read64 a))
  else (s.clearRc a false, bvBytes (s.read32 a))

/-- RC_READ: the manager reads device offset `a` through BAR0 (R16, R17). -/
def execRcRead (a : BitVec 24) (wide : Bool) (s : State) : Res :=
  .next (s.barRead s.manager (fun s =>
    let len := if wide then 8 else 4
    if !accessOk a.toNat len then s.badAccess s.manager false len
    else
      let (t, b) := s.managerRead a.toNat wide
      t.emit (.completion s.manager 0 b)))

/-- The 32 bits at offset `o` of the function control page of `f`, as its driver reads them: Table 11-4, or Table 15-1 while its
instance is of persona STORAGE. Other offsets read 0 (R227; BAR_UNUSED_ACCESS counts them). -/
def State.pageRead32 (s : State) (f o : Nat) : Word :=
  if !s.isStorage f then s.fctlRead f o
  else if o < 0x40 then s.nvmeRead f o
  else if 0x3C00 ≤ o then s.fctlRead f (o - 0x3C00)
  else 0

/-- REG_READ (code 0x02): nothing clears (R17). -/
def execRegRead (ch : BitVec 13) (seq : BitVec 4) (s : State) : Res :=
  .next (s.gcs ch seq 0x02 (fun s c =>
    if c.imm % 4 ≠ 0 ∨ 2 ^ 24 ≤ c.imm then (s, .badArg) else (s, .ok (s.read32 c.imm).toNat)))

/-- REG_READ_BLOCK (code 0x03): the registers in order. -/
def execRegReadBlock (ch : BitVec 13) (seq : BitVec 4) (s : State) : Res :=
  .next (s.gcs ch seq 0x03 (fun s c =>
    let a := leAt c.args 0 4
    let n := leAt c.args 4 4
    if a % 4 ≠ 0 ∨ n = 0 ∨ 16384 < n ∨ 2 ^ 24 < a + 4 * n then (s, .badArg)
    else (s, .out ((List.range n).flatMap (fun k => bvBytes (s.read32 (a + 4 * k)))))))

/-- The grant in slot `g` of function `f`: the range's offset plus 1, 0 for none; slot 63 stands for the recorder window, which
the manager always holds (R461). -/
def State.grantOf (s : State) (f g : Nat) : Nat :=
  if f = s.manager ∧ g = 63 then 1 else mapGet (fun _ => 0) s.obs.grant (f * 64 + g)

/-- CW_GRANT_MASK. -/
def State.grantMask (s : State) (f : Nat) : Nat :=
  ((List.range 64).map (fun g => at' (b2n (s.grantOf f g != 0)) g)).sum

/-- Record `i` of the object area of function `f` (R460); 64 bytes. -/
def State.objectRecord (s : State) (f i : Nat) : Bytes :=
  let a := (s.inst f).alloc
  let none64 := List.replicate 64 (0 : Byte)
  match mapGet (fun _ => 0) s.obs.cwSelect f with
  | 0 => if i < a.ringCount then s.ringRecord (a.ringBase + i) else none64
  | 1 => if i < 4 * a.subCount then s.tmObject 2 (4 * a.subBase + i) 0 else none64
  | 2 => if i < a.tollCount then padTo 64 (s.tmObject 7 (a.tollBase + i) 0) else none64
  | 3 => if i < a.tollCount then (s.sa (a.tollBase + i)).record else none64
  | 4 => if i < a.subCount then padTo 64 (s.tmObject 3 (a.subBase + i) 0) else none64
  | 5 => if i = 0 ∧ s.isStorage f then s.ctrlRecord f else none64
  | _ => none64

/-- The accounting record of the function's port ID, 0 where it holds none (Tables 21-1, 21-2). -/
def State.portRecord (s : State) (f : Nat) : Bytes :=
  if (s.inst f).st = .absent then List.replicate 32 0
  else (List.range 4).flatMap (fun k => bvBytes (s.shown (R.SND_PORT (s.inst f).alloc.portId k)))

/-- The 32 bits at offset `o` of the counter window of PF `f` (Table 21-1). No read has an effect (R459). -/
def State.counterWindow (s : State) (f o : Nat) : Word :=
  let part := fun (b : Bytes) (k : Nat) => BitVec.ofNat 32 (leAt b k 4)
  if o = 0 then BitVec.ofNat 32 (mapGet (fun _ => 0) s.obs.cwSelect f)
  else if o = 8 ∨ o = 12 then BitVec.ofNat 32 (s.grantMask f >>> ((o - 8) * 8))
  else if 0x10 ≤ o ∧ o < 0x30 then part (s.portRecord f) (o - 0x10)
  else if o = 0x40 then BitVec.ofNat 32 (s.fnState f)
  else if 0x10000 ≤ o ∧ o < 0x400000 then
    match s.grantOf f (o / 0x10000 - 1) with
    | 0 => 0
    | g + 1 => s.read32 (g + o % 0x10000)
  else if 0x800000 ≤ o ∧ o < 0x1800000 then part (s.objectRecord f ((o - 0x800000) / 64)) (o % 64)
  else 0

/-- Record `n` of the recorder as a read finds it: in the queue, or in its flash slot while that still holds it (R476). -/
def State.recordAt (s : State) (n : Nat) : BitVec 512 :=
  if n < s.firstSeq ∨ (s.rd R.MLST_NEXT_SEQ).toNat ≤ n then 0
  else match s.obs.queue.find? (fun r => recSeq r == n) with
  | some r => r
  | none =>
    let r := mapGet (fun _ => (0 : BitVec 512)) s.obs.log (n % logSlots)
    if recSeq r = n then r else 0

/-- The 32 bits at offset `o` of the recorder window of function `f` (R475). -/
def State.recorderWindow (s : State) (f o : Nat) : Word :=
  let cursor := mapGet (fun _ => (0 : Word)) s.obs.rwCursor f
  if s.grantOf f 63 = 0 then 0
  else if o < 0x10000 then s.read32 (0x210000 + o)
  else if o = 0x10000 then cursor
  else if 0x100000 ≤ o ∧ o < 0x200000 then
    BitVec.ofNat 32 (fld (s.recordAt (cursor.toNat + (o - 0x100000) / 64)) (o % 64 * 8) 32)
  else 0

end Sys2Proof.Machine
end

