-- ==== Sys2Proof/Machine/Obs.lean ====
section
/-!
DEFINITION. Machine/Obs.lean: the commands of the observation blocks: window selectors, grants, the debug level, trace sinks and
boundary scan (R459 to R469, R487).
-/
namespace Sys2Proof.Machine
open Sys2Proof

/-- CW_SELECT: the class of the object area; a VF has no counter window. -/
def execCwSelect (f : Fin 4104) (v : Word) (s : State) : Res :=
  .next (s.barWrite f.val (fun s =>
    if 8 ≤ f.val then s.bump R.HIU_BAD_ACCESS_CNT
    else { s with obs := { s.obs with cwSelect := mapSet (fun _ => 0) s.obs.cwSelect f.val (fld v 0 4) } }))

/-- RW_CURSOR, in the recorder window of a function that holds the grant (R475). -/
def execRwCursor (f : Fin 4104) (v : Word) (s : State) : Res :=
  .next (s.barWrite f.val (fun s =>
    if 8 ≤ f.val ∨ s.grantOf f.val 63 = 0 then s.bump R.HIU_BAD_ACCESS_CNT
    else { s with obs := { s.obs with rwCursor := mapSet (fun _ => 0) s.obs.rwCursor f.val v } }))

/-- The ranges a grant may name (R461). -/
def grantable : List Nat :=
  [0x000000, 0x040000, 0x050000, 0x060000, 0x070000, 0x080000, 0x090000, 0x0A0000, 0x0B0000, 0x0C0000, 0x1D0000, 0x1E0000,
    0x1F0000, 0x200000, 0x210000, 0x230000, 0x250000]

/-- COUNTER_GRANT (code 0x81). -/
def execCounterGrant (ch : BitVec 13) (seq : BitVec 4) (s : State) : Res :=
  .next (s.gcs ch seq 0x81 (fun s c =>
    let f := leAt c.args 0 2
    let slot := leAt c.args 2 1
    let flags := byteAt c.args 3
    let revoke := bit flags 0
    let off := leAt c.args 4 4
    if 7 < f ∨ 63 < slot ∨ fld flags 1 7 ≠ 0 ∨ (!revoke ∧ slot ≠ 63 ∧ off ∉ grantable) then (s, .badArg)
    else
      let v := if revoke then 0 else if slot = 63 then 1 else off + 1
      ({ s with obs := { s.obs with grant := mapSet (fun _ => 0) s.obs.grant (f * 64 + slot) v } }, .ok 0)))

/-- The ceiling of the debug level (Table 21-3). -/
def State.levelCeiling (s : State) : Nat := if s.boot.fuse.sec = 1 ∨ s.boot.fuse.sec = 2 then 2 else 3

/-- Records of a kind above the level replaced by zeros in a page; how many there were (R487). -/
def zeroAbove (level : Nat) : Nat → Bytes → Bytes × Nat
  | 0, b => (b, 0)
  | n + 1, b =>
    let len := leAt b 2 2
    if b.isEmpty ∨ len = 0 then (b, 0) else
    let (rest, k) := zeroAbove level n (b.drop len)
    if (byteAt b 0).toNat < level then (b.take len ++ rest, k)
    else (List.replicate (min len b.length) 0 ++ rest, k + 1)

/-- What a sink holds when the level falls (R487): its open page loses the records above the level and closes. -/
def State.sinkFalls (s : State) (k level : Nat) : State :=
  let x := s.sink k
  match x.page with
  | none => s
  | some p =>
    let (b, n) := zeroAbove level p.records p.bytes
    let s := s.setSink k { x with page := some { p with bytes := b }, lost := x.lost + n }
    (s.bumpN (R.SND_SINK_LOST_CNT k) n).closePage k

/-- The debug level set to `l`, at most the ceiling (R463, R487). -/
def State.setLevel (s : State) (l : Nat) : State :=
  let old := s.level
  if l = old then s else
  let s := (s.wrf R.IDENT_STATE 0 3 l).levelChanged old l
  s.if_ (decide (l < old)) (fun s => s.each (List.range 8) (fun s k => s.sinkFalls k l))

/-- TRACE_LEVEL_SET: TRACE_CFG (code 0x80) with OP 0; an OP that is not used is answered here. -/
def execTraceLevelSet (ch : BitVec 13) (seq : BitVec 4) (s : State) : Res :=
  .next (s.gcsPick ch seq 0x80 (fun c => byteAt c.args 0 == 0 || decide (2 < (byteAt c.args 0).toNat)) (fun s c =>
    let l := leAt c.args 1 1
    if byteAt c.args 0 ≠ 0 ∨ 3 < l then (s, .badArg)
    else if s.levelCeiling < l then (s, .denied)
    else (s.setLevel l, .ok 0)))

/-- A sink's configuration in the block of TRACE_CFG with OP 1: register images from byte 8 at their distances from SND_SINK_CFG,
filters from byte 32, counter list from byte 160 (PRESUMED: the spec gives their order alone). Bytes a block does not carry
read 0. -/
structure SinkImage where
  cfg : Word
  rate : Word
  ring : Word
  buf : DWord
  filters : List Word
  list : List Word
  deriving DecidableEq, Repr

def sinkImage (b : Bytes) : SinkImage :=
  let w := fun o => BitVec.ofNat 32 (leAt b o 4)
  ⟨w 8, w 12, w 16, BitVec.ofNat 64 (leAt b 24 8), (List.range 32).map (fun k => w (32 + 4 * k)),
    (List.range 64).map (fun j => w (160 + 4 * j))⟩

/-- The reserved bits of a filter word (Table 21-18). -/
def filterReserved (k : Nat) : Word := match k % 4 with
  | 0 => 0 | 1 => 0xFFFE7C00 | _ => 0xFFFC0000

/-- Whether no reserved bit is set and the buffer is aligned (R20, Tables 21-16 to 21-18). -/
def SinkImage.ok (i : SinkImage) : Bool :=
  !bit i.cfg 16 && fld i.rate 24 8 == 0 && fld i.ring 20 12 == 0 && fld i.buf 0 12 == 0 &&
  (List.range 32).all (fun k => i.filters.getD k 0 &&& filterReserved k == 0) && i.list.all (fun e => fld e 24 7 == 0)

/-- Whether function `f` can read device offset `a` through a grant slot (R461, R466). -/
def State.granted (s : State) (f a : Nat) : Bool :=
  (List.range 63).any (fun g => match s.grantOf f g with
    | 0 => false
    | b + 1 => decide (b ≤ a) && decide (a < b + 0x10000))

/-- Whether the counter list of an image names only registers the ring's function may read (R466). -/
def State.listAllowed (s : State) (i : SinkImage) : Bool :=
  let f := (s.ring (fld i.ring 0 20)).func
  bit i.cfg 30 || f == s.manager || i.list.all (fun e => !bit e 31 || s.granted f (fld e 0 24))

/-- The sink is running anew: numbers and counts from 0 (R465, Table 21-5). -/
def State.sinkRestart (s : State) (k : Nat) : State :=
  (s.wr (R.SND_SINK_SEQ k) 0).updSink k (fun x => { x with considered := 0, inSecond := 0 })

/-- Where a sink writes changes, or the sink stops: the open page is closed first. -/
def State.sinkCfgWrite (s : State) (k : Nat) (cfg ring : Word) (buf : DWord) : State :=
  let old := s.sinkCfg k
  let moves := !bit cfg 31 || bit cfg 30 != bit old 30 || s.sinkRing k != fld ring 0 20 || s.rd (R.SND_SINK_BUF k) != buf
  let s := s.if_ moves (fun s => s.closePage k)
  let s := ((s.wr (R.SND_SINK_CFG k) ((cfg &&& 0xFFFEFFFF).setWidth 64)).wr (R.SND_SINK_RING k)
    ((ring &&& 0xFFFFF).setWidth 64)).wr (R.SND_SINK_BUF k) buf
  s.if_ (bit cfg 31 && !bit old 31) (fun s => s.sinkRestart k)

/-- SINK_CONFIGURE: TRACE_CFG with OP 1 (R463, R465, R466, R468). -/
def execSinkConfigure (ch : BitVec 13) (seq : BitVec 4) (s : State) : Res :=
  .next (s.gcsPick ch seq 0x80 (fun c => byteAt c.args 0 == 1) (fun s c =>
    let k := leAt c.args 1 1
    let i := sinkImage c.args
    if 7 < k ∨ !i.ok ∨ leAt c.args 2 6 ≠ 0 ∨ leAt c.args 20 4 ≠ 0 ∨ (bit i.cfg 30 ∧ (List.range 8).any (fun j => j != k && bit (s.sinkCfg j) 30)) then (s, .badArg)
    else if !s.listAllowed i then (s, .notOwned)
    else
      let s := s.sinkCfgWrite k i.cfg i.ring i.buf
      let s := s.wr (R.SND_SINK_RATE k) (i.rate.setWidth 64)
      let s := s.each (List.range 32) (fun s n => s.wr (R.SND_FILTER k (n / 4) (n % 4)) ((i.filters.getD n 0).setWidth 64))
      (s.each (List.range 64) (fun s j => s.wr (R.SND_CNT_LIST k j) ((i.list.getD j 0).setWidth 64)), .ok 0)))

/-- SINK_DISABLE: TRACE_CFG with OP 2. -/
def execSinkDisable (ch : BitVec 13) (seq : BitVec 4) (s : State) : Res :=
  .next (s.gcsPick ch seq 0x80 (fun c => byteAt c.args 0 == 2) (fun s c =>
    let k := leAt c.args 1 1
    if 7 < k then (s, .badArg) else ((s.closePage k).wrf (R.SND_SINK_CFG k) 31 1 0, .ok 0)))

/-- TRACE_PAGE_CLOSE: the page's 100 µs have passed (R467). -/
def execTracePageClose (k : Fin 8) (s : State) : Res := .next (s.closePage k.val)

/-- The value a COUNTER record gives of the register at a device offset: 64 bits of it where it is 64 bits wide. -/
def State.counterValue (s : State) (a : Nat) : Nat := match s.readAt a with
  | some (_, _, b, v) => if a % 4 = 0 then fld v (b * 8) 64 else 0
  | none => 0

/-- The bodies of the COUNTER records of a list: three pairs each (Table 21-6). -/
def State.counterBodies (s : State) : Nat → List Nat → List Bytes
  | 0, _ => []
  | _, [] => []
  | n + 1, l =>
    padTo 48 ((l.take 3).flatMap (fun a => leBytes 8 a ++ leBytes 8 (s.counterValue a))) :: s.counterBodies n (l.drop 3)

/-- COUNTER_SAMPLE: PERIOD_MS of sink `k` has passed (R465). The POINT of a COUNTER record, which the spec does not state, is
free. -/
def execCounterSample (k : Fin 8) (s : State) : Res :=
  let k := k.val
  let c := s.sinkCfg k
  if !bit c 31 || !bit c 27 || fld c 0 16 == 0 || s.level == 0 || s.blockHeld 20 then .next s else
  let list := ((List.range 64).map (fun j => s.rd (R.SND_CNT_LIST k j))).filter (fun e => bit e 31)
  .next (s.each (s.counterBodies 22 (list.map (fun e => fld e 0 24))) (fun s body =>
    let point := fld s.fresh 0 8
    s.drew.traceDeliver k (fun seq => traceHeader 0 point 64 seq s.now ++ body)))

/-- Whether Table 21-8 allows a boundary-scan instruction now: the pin-driving ones in board-test mode only, SAMPLE/PRELOAD also
outside LOCKED. -/
def State.scanAllowed (s : State) (i : Jtag) : Bool := match i with
  | .idcode | .bypass => true
  | .sample => s.tether.boardTest || s.boot.fuse.sec != 2
  | _ => s.tether.boardTest

/-- A boundary-scan instruction in force: what is shifted out, the boundary register, and the pins it drives. -/
def State.scan (s : State) (i : Jtag) (tdo boundary pins : Bytes) : State :=
  { s with obs := { s.obs with jtag := i, boundary := boundary, pinsDriven := pins } }.emit (.tdo tdo)

/-- BYPASS: the one-bit bypass register captures 0 (PRESUMED from IEEE 1149.1); every instruction not allowed acts so (R469). -/
def State.bypassed (s : State) : State := s.scan .bypass [0] s.obs.boundary []

/-- EXTEST: the pins are sampled, and the shifted-in boundary register drives them. -/
def execExtest (sampled shifted : Bytes) (s : State) : Res :=
  .next (if s.scanAllowed .extest then s.scan .extest sampled shifted shifted else s.bypassed)

/-- SAMPLE/PRELOAD: the pins are sampled and the boundary register preloaded; the pins work as before. -/
def execSamplePreload (sampled shifted : Bytes) (s : State) : Res :=
  .next (if s.scanAllowed .sample then s.scan .sample sampled shifted [] else s.bypassed)

/-- IDCODE, with the stepping in bits [31:28]. -/
def execIdcode (s : State) : Res :=
  .next (s.scan .idcode (leBytes 4 (0x08016B67 + at' (s.rdf R.IDENT_STEP 0 4) 28)) s.obs.boundary [])

/-- CLAMP: the boundary register drives the pins, with the bypass register selected. -/
def execClamp (s : State) : Res :=
  .next (if s.scanAllowed .clamp then s.scan .clamp [0] s.obs.boundary s.obs.boundary else s.bypassed)

/-- HIGHZ: no pin is driven, with the bypass register selected. -/
def execHighz (s : State) : Res :=
  .next (if s.scanAllowed .highz then s.scan .highz [0] s.obs.boundary [] else s.bypassed)

def execBypass (s : State) : Res := .next s.bypassed

end Sys2Proof.Machine
end

