-- ==== Sys2Proof/Machine/RegWrite.lean ====
section
/-!
DEFINITION. Machine/RegWrite.lean: a register write with no row of its own (R13, R14, R18, R19, R31): by access code and writer,
with what the write of each register that acts does.
-/
namespace Sys2Proof.Machine
open Sys2Proof

/-- The state a meaning ends in, for a write that does what a row of the table does. -/
def resState (s : State) : Res → State
  | .next t => t
  | _ => s

/-- Whether this writer's write of a register of this access code counts (R2, Table 0-4): TW registers are the Tether core's
alone, the others the firmware's, while it is there; any other party writes none. -/
def State.mayWrite (s : State) (w : Writer) (acc : Access) : Bool := match w, acc with
  | .tether, .tw => true
  | .firmware, .rw | .firmware, .wo | .firmware, .rw1c => s.kite.fw != .absent && !s.inReset
  | _, _ => false

/-- A generation slot's STATE written (Table 3-7). -/
def State.writeGen (s : State) (g st : Nat) : State := match (s.gen g).st, st with
  | .free, 1 => s.setGen g { s.gen g with st := .loading }
  | .loading, 0 => s.setGen g { s.gen g with st := .free }
  | _, _ => s

/-- CWAY common written at offset `o` of the block; `v` is the register's new value. -/
def State.writeCway (s : State) (o : Nat) (v : DWord) : Option State :=
  let loading := fun g => (s.gen g).st == .loading
  if o = 4 then
    some (if !bit v 0 then s else match s.genIn .loading with
      | some g => (s.commitGen g).1
      | none => s.commitRefused.1)
  else if o = 8 ∨ o = 12 then some (s.writeGen ((o - 8) / 4) (fld v 30 2))
  else if o = 0x190 then some (resState s (execTcamCommit (v.setWidth 32) s))
  else if 0x1000 ≤ o ∧ o < 0x1200 then
    let g := (o - 0x1000) / 0x100
    some (if loading g then { s with cway := { s.cway with
        stage := mapSet (fun _ => 0) s.cway.stage (g * 24 + o % 0x100 / 8) v } }
      else s.bump R.CWAY_TCAM_REFUSED_CNT)
  else if 0x2000 ≤ o ∧ o < 0x3000 then
    some (if loading ((o - 0x2000) / 0x800) then { s with cway := { s.cway with
        tpl := mapSet (fun _ => tplReset) s.cway.tpl ((o - 0x2000) / 4) (v.setWidth 32) } }
      else s.bump R.CWAY_TCAM_REFUSED_CNT)
  else if o = 0x8008 then some (s.force (fld v 0 2))
  else none

/-- The traffic manager's registers that act. -/
def State.writeTm (s : State) (o : Nat) (v : DWord) : Option State :=
  if o = 4 then
    let w : Word := v.setWidth 32
    some (match fld v 30 2 with
      | 1 => resState s (execTmIndRead w s)
      | 2 => resState s (execTmIndWrite w s)
      | _ => s.wr R.TM_IND_CTL v)
  else (elem 0x1028 8 0x100 o).map (fun p => if bit v 0 then s.gateRequest p else s)

/-- The line ports' and Milepost time's. -/
def State.writeLine (s : State) (o : Nat) (v : DWord) : Option State :=
  if o = 0 then some (s.setPortOption v.toNat)
  else if o = 4 then some (s.setMgmtCfg v)
  else match elem 0x1000 8 0x200 o, elem 0x1008 8 0x200 o with
    | some p, _ => some (s.setPortCfg p v)
    | _, some p => some (s.setPfcThresh p v)
    | _, _ => none

/-- Both bits of TIME_CTL set apply TIME_SET only (Table 7-7). -/
def State.writeTime (s : State) (o : Nat) (v : DWord) : Option State :=
  if o = 0x20 then some (if bit v 0 then s.applySet else if bit v 1 then s.applyOffset else s)
  else if o = 0x24 then some (s.setSlew ((v.setWidth 21).toInt))
  else none

/-- A window's IND_CTL: OP 0b01 reads, 0b10 writes where the window has a write, other values take no action. -/
def State.writeInd (s : State) (a : Nat) (v : DWord) (read write : Word → State → Res) : State :=
  match fld v 30 2 with
  | 1 => resState s (read (v.setWidth 32) s)
  | 2 => resState s (write (v.setWidth 32) s)
  | _ => s.wr a v

/-- A window register's write that takes no action beyond holding its value. -/
def indKeep (a : Nat) (v : Word) (s : State) : Res := .next (s.wr a (v.setWidth 64))

/-- MLST_EXTRA: bits may be set, and bits the firmware has set cleared (R473). -/
def State.writeExtra (s : State) (m : Nat) (v : Word) : State :=
  let a := R.MLST_EXTRA m
  let old : Word := (s.rd a).setWidth 32
  let own := mapGet (fun _ => (0 : Word)) s.obs.extraOwn m
  let new := (old &&& ~~~own) ||| v
  let own' := (own &&& v) ||| (v &&& ~~~old)
  { s.wr a (new.setWidth 64) with obs := { s.obs with extraOwn := mapSet (fun _ => 0) s.obs.extraOwn m own' } }

/-- CLKRST_BLOCK_RESET: the blocks whose bits change enter or leave reset (R416, Table 18-11). -/
def State.writeBlocks (s : State) (v : DWord) : State :=
  s.each (List.range 29) (fun s b =>
    if bit v b = s.blockHeld b then s else if bit v b then s.blockReset b else s.blockRelease b)

/-- HIU_LINK_CFG: CFG_READY is held while the link is in DL_Up only (Table 10-11). -/
def State.writeLinkCfg (s : State) (k : Nat) (v : DWord) : State :=
  s.wr (R.HIU_LINK_CFG k) (if (s.link k).dlUp then v else v &&& 0xFFFFFFFFFFFFFFFE)

/-- PARSE_HASH_CFG or PARSE_HASH_SEED: a change of mode or seed begins a hold on every index (R50, below Table 2-12). -/
def State.writeHash (s : State) (a : Nat) (v : DWord) : State :=
  let t := s.wr a v
  if t.hashMode = s.hashMode then t else
  t.each (List.range 16) (fun s i => s.beginHold (s.rdf (R.PARSE_LANE_MAP i) 0 3) i)

/-- What writing the register at `a` does, `v` being its new value; none where it only holds the value. An engine's ROLE
changes during start-of-day self-test only (R196), and TotalVFs only as R254 allows. -/
def State.writeActs (s : State) (w : Writer) (a : Nat) (v : DWord) : Option State :=
  let o := a % 0x10000
  let x : Word := v.setWidth 32
  if a = R.IDENT_STATE then
    some (if w = .firmware ∧ fld v 0 3 ≤ s.levelCeiling then s.setLevel (fld v 0 3) else s)
  else if a = R.HIU_WINDOW_COMMIT then some (resState s (execWindowCommit x s))
  else if a = R.FNM_IND_CTL then some (s.writeInd a v execFnmIndRead execFnmIndWrite)
  else if a = R.RING_IND_CTL then some (s.writeInd a v execRingIndRead execRingIndWrite)
  else if a = R.RTE_IND_CTL then some (s.writeInd a v execRteIndRead execRteIndRead)
  else if a = R.SCE_IND_CTL then some (s.writeInd a v execSceIndRead (indKeep a))
  else if a = R.CIPH_IND_CTL then some (s.writeInd a v execCiphIndRead (indKeep a))
  else if a = R.CIPH_SHARE then some (if 20 < fld v 0 5 + fld v 5 5 + fld v 10 5 then s else s.wr a v)
  else if a = R.CLKRST_RESET_REQ then some (resState s (execClkrstResetReq x s))
  else if a = R.CLKRST_BLOCK_RESET then some (s.writeBlocks v)
  else if a = R.BOOT_CTL_RELEASE then some (resState s (execCoreRelease x s))
  else if a = R.BOOT_CC_RESTART then some (resState s (execControlComplexRestart x s))
  else if a = R.BOOT_EXT_CTL then some (resState s (execMeasurementExtend x s))
  else if a = R.BOOT_TRIAL then some (if bit v 30 then s.wrf a 30 1 1 else s)
  else if 0x60000 ≤ a ∧ a < 0x80000 then s.writeCway (a - 0x60000) v
  else if 0x100000 ≤ a ∧ a < 0x188000 then
    let e := (a - 0x100000) / 0x1000
    if a % 0x1000 = 0 then
      some (if s.clk.dev = .tetherStart ∨ s.clk.dev = .selfTest then { s with eng := { s.eng with
        role := mapSet (fun e => if e < 128 then 0 else 1) s.eng.role e (BitVec.ofNat 2 (fld v 30 2)) } } else s)
    else (elem 0x100 32 4 (a % 0x1000)).map (fun c => s.writeBind e c x)
  else match a / 0x10000 with
  | 0x02 => (elem 8 8 4 o).map (fun p => if s.vfsAllowed p (fld v 0 11) then s.wr a v else s)
  | 0x01 => (elem 0x1004 4 0x400 o).map (fun k => s.writeLinkCfg k v)
  | 0x04 => s.writeLine o v
  | 0x05 =>
    if o = 0 ∨ o = 4 then some (s.writeHash a v)
    else (elem 0x40 16 4 o).map (fun i => if (s.cinst (fld v 0 3)).role.serves then s.setLane i (fld v 0 3) else s)
  | 0x0E => s.writeTm o v
  | 0x19 => (elem 0 5 4 o).map (fun m => s.writeRun m x)
  | 0x21 => (elem 0x100 64 4 o).map (fun m => if w = .firmware then s.writeExtra m x else s)
  | 0x22 =>
    if w ≠ .firmware then some s else
    match elem 0x100 8 0x40 o, elem 0x108 8 0x40 o, elem 0x110 8 0x40 o with
    | some k, _, _ => some (s.sinkCfgWrite k x ((s.rd (R.SND_SINK_RING k)).setWidth 32) (s.rd (R.SND_SINK_BUF k)))
    | _, some k, _ => some (s.sinkCfgWrite k ((s.sinkCfg k).setWidth 32) x (s.rd (R.SND_SINK_BUF k)))
    | _, _, some k =>
      some (s.sinkCfgWrite k ((s.sinkCfg k).setWidth 32) ((s.rd (R.SND_SINK_RING k)).setWidth 32) v)
    | _, _, _ => none
  | 0x23 => s.writeTime o v
  | 0x24 => (elem 0 2048 4 o).map (fun n => s.setRoute n v.toNat)
  | _ => none

/-- The bits of a register that a write sets, of those written: reserved bits stay 0 (R18). -/
def merged (d : RegDesc) (old v written : DWord) : DWord :=
  let m := written &&& BitVec.ofNat 64 d.wmask
  (old &&& ~~~m) ||| (v &&& m)

/-- A write of the bits `written` of the register `d` whose first byte lies at `a` (R13). A WO register takes the written value
as it is; its reserved bits are ignored where it acts. -/
def State.regWrite (s : State) (w : Writer) (d : RegDesc) (a : Nat) (v written : DWord) : State :=
  if !s.mayWrite w d.acc || s.regHeld a then s
  else match d.acc with
  | .rw1c => s.wr a (s.rd a &&& ~~~(v &&& written &&& BitVec.ofNat 64 d.w1c))
  | .wo => (s.writeActs w a (v &&& written)).getD s
  | _ =>
    let x := merged d (s.shown a) v written
    (s.writeActs w a x).getD (s.wr a x)

/-- A write of 32 bits at an aligned device offset; where no register lies it has no effect (R19). -/
def State.write32 (s : State) (w : Writer) (a : Nat) (v : Word) : State := match regFind a regRows with
  | none => s
  | some (d, e, b) => s.regWrite w d e (BitVec.ofNat 64 (at' v.toNat (b * 8))) (BitVec.ofNat 64 (at' 0xFFFFFFFF (b * 8)))

/-- A write of 64 bits: a 64-bit register whole, or two registers, the lower first. -/
def State.write64 (s : State) (w : Writer) (a : Nat) (v : DWord) : State :=
  match regFind a regRows with
  | some (d, e, b) =>
    if d.wide && b == 0 then s.regWrite w d e v 0xFFFFFFFFFFFFFFFF
    else (s.write32 w a (v.setWidth 32)).write32 w (a + 4) ((v >>> 32).setWidth 32)
  | none => s.write32 w (a + 4) ((v >>> 32).setWidth 32)

/-- A party's write of a register of its Kite line page (Tables 12-2 to 12-4): posts, WITHDRAW, the sticky bits of KL_STATUS
and KL_TIMEOUT, which the sideband's page ignores. -/
def State.kiteWrite32 (s : State) (ch o : Nat) (v : Word) : State :=
  match o with
  | 0x00 => s.updPage ch (fun k => { k with staged := v })
  | 0x04 => s.klPost ch (v.setWidth 64) true
  | 0x10 => s.updPage ch (fun k => { k with
      overrun := k.overrun && !bit v 23, seqConflict := k.seqConflict && !bit v 22
      withdrawn := k.withdrawn && !bit v 21 })
  | 0x14 => s.if_ (bit v 0) (fun s => resState s (execKlWithdraw (BitVec.ofNat 13 ch) s))
  | 0x1C => s.if_ (ch != sbCh) (fun s => s.updPage ch (fun k => { k with timeoutSet := BitVec.ofNat 10 (fld v 0 10) }))
  | _ => s

/-- A controller's interrupts that INTMC lets through: those of completion queues with entries the host has not taken (PRESUMED
from NVM Express). -/
def State.intmClear (s : State) (f : Nat) (v : Word) : State :=
  let c := s.ctrl f
  let s := s.setCtrl f { c with intm := c.intm &&& ~~~v }
  if (s.fn f).msixEnable then s else
  s.each (List.range 1025) (fun s q =>
    let k := s.nvCq f q
    if k.live && decide (k.vector < 32) && bit (c.intm &&& v) k.vector && k.head != k.tail then s.nvIntr f q else s)

/-- CC written (Table 15-3): enable, disable, shutdown, or its other fields held. -/
def State.writeCc (s : State) (f : Fin 4104) (v : Word) : State :=
  let c := s.ctrl f.val
  if bit v 0 ∧ !bit c.cc 0 then resState s (execCcEnable f v s)
  else if !bit v 0 ∧ bit c.cc 0 then (resState s (execCcDisable f s)).updCtrl f.val (fun c => { c with cc := v })
  else if c.st = .ready ∧ (fld v 14 2 = 1 ∨ fld v 14 2 = 2) then resState s (execShutdownNotify f v s)
  else s.updCtrl f.val (fun c => { c with cc := v })

/-- The driver's write of a controller register (Table 15-1; the offsets are PRESUMED from NVM Express). CAP, VS, CSTS and NSSR
ignore writes. -/
def State.nvmeWrite32 (s : State) (f : Fin 4104) (o : Nat) (v : Word) : State :=
  let lo := fun (x : DWord) => (x &&& 0xFFFFFFFF00000000) ||| v.setWidth 64
  let hi := fun (x : DWord) => (x &&& 0xFFFFFFFF) ||| (v.setWidth 64 <<< 32)
  match o with
  | 0x0C => s.updCtrl f.val (fun c => { c with intm := c.intm ||| v })
  | 0x10 => s.intmClear f.val v
  | 0x14 => s.writeCc f v
  | 0x24 => s.updCtrl f.val (fun c => { c with aqa := v &&& 0x0FFF0FFF })
  | 0x28 => s.updCtrl f.val (fun c => { c with asq := lo c.asq })
  | 0x2C => s.updCtrl f.val (fun c => { c with asq := hi c.asq })
  | 0x30 => s.updCtrl f.val (fun c => { c with acq := lo c.acq })
  | 0x34 => s.updCtrl f.val (fun c => { c with acq := hi c.acq })
  | _ => s

/-- The driver's write of its function control page (Tables 11-4, 15-1): what is not there is counted (R227). -/
def State.pageWrite32 (s : State) (f : Fin 4104) (o : Nat) (v : Word) : State :=
  let fctl := fun (p : Nat) =>
    if p = 0x100 then resState s (execFctlIntxStatus f v s)
    else if p = 0 ∨ (0x40 ≤ p ∧ p < 0x80) ∨ p = 0x108 ∨ p = 0x10C then s
    else s.bump R.HIU_BAD_ACCESS_CNT
  if !s.isStorage f.val then fctl o
  else if o < 0x40 then s.nvmeWrite32 f o v
  else if 0x1000 ≤ o ∧ o ≤ 0x3007 then resState s (execNvmeDoorbell f (BitVec.ofNat 14 o) v s)
  else if 0x3C00 ≤ o then fctl (o - 0x3C00)
  else s.bump R.HIU_BAD_ACCESS_CNT

/-- REGISTER_WRITE: an aligned write of 32 or 64 bits (R12); two registers are written the lower first. -/
def execRegisterWrite (w : Writer) (a : BitVec 24) (wide : Bool) (v : DWord) (s : State) : Res :=
  let a := a.toNat
  let two := fun (g : State → Nat → Word → State) (s : State) =>
    if wide then g (g s a (v.setWidth 32)) (a + 4) ((v >>> 32).setWidth 32) else g s a (v.setWidth 32)
  if !accessOk a (if wide then 8 else 4) then .next (s.bump R.HIU_BAD_ACCESS_CNT) else
  match w with
  | .driver f => .next (s.barWrite f.val (two (fun s o x => s.pageWrite32 f o x)))
  | .party ch => .next (s.pageWrite ch.toNat (fun s =>
      if wide ∧ a = 0 then s.klPost ch.toNat v false else two (fun s o x => s.kiteWrite32 ch.toNat o x) s))
  | _ => .next (if wide then s.write64 w a v else s.write32 w a (v.setWidth 32))

end Sys2Proof.Machine
end

