-- ==== Sys2Proof/Machine/Sideband.lean ====
section
/-!
DEFINITION. Machine/Sideband.lean: what the sideband management block answers itself: MCTP control, SPDM over MCTP and the DOE
mailboxes, and PLDM sensors (R248, R455, R456, Table 20-13). Message layouts are those of DSP0236, DSP0274, DSP0277, DSP0240
and DSP0248 (PRESUMED), with the MCTP message type as byte 0; bytes those leave to the responder are free. SPDM signatures and
key agreement are uninterpreted; a message of a session is held as it reads once opened, behind its 4-byte session ID.
-/
namespace Sys2Proof.Machine
open Sys2Proof

/-- Whether the sideband block answers: at any time after cold reset (R455). -/
def State.sbAnswers (s : State) : Bool := s.clk.dev != .coldHeld && s.clk.dev != .tetherStart

/-- `n` bytes of a free value. -/
def anyBytes (s : State) (n : Nat) : Bytes := leBytes n s.fresh.toNat

/-- A request of MCTP control with its command code, answered with the completion code and data `reply` gives. -/
def State.mctpControl (s : State) (msg : Bytes) (cmd : Nat) (reply : State → State × Bytes) : State :=
  if !s.sbAnswers || byteAt msg 0 != 0 || !bit (byteAt msg 1) 7 || byteAt msg 2 != BitVec.ofNat 8 cmd then s else
  let (s', b) := reply s
  s'.emit (.mctp ([0, byteAt msg 1 &&& 0x1F] ++ leBytes 1 cmd ++ b))

/-- SET_ENDPOINT_ID: an ID set or forced; 0 and 0xFF name no endpoint; the discovered flag is set; no static ID to reset to. -/
def execSetEndpointId (msg : Bytes) (s : State) : Res :=
  .next (s.mctpControl msg 1 (fun s =>
    let eid := byteAt msg 4
    match fld (byteAt msg 3) 0 2 with
    | 2 => (s, [0x02])
    | 3 => (s, [0, 0, s.boot.eid, 0])
    | _ => if eid = 0 ∨ eid = 0xFF then (s, [0x02])
      else ({ s with boot := { s.boot with eid := eid, busOwnerSet := true } }, [0, 0, eid, 0])))

/-- GET_ENDPOINT_ID: a simple endpoint. -/
def execGetEndpointId (msg : Bytes) (s : State) : Res := .next (s.mctpControl msg 2 (fun s => (s, [0, s.boot.eid, 0, 0])))

/-- GET_MCTP_VERSION_SUPPORT: 1.3 for the base and control; the versions of the other types supported are free; 0x80 for a type
that is not supported. -/
def execGetMctpVersionSupport (msg : Bytes) (s : State) : Res :=
  .next (s.mctpControl msg 4 (fun s =>
    let t := (byteAt msg 3).toNat
    if t = 0xFF ∨ t = 0 then (s, [0, 1, 0xF1, 0xF3, 0xFF, 0])
    else if t ∈ [1, 5, 6, 0x7E] then (s.drew, [0, 1] ++ anyBytes s 4)
    else (s, [0x80])))

/-- GET_MESSAGE_TYPE_SUPPORT: PLDM, SPDM, secured SPDM and vendor-defined messages. -/
def execGetMessageTypeSupport (msg : Bytes) (s : State) : Res :=
  .next (s.mctpControl msg 5 (fun s => (s, [0, 4, 1, 5, 6, 0x7E])))

/-- GET_VENDOR_DEFINED_MESSAGE_SUPPORT: one set, of vendor 0x1F8A (Table 12-15); its command set version is free. -/
def execGetVendorDefinedMessageSupport (msg : Bytes) (s : State) : Res :=
  .next (s.mctpControl msg 6 (fun s =>
    if byteAt msg 3 ≠ 0 then (s, [0x02]) else (s.drew, [0, 0xFF, 0, 0x1F, 0x8A] ++ anyBytes s 2)))

/-- An SPDM ERROR with its code. -/
def spdmError (msg : Bytes) (code : Byte) : Bytes := [byteAt msg 0, 0x7F, code, 0]

/-- Whether the BOOT block is in reset, so that a measurement is answered Busy (R456). -/
def State.measBusy (s : State) : Bool := s.clk.dev == .warmHeld || s.blockHeld 23

/-- One DMTF measurement block (DSP0274): index, raw bit stream or digest, value. The value type is free. -/
def measBlock (s : State) (index : Nat) (raw : Bool) (v : Bytes) : Bytes :=
  leBytes 1 index ++ [1] ++ leBytes 2 (v.length + 3) ++ leBytes 1 (fld s.fresh 0 7 + at' (b2n raw) 7) ++ leBytes 2 v.length ++ v

/-- Measurement index `n` (R456): 1 to 16 the slots, 0x11 the boot verdict. -/
def measAt (s : State) (n : Nat) : Bytes :=
  if n = 0x11 then measBlock s n true (bvBytes s.boot.verdict)
  else measBlock s n false (bvBytes (mapGet (fun _ => (0 : BitVec 384)) s.boot.meas (n - 1)))

/-- All 17 measurements. -/
def measAll (s : State) : Bytes := (List.range 17).flatMap (fun i => measAt s (i + 1))

/-- A measurement summary hash: of all measurements, free for the trusted computing base, which the spec does not name. -/
def measSummary (s : State) (kind : Byte) : Bytes :=
  if kind = 0 then [] else if kind = 0xFF then bvBytes (Config.sha384 (measAll s)) else anyBytes s 48

/-- The session of an identifier. -/
def State.session (s : State) (sid : Word) : Option Spdm := s.boot.spdm.find? (fun x => x.id == sid)

/-- An identifier that no session has, from the requester's half and a half the device chooses, which is free. -/
def State.newSession (s : State) (req : Nat) : Word :=
  let at_ := fun (i : Nat) => BitVec.ofNat 32 (req + at' ((fld s.fresh 0 16 + i) % 65536) 16)
  at_ (((List.range 9).find? (fun i => (s.session (at_ i)).isNone)).getD 0)

/-- Who carries an SPDM message: the link of a DOE mailbox or MCTP, and the session it is in. -/
structure SpdmVia where
  link : Option Nat
  sid : Option Word
  deriving DecidableEq, Repr

/-- The session a message is in, where it is established. -/
def State.inSession (s : State) (via : SpdmVia) : Option Spdm :=
  match via.sid with
  | some i => (s.session i).filter (fun x => x.established && x.link == via.link)
  | none => none

/-- The selective IDE stream of link `k` to which a PF of the link gives a Stream ID (PCIe 6.0, PRESUMED: IDE stream control bits
[31:24]). -/
def State.ideStream (s : State) (k id : Nat) : Option Nat :=
  let pfs := (List.range 8).filter (fun p => s.pfPresent p && s.pfLink p == k)
  (List.range 4).find? (fun i => pfs.any (fun p => fld (mapGet (fun _ => (0 : Word)) (s.fn p).cfgRw (32 + i)) 24 8 == id))

/-- One message of the IDE key management protocol on link `k`, with its answer (R247; the layouts of PCIe 6.0, PRESUMED): QUERY,
KEY_PROG, which sets the key of a sub-stream, a direction and a key set, K_SET_GO, which takes a key into use, and K_SET_STOP. A
stream all of whose six keys of a set are in use carries traffic; stopped, it carries none. -/
def State.ideKm (s : State) (k : Nat) (p : Bytes) : State × Option Bytes :=
  let sub := (byteAt p 6).toNat
  let place := sub % 4 + 4 * (sub / 16)
  let ok := byteAt p 7 == 0 && fld (byteAt p 6) 2 2 == 0 && decide (sub / 16 < 3)
  let same := [byteAt p 6, byteAt p 7]
  let ack := fun (s : State) => (s, some ([0, 6, 0, 0, byteAt p 4, 0] ++ same))
  match (byteAt p 1).toNat, s.ideStream k (byteAt p 4).toNat with
  | 0, _ => (s.drew, some ([0, 1, 0, byteAt p 3] ++ anyBytes s 3 ++ [0] ++ leBytes 4 (0x42 + at' 3 16) ++ leBytes 4 0))
  | 2, i =>
    let st : Byte := if p.length ≠ 48 then 1 else if byteAt p 7 ≠ 0 then 2 else if !ok || i.isNone then 3 else 0
    let key := bytesBv 320 (slice p 8 40)
    let s := s.if_ (st == 0) (fun s => { s with hiu := { s.hiu with
      ideKey := mapSet (fun _ => 0) s.hiu.ideKey ((k * 4 + i.getD 0) * 16 + place) key } })
    (s, some ([0, 3, 0, 0, byteAt p 4, st] ++ same))
  | 4, some i =>
    let at_ := (k * 4 + i) * 16
    if !ok || !s.hiu.ideKey.any (fun e => e.1 == at_ + place) then ack s else
    let go := mapSet (fun _ => false) s.hiu.ideGo (at_ + place) true
    let all := (List.range 6).all (fun j => mapGet (fun _ => false) go (at_ + place % 2 + 2 * j))
    ack { s with hiu := { s.hiu with
      ideGo := go, ide := if all then mapSet (fun _ => 0) s.hiu.ide (k * 4 + i) 1 else s.hiu.ide } }
  | 5, some i =>
    let at_ := (k * 4 + i) * 16
    ack { s with hiu := { s.hiu with
      ideGo := mapSet (fun _ => false) s.hiu.ideGo (at_ + place) false, ide := mapSet (fun _ => 0) s.hiu.ide (k * 4 + i) 0 } }
  | 4, none | 5, none => ack s
  | _, _ => (s, none)

/-- A vendor-defined SPDM request: IDE key management, PCI-SIG protocol 0, in an established session over a DOE mailbox (R247);
any other is not supported. -/
def State.spdmVendor (s : State) (via : SpdmVia) (msg : Bytes) : State × Bytes :=
  let p := slice msg 11 (leAt msg 9 2)
  match via.link, s.inSession via with
  | some k, some _ =>
    if leAt msg 4 2 ≠ 3 ∨ byteAt msg 6 ≠ 2 ∨ leAt msg 7 2 ≠ 1 ∨ byteAt p 0 ≠ 0 then (s, spdmError msg 0x07) else
    match s.ideKm k p with
    | (s', some r) => (s', [byteAt msg 0, 0x7E, 0, 0] ++ slice msg 4 5 ++ leBytes 2 r.length ++ r)
    | (s', none) => (s', spdmError msg 0x07)
  | _, _ => (s, spdmError msg 0x07)

/-- The answer to one SPDM request that is not a chunk (R455, R456): DSP0274 codes 0x81 to 0x84, 0xE0, 0xE1, 0xE3 to 0xE5,
0xE8, 0xE9, 0xEC and 0xFE. What is not supported draws UnsupportedRequest. -/
def State.spdmAnswer (s : State) (via : SpdmVia) (msg : Bytes) : State × Bytes :=
  let chain := Config.certChain s.boot.fuse.sec
  let ver := byteAt msg 0
  let p1 := byteAt msg 2
  let p2 := byteAt msg 3
  let sign := fun (b : Bytes) => b ++ Config.ecdsaSign (msg ++ b)
  let code := (byteAt msg 1).toNat
  if code ≠ 0x84 ∧ ver ∉ ([0x10, 0x11, 0x12] : List Byte) then (s, spdmError msg 0x41) else
  match code with
  | 0x81 => (s, [ver, 0x01, 0, 1] ++ bvBytes (Config.sha384 chain))
  | 0x82 =>
    let off := leAt msg 4 2
    if fld p1 0 4 ≠ 0 ∨ chain.length ≤ off then (s, spdmError msg 0x01) else
    let part := slice chain off (leAt msg 6 2)
    (s, [ver, 0x02, 0, 0] ++ leBytes 2 part.length ++ leBytes 2 (chain.length - off - part.length) ++ part)
  | 0x83 =>
    if fld p1 0 4 ≠ 0 then (s, spdmError msg 0x01)
    else if p2 ≠ 0 ∧ s.measBusy then (s, spdmError msg 0x03)
    else (s.drew, sign ([ver, 0x03, 0, 1] ++ bvBytes (Config.sha384 chain) ++ anyBytes s 32 ++ measSummary s p2 ++ [0, 0]))
  | 0x84 => (s, [0x10, 0x04, 0, 0, 0, 3, 0, 0x10, 0, 0x11, 0, 0x12])
  | 0xE0 =>
    if s.measBusy then (s, spdmError msg 0x03) else
    let n := p2.toNat
    let known := n = 0 ∨ n = 0xFF ∨ n ≤ 0x11
    if !known then (s, spdmError msg 0x01) else
    let recs := if n = 0 then [] else if n = 0xFF then measAll s else measAt s n
    let cnt := if n = 0 then 0 else if n = 0xFF then 17 else 1
    let b := [ver, 0x60, if n = 0 then 17 else 0, 0] ++ leBytes 1 cnt ++ leBytes 3 recs.length ++ recs ++ anyBytes s 32 ++ [0, 0]
    (s.drew, if bit p1 0 then sign b else b)
  | 0xE1 | 0xE3 => (s, Config.spdmAnswer msg)
  | 0xE4 =>
    if fld p2 0 4 ≠ 0 then (s, spdmError msg 0x01)
    else if 8 ≤ s.boot.spdm.length then (s, spdmError msg 0x0A)
    else if p1 ≠ 0 ∧ s.measBusy then (s, spdmError msg 0x03)
    else
      let id := s.newSession (leAt msg 4 2)
      ({ s.drew with boot := { s.boot with spdm := s.boot.spdm ++ [⟨id, false, via.link, 0⟩] } },
        sign ([ver, 0x64, 0, 0] ++ leBytes 2 (fld id 16 16) ++ [0, 0] ++ Config.spdmAnswer msg ++ measSummary s p1))
  | 0xE5 =>
    match via.sid.bind s.session with
    | none => (s, spdmError msg 0x0B)
    | some x =>
      let rest := s.boot.spdm.filter (fun y => y.id != x.id)
      if x.established ∨ x.link ≠ via.link then (s, spdmError msg 0x04)
      else if Config.spdmFinishOk msg then
        ({ s with boot := { s.boot with spdm := rest ++ [{ x with established := true }] } }, [ver, 0x65, 0, 0])
      else ({ s with boot := { s.boot with spdm := rest } }, spdmError msg 0x06)
  | 0xE8 => if (s.inSession via).isSome then (s, [ver, 0x68, 0, 0]) else (s, spdmError msg 0x0B)
  | 0xE9 =>
    match s.inSession via with
    | none => (s, spdmError msg 0x0B)
    | some x =>
      if p1 ∉ ([1, 2, 3] : List Byte) then (s, spdmError msg 0x01) else
      let up := s.boot.spdm.map (fun y => if y.id = x.id ∧ p1 ≠ 3 then { y with updates := y.updates + 1 } else y)
      ({ s with boot := { s.boot with spdm := up } }, [ver, 0x69, p1, p2])
  | 0xEC =>
    match s.inSession via with
    | none => (s, spdmError msg 0x0B)
    | some x => ({ s with boot := { s.boot with spdm := s.boot.spdm.filter (fun y => y.id != x.id) } }, [ver, 0x6C, 0, 0])
  | 0xFE => s.spdmVendor via msg
  | _ => (s, spdmError msg 0x07)

/-- The longest SPDM response one message carries: an MCTP message is at most 1,024 bytes, and a transfer 4,096 (Table
20-13). -/
def spdmLimit (via : SpdmVia) : Nat :=
  (if via.link.isNone then 1023 else 4096) - (if via.sid.isSome then 4 else 0)

/-- A response too long for one message is kept and fetched by CHUNK_GET: ERROR LargeResponse with a handle, which is free. -/
def State.spdmLarge (s : State) (via : SpdmVia) (msg resp : Bytes) : State × Bytes :=
  if resp.length ≤ spdmLimit via then (s, resp) else
  let h := fld s.fresh 0 8
  ({ s.drew with boot := { s.boot with chunkOut := some ⟨h, resp.length, 0, resp⟩ } }, spdmError msg 0x0F ++ leBytes 1 h)

/-- CHUNK_SEND: chunks of one handle in order; the last one's large request is answered in its acknowledgement. -/
def State.spdmChunkSend (s : State) (via : SpdmVia) (msg : Bytes) : State × Bytes :=
  let ver := byteAt msg 0
  let h := (byteAt msg 3).toNat
  let no := leAt msg 4 2
  let size := leAt msg 8 4
  let (was, part) : Option Chunk × Bytes :=
    if no = 0 then (some ⟨h, leAt msg 12 4, 0, []⟩, slice msg 16 size) else (s.boot.chunkIn, slice msg 12 size)
  let put := fun (s : State) (c : Option Chunk) => { s with boot := { s.boot with chunkIn := c } }
  let early : State × Bytes := (put s none, [ver, 0x05, 1] ++ leBytes 1 h ++ leBytes 2 no ++ spdmError msg 0x01)
  match was with
  | none => early
  | some c =>
    let data := c.data ++ part
    if c.handle ≠ h ∨ c.next ≠ no ∨ c.size < data.length then early
    else if !bit (byteAt msg 2) 0 then
      (put s (some { c with next := no + 1, data := data }), [ver, 0x05, 0] ++ leBytes 1 h ++ leBytes 2 no)
    else if data.length ≠ c.size then early
    else
      let (s', r) := (put s none).spdmAnswer via data
      let (s'', r') := s'.spdmLarge via msg r
      (s'', [ver, 0x05, 0] ++ leBytes 1 h ++ leBytes 2 no ++ r')

/-- CHUNK_GET: the next chunk of the large response. -/
def State.spdmChunkGet (s : State) (via : SpdmVia) (msg : Bytes) : State × Bytes :=
  let ver := byteAt msg 0
  let no := leAt msg 4 2
  match s.boot.chunkOut with
  | none => (s, spdmError msg 0x04)
  | some c =>
    if c.handle ≠ (byteAt msg 3).toNat ∨ c.next ≠ no then (s, spdmError msg 0x01) else
    let n := min c.data.length (spdmLimit via - (if no = 0 then 16 else 12))
    let last := n == c.data.length
    let left : Option Chunk := if last then none else some { c with next := no + 1, data := c.data.drop n }
    ({ s with boot := { s.boot with chunkOut := left } },
      [ver, 0x06, if last then 1 else 0] ++ leBytes 1 c.handle ++ leBytes 2 no ++ [0, 0] ++ leBytes 4 n ++
        (if no = 0 then leBytes 4 c.size else []) ++ c.data.take n)

/-- One SPDM request and its answer. -/
def State.spdm (s : State) (via : SpdmVia) (msg : Bytes) : State × Bytes :=
  match (byteAt msg 1).toNat with
  | 0x85 => s.spdmChunkSend via msg
  | 0x86 => s.spdmChunkGet via msg
  | _ => let (s', r) := s.spdmAnswer via msg; s'.spdmLarge via msg r

/-- An SPDM request in an MCTP message: type 5, or type 6 with its session ID; one of an unknown session is dropped. -/
def State.spdmMctp (s : State) (msg : Bytes) (code : Nat) : State :=
  let run := fun (via : SpdmVia) (head body : Bytes) =>
    if (byteAt body 1).toNat ≠ code then s else
    let (s', r) := s.spdm via body
    s'.emit (.mctp (head ++ r))
  if !s.sbAnswers then s else
  match (byteAt msg 0).toNat with
  | 5 => run ⟨none, none⟩ [5] (msg.drop 1)
  | 6 =>
    let sid := bytesBv 32 (slice msg 1 4)
    if (s.session sid).isNone then s else run ⟨none, some sid⟩ ([6] ++ slice msg 1 4) (msg.drop 5)
  | _ => s

/-- GET_DIGESTS. -/
def execGetDigests (msg : Bytes) (s : State) : Res := .next (s.spdmMctp msg 0x81)

/-- GET_CERTIFICATE (R456). -/
def execGetCertificate (msg : Bytes) (s : State) : Res := .next (s.spdmMctp msg 0x82)

/-- CHALLENGE (R456). -/
def execChallenge (msg : Bytes) (s : State) : Res := .next (s.spdmMctp msg 0x83)

/-- GET_MEASUREMENTS (R456). -/
def execGetMeasurements (msg : Bytes) (s : State) : Res := .next (s.spdmMctp msg 0xE0)

/-- KEY_EXCHANGE. -/
def execKeyExchange (msg : Bytes) (s : State) : Res := .next (s.spdmMctp msg 0xE4)

/-- FINISH. -/
def execFinish (msg : Bytes) (s : State) : Res := .next (s.spdmMctp msg 0xE5)

/-- HEARTBEAT. -/
def execHeartbeat (msg : Bytes) (s : State) : Res := .next (s.spdmMctp msg 0xE8)

/-- KEY_UPDATE. -/
def execKeyUpdate (msg : Bytes) (s : State) : Res := .next (s.spdmMctp msg 0xE9)

/-- END_SESSION. -/
def execEndSession (msg : Bytes) (s : State) : Res := .next (s.spdmMctp msg 0xEC)

/-- CHUNK_SEND. -/
def execChunkSend (msg : Bytes) (s : State) : Res := .next (s.spdmMctp msg 0x85)

/-- CHUNK_GET. -/
def execChunkGet (msg : Bytes) (s : State) : Res := .next (s.spdmMctp msg 0x86)

/-- NUMERIC_SENSOR_READ: GetSensorReading of PLDM Type 2: sensors 0 to 18 the temperatures, signed, 19 to 26 the rails
(Table 20-13); 0x80 for another sensor. The sensor's states are given as unknown. -/
def execNumericSensorRead (msg : Bytes) (s : State) : Res :=
  if !s.sbAnswers || byteAt msg 0 != 1 || !bit (byteAt msg 1) 7 || fld (byteAt msg 2) 0 6 ≠ 2 || byteAt msg 3 != 0x11 then
    .next s
  else
    let id := leAt msg 4 2
    let head : Bytes := [1, byteAt msg 1 &&& 0x1F, byteAt msg 2, 0x11]
    let v := if id < 19 then s.rdf (R.TETHER_TEMP id) 0 16 else s.rdf (R.TETHER_RAIL_MV (id - 19)) 0 16
    .next (s.emit (.mctp (if 27 ≤ id then head ++ [0x80]
      else head ++ [0, if id < 19 then 3 else 2, 0, 0, 0, 0, 0] ++ leBytes 2 v)))

/-- The DOE mailbox of a PF. -/
def State.doeBox (s : State) (f : Nat) : Doe := mapGet (fun _ => ⟨false, []⟩) s.hiu.doe f

def State.setDoe (s : State) (f : Nat) (d : Doe) : State :=
  { s with hiu := { s.hiu with doe := mapSet (fun _ => ⟨false, []⟩) s.hiu.doe f d } }

/-- The bytes of a run of words, and the words of a run of bytes, filled with zeros. -/
def wordsBytes (l : List Word) : Bytes := l.flatMap bvBytes

def bytesWords (b : Bytes) : List Word :=
  (List.range (ceilDiv b.length 4)).map (fun i => BitVec.ofNat 32 (leAt b (4 * i) 4))

/-- A data object of the PCI-SIG's vendor ID (DOE, PRESUMED): type, length in words, content. -/
def doeObj (type : Nat) (content : Bytes) : List Word :=
  [BitVec.ofNat 32 (1 + at' type 16), BitVec.ofNat 32 (2 + ceilDiv content.length 4)] ++ bytesWords content

/-- The content of the answer to an object of a type, with what it changes: DOE Discovery, SPDM, SPDM in a session. -/
def State.doeAnswer (s : State) (k type : Nat) (body : Bytes) : State × Option Bytes :=
  match type with
  | 0 =>
    let i := (byteAt body 0).toNat
    (s, some (if i < 3 then [1, 0] ++ leBytes 1 i ++ leBytes 1 ((i + 1) % 3) else [0xFF, 0xFF, 0, 0]))
  | 1 => let (s', r) := s.spdm ⟨some k, none⟩ body; (s', some r)
  | 2 =>
    let sid := bytesBv 32 (body.take 4)
    if (s.session sid).isNone then (s, none) else
    let (s', r) := s.spdm ⟨some k, some sid⟩ (body.drop 4)
    (s', some (body.take 4 ++ r))
  | _ => (s, none)

/-- DOE_OBJECT: a data object written to a PF's mailbox is taken and answered; one longer than 64 KiB sets Error and is
discarded, and so is one whose length field is not its length (DEDUCED); with Error set nothing is taken until an Abort
(PRESUMED). -/
def execDoeObject (f : Fin 4104) (object : List Word) (s : State) : Res :=
  let f := f.val
  if 8 ≤ f ∨ !s.cfgAnswers f ∨ !s.sbAnswers ∨ (s.doeBox f).error then .next s
  else if 16384 < object.length ∨ fld (object.getD 1 0) 0 18 ≠ object.length then .next (s.setDoe f ⟨true, []⟩)
  else
    let head := object.getD 0 0
    if fld head 0 16 ≠ 1 then .next s else
    match s.doeAnswer (s.fnLink f) (fld head 16 8) (wordsBytes (object.drop 2)) with
    | (s', some r) =>
      let o := doeObj (fld head 16 8) r
      .next ((s'.setDoe f ⟨false, o⟩).emit (.doe f o))
    | (s', none) => .next s'

/-- DOE_ABORT clears the exchange (R248). -/
def execDoeAbort (f : Fin 4104) (s : State) : Res :=
  .next (s.if_ (decide (f.val < 8) && s.cfgAnswers f.val) (fun s => s.setDoe f.val ⟨false, []⟩))

end Sys2Proof.Machine
end

