-- ==== Sys2Proof/Machine/Dispatch.lean ====
section
/-!
DEFINITION. Machine/Dispatch.lean: the effect of each command on everything but the queue of waiting commands, one arm for
each constructor.
-/
namespace Sys2Proof.Machine
open Sys2Proof

/-- The command's effect (the table of operations and events). -/
def exec (i : Instr) (s : State) : Host.Outcome State Fault Refusal :=
  match i with
  | .hostRegisterWriteDiscard f a v => Sys2Proof.Machine.execHostRegisterWriteDiscard f a v s
  | .unalignedAccess f write a len db => Sys2Proof.Machine.execUnalignedAccess f write a len s db
  | .rcRead a wide => Sys2Proof.Machine.execRcRead a wide s
  | .registerWrite w a wide v => Sys2Proof.Machine.execRegisterWrite w a wide v s
  | .eventCrossingDeliver n => Sys2Proof.Machine.execEventCrossingDeliver n s
  | .msixUnmask f v addr data masked => Sys2Proof.Machine.execMsixUnmask f v addr data masked s
  | .msiUnmask f v => Sys2Proof.Machine.execMsiUnmask f v s
  | .fwEventTake => Sys2Proof.Machine.execFwEventTake s
  | .tetherEventTake => Sys2Proof.Machine.execTetherEventTake s
  | .evtRouteSet ch seq => Sys2Proof.Machine.execEvtRouteSet ch seq s
  | .packetParse u => Sys2Proof.Machine.execPacketParse u s
  | .reparse => Sys2Proof.Machine.execReparse s
  | .laneHoldRelease x => Sys2Proof.Machine.execLaneHoldRelease x s
  | .followWaitExpire slot idx => Sys2Proof.Machine.execFollowWaitExpire slot idx s
  | .followAgeExpire slot idx => Sys2Proof.Machine.execFollowAgeExpire slot idx s
  | .laneMapSet ch seq => Sys2Proof.Machine.execLaneMapSet ch seq s
  | .parseCfg ch seq => Sys2Proof.Machine.execParseCfg ch seq s
  | .carriagewayPass x flip bad => Sys2Proof.Machine.execCarriagewayPass x flip bad s
  | .tcamCommit v => Sys2Proof.Machine.execTcamCommit v s
  | .rulesetLoad ch seq => Sys2Proof.Machine.execRulesetLoad ch seq s
  | .rulesetCommit ch seq => Sys2Proof.Machine.execRulesetCommit ch seq s
  | .rulesetDiscard ch seq => Sys2Proof.Machine.execRulesetDiscard ch seq s
  | .learnApply x => Sys2Proof.Machine.execLearnApply x s
  | .stationCopyApply x => Sys2Proof.Machine.execStationCopyApply x s
  | .ageTick => Sys2Proof.Machine.execAgeTick s
  | .sweeperVisit x tbl => Sys2Proof.Machine.execSweeperVisit x tbl s
  | .taReadKey ring no => Sys2Proof.Machine.execTaReadKey ring no s
  | .taReadIndex ring no => Sys2Proof.Machine.execTaReadIndex ring no s
  | .taDump ring no => Sys2Proof.Machine.execTaDump ring no s
  | .taWrite ring no => Sys2Proof.Machine.execTaWrite ring no s
  | .taDelete ring no => Sys2Proof.Machine.execTaDelete ring no s
  | .shadowWindowOpen => Sys2Proof.Machine.execShadowWindowOpen s
  | .shadowWindowEnd => Sys2Proof.Machine.execShadowWindowEnd s
  | .shadowPass flip => Sys2Proof.Machine.execShadowPass flip s
  | .tieBreakReplay flip => Sys2Proof.Machine.execTieBreakReplay flip s
  | .substitution => Sys2Proof.Machine.execSubstitution s
  | .shoulderForce ch seq => Sys2Proof.Machine.execShoulderForce ch seq s
  | .shoulderCfg ch seq => Sys2Proof.Machine.execShoulderCfg ch seq s
  | .tmAdmit => Sys2Proof.Machine.execTmAdmit s
  | .tmSend n bad => Sys2Proof.Machine.execTmSend n bad s
  | .shaperRefill => Sys2Proof.Machine.execShaperRefill s
  | .timeGateEntry p => Sys2Proof.Machine.execTimeGateEntry p s
  | .timeGateSwitch p => Sys2Proof.Machine.execTimeGateSwitch p s
  | .tmIndRead v => Sys2Proof.Machine.execTmIndRead v s
  | .tmIndWrite v => Sys2Proof.Machine.execTmIndWrite v s
  | .tmRead ch seq => Sys2Proof.Machine.execTmRead ch seq s
  | .tmWrite ch seq => Sys2Proof.Machine.execTmWrite ch seq s
  | .tmDrain ch seq => Sys2Proof.Machine.execTmDrain ch seq s
  | .tmDrainDone ch seq => Sys2Proof.Machine.execTmDrainDone ch seq s
  | .tmFlush ch seq => Sys2Proof.Machine.execTmFlush ch seq s
  | .tgLoad ch seq => Sys2Proof.Machine.execTgLoad ch seq s
  | .tgSwitch ch seq => Sys2Proof.Machine.execTgSwitch ch seq s
  | .poolSet ch seq => Sys2Proof.Machine.execPoolSet ch seq s
  | .lineFrameReceive p frame ok symErr => Sys2Proof.Machine.execLineFrameReceive p frame ok symErr s
  | .pauseExpire p c => Sys2Proof.Machine.execPauseExpire p c s
  | .pfcRefresh p c => Sys2Proof.Machine.execPfcRefresh p c s
  | .alignmentLoss p cutTx cutRx => Sys2Proof.Machine.execAlignmentLoss p cutTx cutRx s
  | .linkDown p => Sys2Proof.Machine.execLinkDown p s
  | .trainingComplete p => Sys2Proof.Machine.execTrainingComplete p s
  | .trainingTimeout p => Sys2Proof.Machine.execTrainingTimeout p s
  | .linkUp p => Sys2Proof.Machine.execLinkUp p s
  | .alignTimeout p => Sys2Proof.Machine.execAlignTimeout p s
  | .fecDegraded p errors => Sys2Proof.Machine.execFecDegraded p errors s
  | .mgmtFrameReceive frame ok => Sys2Proof.Machine.execMgmtFrameReceive frame ok s
  | .mgmtLink up => Sys2Proof.Machine.execMgmtLink up s
  | .portOption ch seq => Sys2Proof.Machine.execPortOption ch seq s
  | .portCfg ch seq => Sys2Proof.Machine.execPortCfg ch seq s
  | .pfcThresh ch seq => Sys2Proof.Machine.execPfcThresh ch seq s
  | .mgmtCfg ch seq => Sys2Proof.Machine.execMgmtCfg ch seq s
  | .timeIncrWrite ch seq => Sys2Proof.Machine.execTimeIncrWrite ch seq s
  | .timeSlew ch seq => Sys2Proof.Machine.execTimeSlew ch seq s
  | .timeSetStep ch seq => Sys2Proof.Machine.execTimeSetStep ch seq s
  | .timeOffsetStep ch seq => Sys2Proof.Machine.execTimeOffsetStep ch seq s
  | .ppsOut => Sys2Proof.Machine.execPpsOut s
  | .ppsIn => Sys2Proof.Machine.execPpsIn s
  | .lineRefLost => Sys2Proof.Machine.execLineRefLost s
  | .hostRefLost n => Sys2Proof.Machine.execHostRefLost n s
  | .junctionDeliver => Sys2Proof.Machine.execJunctionDeliver s
  | .classDispatch c => Sys2Proof.Machine.execClassDispatch c s
  | .channelRebind e c => Sys2Proof.Machine.execChannelRebind e c s
  | .engStall e => Sys2Proof.Machine.execEngStall e s
  | .requestReply e t tag bad => Sys2Proof.Machine.execRequestReply e t tag bad s
  | .bundleLoad ch seq cpl data => Sys2Proof.Machine.execBundleLoad ch seq cpl data s
  | .engRun ch seq => Sys2Proof.Machine.execEngRun ch seq s
  | .threadRestart ch seq => Sys2Proof.Machine.execThreadRestart ch seq s
  | .engMap ch seq => Sys2Proof.Machine.execEngMap ch seq s
  | .classCfg ch seq => Sys2Proof.Machine.execClassCfg ch seq s
  | .thrAdd e t m => Sys2Proof.Machine.execThrAdd e t s m
  | .thrSub e t m => Sys2Proof.Machine.execThrSub e t s m
  | .thrAnd e t m => Sys2Proof.Machine.execThrAnd e t s m
  | .thrOr e t m => Sys2Proof.Machine.execThrOr e t s m
  | .thrXor e t m => Sys2Proof.Machine.execThrXor e t s m
  | .thrSll e t m => Sys2Proof.Machine.execThrSll e t s m
  | .thrSrl e t m => Sys2Proof.Machine.execThrSrl e t s m
  | .thrSra e t m => Sys2Proof.Machine.execThrSra e t s m
  | .thrSlt e t m => Sys2Proof.Machine.execThrSlt e t s m
  | .thrSltu e t m => Sys2Proof.Machine.execThrSltu e t s m
  | .thrMul e t m => Sys2Proof.Machine.execThrMul e t s m
  | .thrMulhu e t m => Sys2Proof.Machine.execThrMulhu e t s m
  | .thrMin e t m => Sys2Proof.Machine.execThrMin e t s m
  | .thrMax e t m => Sys2Proof.Machine.execThrMax e t s m
  | .thrMinu e t m => Sys2Proof.Machine.execThrMinu e t s m
  | .thrMaxu e t m => Sys2Proof.Machine.execThrMaxu e t s m
  | .thrSlli e t m => Sys2Proof.Machine.execThrSlli e t s m
  | .thrSrli e t m => Sys2Proof.Machine.execThrSrli e t s m
  | .thrSrai e t m => Sys2Proof.Machine.execThrSrai e t s m
  | .thrPopc e t m => Sys2Proof.Machine.execThrPopc e t s m
  | .thrClz e t m => Sys2Proof.Machine.execThrClz e t s m
  | .thrCtz e t m => Sys2Proof.Machine.execThrCtz e t s m
  | .thrBswap64 e t m => Sys2Proof.Machine.execThrBswap64 e t s m
  | .thrBswap32 e t m => Sys2Proof.Machine.execThrBswap32 e t s m
  | .thrBswap16 e t m => Sys2Proof.Machine.execThrBswap16 e t s m
  | .thrAddi e t m => Sys2Proof.Machine.execThrAddi e t s m
  | .thrAndi e t m => Sys2Proof.Machine.execThrAndi e t s m
  | .thrOri e t m => Sys2Proof.Machine.execThrOri e t s m
  | .thrXori e t m => Sys2Proof.Machine.execThrXori e t s m
  | .thrSlti e t m => Sys2Proof.Machine.execThrSlti e t s m
  | .thrMovi e t m => Sys2Proof.Machine.execThrMovi e t s m
  | .thrMovk e t m => Sys2Proof.Machine.execThrMovk e t s m
  | .thrBfx e t m => Sys2Proof.Machine.execThrBfx e t s m
  | .thrBfxs e t m => Sys2Proof.Machine.execThrBfxs e t s m
  | .thrBfi e t m => Sys2Proof.Machine.execThrBfi e t s m
  | .thrCrc32c8 e t m => Sys2Proof.Machine.execThrCrc32c8 e t s m
  | .thrCrc32c16 e t m => Sys2Proof.Machine.execThrCrc32c16 e t s m
  | .thrCrc32c32 e t m => Sys2Proof.Machine.execThrCrc32c32 e t s m
  | .thrCrc32c64 e t m => Sys2Proof.Machine.execThrCrc32c64 e t s m
  | .thrCrc32e8 e t m => Sys2Proof.Machine.execThrCrc32e8 e t s m
  | .thrCrc32e16 e t m => Sys2Proof.Machine.execThrCrc32e16 e t s m
  | .thrCrc32e32 e t m => Sys2Proof.Machine.execThrCrc32e32 e t s m
  | .thrCrc32e64 e t m => Sys2Proof.Machine.execThrCrc32e64 e t s m
  | .thrFold16 e t m => Sys2Proof.Machine.execThrFold16 e t s m
  | .thrMix16 e t m => Sys2Proof.Machine.execThrMix16 e t s m
  | .thrAadd e t m => Sys2Proof.Machine.execThrAadd e t s m
  | .thrAand e t m => Sys2Proof.Machine.execThrAand e t s m
  | .thrAor e t m => Sys2Proof.Machine.execThrAor e t s m
  | .thrAxor e t m => Sys2Proof.Machine.execThrAxor e t s m
  | .thrAswap e t m => Sys2Proof.Machine.execThrAswap e t s m
  | .thrAminu e t m => Sys2Proof.Machine.execThrAminu e t s m
  | .thrAmaxu e t m => Sys2Proof.Machine.execThrAmaxu e t s m
  | .thrAcas e t m => Sys2Proof.Machine.execThrAcas e t s m
  | .thrLdb e t m => Sys2Proof.Machine.execThrLdb e t s m
  | .thrLdh e t m => Sys2Proof.Machine.execThrLdh e t s m
  | .thrLdw e t m => Sys2Proof.Machine.execThrLdw e t s m
  | .thrLdd e t m => Sys2Proof.Machine.execThrLdd e t s m
  | .thrStb e t m => Sys2Proof.Machine.execThrStb e t s m
  | .thrSth e t m => Sys2Proof.Machine.execThrSth e t s m
  | .thrStw e t m => Sys2Proof.Machine.execThrStw e t s m
  | .thrStd e t m => Sys2Proof.Machine.execThrStd e t s m
  | .thrBeq e t m => Sys2Proof.Machine.execThrBeq e t s m
  | .thrBne e t m => Sys2Proof.Machine.execThrBne e t s m
  | .thrBlt e t m => Sys2Proof.Machine.execThrBlt e t s m
  | .thrBge e t m => Sys2Proof.Machine.execThrBge e t s m
  | .thrBltu e t m => Sys2Proof.Machine.execThrBltu e t s m
  | .thrBgeu e t m => Sys2Proof.Machine.execThrBgeu e t s m
  | .thrJal e t m => Sys2Proof.Machine.execThrJal e t s m
  | .thrJalr e t m => Sys2Proof.Machine.execThrJalr e t s m
  | .thrChrd e t m => Sys2Proof.Machine.execThrChrd e t s m
  | .thrChrdnb e t m => Sys2Proof.Machine.execThrChrdnb e t s m
  | .thrOrphrd e t m => Sys2Proof.Machine.execThrOrphrd e t s m
  | .thrChlvl e t m => Sys2Proof.Machine.execThrChlvl e t s m
  | .thrChst e t m => Sys2Proof.Machine.execThrChst e t s m
  | .thrChcmt e t m => Sys2Proof.Machine.execThrChcmt e t s m
  | .thrChabort e t m => Sys2Proof.Machine.execThrChabort e t s m
  | .thrSprd e t m => Sys2Proof.Machine.execThrSprd e t s m
  | .thrSpwr e t m => Sys2Proof.Machine.execThrSpwr e t s m
  | .thrPkttm e t m => Sys2Proof.Machine.execThrPkttm e t s m
  | .thrPktcw e t m => Sys2Proof.Machine.execThrPktcw e t s m
  | .thrPktdrop e t m => Sys2Proof.Machine.execThrPktdrop e t s m
  | .thrPktnew e t m => Sys2Proof.Machine.execThrPktnew e t s m
  | .thrPktrd e t m => Sys2Proof.Machine.execThrPktrd e t s m
  | .thrPktwr e t m => Sys2Proof.Machine.execThrPktwr e t s m
  | .thrHbmrd e t m => Sys2Proof.Machine.execThrHbmrd e t s m
  | .thrHbmwr e t m => Sys2Proof.Machine.execThrHbmwr e t s m
  | .thrLkup e t m => Sys2Proof.Machine.execThrLkup e t s m
  | .thrWait e t m => Sys2Proof.Machine.execThrWait e t s m
  | .thrNop e t m => Sys2Proof.Machine.execThrNop e t s m
  | .thrEnd e t m => Sys2Proof.Machine.execThrEnd e t s m
  | .thrFence e t m => Sys2Proof.Machine.execThrFence e t s m
  | .thrTstat e t m => Sys2Proof.Machine.execThrTstat e t s m
  | .thrTime e t m => Sys2Proof.Machine.execThrTime e t s m
  | .thrSelf e t m => Sys2Proof.Machine.execThrSelf e t s m
  | .configRequest f write reg v => Sys2Proof.Machine.execConfigRequest f write reg v s
  | .cfgReadySet k => Sys2Proof.Machine.execCfgReadySet k s
  | .barUnusedAccess f write => Sys2Proof.Machine.execBarUnusedAccess f write s
  | .completionReceive k f tag cpl data => Sys2Proof.Machine.execCompletionReceive k f tag cpl data s
  | .completionTimeout k tag => Sys2Proof.Machine.execCompletionTimeout k tag s
  | .tagRelease k tag => Sys2Proof.Machine.execTagRelease k tag s
  | .bmeClear f => Sys2Proof.Machine.execBmeClear f s
  | .bmeSet f => Sys2Proof.Machine.execBmeSet f s
  | .flrInitiate f => Sys2Proof.Machine.execFlrInitiate f s
  | .flrQuietPoint f => Sys2Proof.Machine.execFlrQuietPoint f s
  | .flrDone f => Sys2Proof.Machine.execFlrDone f s
  | .fctlIntxStatus f v => Sys2Proof.Machine.execFctlIntxStatus f v s
  | .peerRequest f write off len data poison => Sys2Proof.Machine.execPeerRequest f write off len data poison s
  | .windowCommit v => Sys2Proof.Machine.execWindowCommit v s
  | .windowDrained => Sys2Proof.Machine.execWindowDrained s
  | .peerWindow ch seq => Sys2Proof.Machine.execPeerWindow ch seq s
  | .peerRegionSet ch seq => Sys2Proof.Machine.execPeerRegionSet ch seq s
  | .atsInvalidate k f pasid page count itag => Sys2Proof.Machine.execAtsInvalidate k f pasid page count itag s
  | .ideFault k stream => Sys2Proof.Machine.execIdeFault k stream s
  | .doeObject f object => Sys2Proof.Machine.execDoeObject f object s
  | .doeAbort f => Sys2Proof.Machine.execDoeAbort f s
  | .l0pRequest k width own => Sys2Proof.Machine.execL0pRequest k width s own
  | .aspmL1Entry k sub => Sys2Proof.Machine.execAspmL1Entry k s sub
  | .aspmL1Exit k => Sys2Proof.Machine.execAspmL1Exit k s
  | .perstAssert k => Sys2Proof.Machine.execPerstAssert k s
  | .perstRelease k => Sys2Proof.Machine.execPerstRelease k s
  | .hostLinkDown k => Sys2Proof.Machine.execHostLinkDown k s
  | .hostLinkUp k speed width flit tagBits => Sys2Proof.Machine.execHostLinkUp k speed width flit tagBits s
  | .linkCfg ch seq => Sys2Proof.Machine.execLinkCfg ch seq s
  | .d3hotEntry f => Sys2Proof.Machine.execD3hotEntry f s
  | .d0Return f => Sys2Proof.Machine.execD0Return f s
  | .pmeTurnOff k => Sys2Proof.Machine.execPmeTurnOff k s
  | .instCreate ch seq => Sys2Proof.Machine.execInstCreate ch seq s
  | .instEnable ch seq => Sys2Proof.Machine.execInstEnable ch seq s
  | .instQuiesce ch seq => Sys2Proof.Machine.execInstQuiesce ch seq s
  | .quiesceTimeout f => Sys2Proof.Machine.execQuiesceTimeout f s
  | .quiesceComplete f => Sys2Proof.Machine.execQuiesceComplete f s
  | .instResume ch seq => Sys2Proof.Machine.execInstResume ch seq s
  | .instReset ch seq => Sys2Proof.Machine.execInstReset ch seq s
  | .instRemove ch seq => Sys2Proof.Machine.execInstRemove ch seq s
  | .scrubComplete f => Sys2Proof.Machine.execScrubComplete f s
  | .setTotalvfs ch seq => Sys2Proof.Machine.execSetTotalvfs ch seq s
  | .tableGrant ch seq => Sys2Proof.Machine.execTableGrant ch seq s
  | .instInfo ch seq => Sys2Proof.Machine.execInstInfo ch seq s
  | .fnmIndRead v => Sys2Proof.Machine.execFnmIndRead v s
  | .fnmIndWrite v => Sys2Proof.Machine.execFnmIndWrite v s
  | .klCmdStage ch v => Sys2Proof.Machine.execKlCmdStage ch v s
  | .klCmdPost ch v half => Sys2Proof.Machine.execKlCmdPost ch v half s
  | .klTake ch => Sys2Proof.Machine.execKlTake ch s
  | .commandBlockRead ch seq cpl data => Sys2Proof.Machine.execCommandBlockRead ch seq cpl data s
  | .klCmdTimeout ch => Sys2Proof.Machine.execKlCmdTimeout ch s
  | .klWithdraw ch => Sys2Proof.Machine.execKlWithdraw ch s
  | .klRspPost ch => Sys2Proof.Machine.execKlRspPost ch s
  | .klRspTake ch part => Sys2Proof.Machine.execKlRspTake ch s part
  | .klRspTimeout ch => Sys2Proof.Machine.execKlRspTimeout ch s
  | .ping ch seq => Sys2Proof.Machine.execPing ch seq s
  | .fwStatus ch seq => Sys2Proof.Machine.execFwStatus ch seq s
  | .regRead ch seq => Sys2Proof.Machine.execRegRead ch seq s
  | .regReadBlock ch seq => Sys2Proof.Machine.execRegReadBlock ch seq s
  | .klRead ch seq => Sys2Proof.Machine.execKlRead ch seq s
  | .fwRestart => Sys2Proof.Machine.execFwRestart s
  | .fwReady => Sys2Proof.Machine.execFwReady s
  | .maintenanceEnter ms => Sys2Proof.Machine.execMaintenanceEnter ms s
  | .maintenanceEnd => Sys2Proof.Machine.execMaintenanceEnd s
  | .maintenanceOverrun ms => Sys2Proof.Machine.execMaintenanceOverrun ms s
  | .sidebandRequest word block via => Sys2Proof.Machine.execSidebandRequest word block s via
  | .doorbell f v => Sys2Proof.Machine.execDoorbell f v s
  | .indexReadComplete ring cpl idx => Sys2Proof.Machine.execIndexReadComplete ring cpl idx s
  | .descriptorFetch ring descs e => Sys2Proof.Machine.execDescriptorFetch ring descs s e
  | .coalesceTimeout ring => Sys2Proof.Machine.execCoalesceTimeout ring s
  | .nopDescriptor ring no => Sys2Proof.Machine.execNopDescriptor ring no s
  | .send ring no => Sys2Proof.Machine.execSend ring no s
  | .sendPacked ring no => Sys2Proof.Machine.execSendPacked ring no s
  | .buf ring no => Sys2Proof.Machine.execBuf ring no s
  | .rxDeliver n bad => Sys2Proof.Machine.execRxDeliver n bad s
  | .rxNobufTimeout ring => Sys2Proof.Machine.execRxNobufTimeout ring s
  | .ringCreate ch seq => Sys2Proof.Machine.execRingCreate ch seq s
  | .ringDestroy ch seq => Sys2Proof.Machine.execRingDestroy ch seq s
  | .ringDestroyDone ring => Sys2Proof.Machine.execRingDestroyDone ring s
  | .ringRestart ch seq => Sys2Proof.Machine.execRingRestart ch seq s
  | .ringAbort ch seq tags => Sys2Proof.Machine.execRingAbort ch seq tags s
  | .levRingBind ch seq => Sys2Proof.Machine.execLevRingBind ch seq s
  | .ringIndRead v => Sys2Proof.Machine.execRingIndRead v s
  | .ringIndWrite v => Sys2Proof.Machine.execRingIndWrite v s
  | .qpCreate ch seq => Sys2Proof.Machine.execQpCreate ch seq s
  | .qpModify ch seq => Sys2Proof.Machine.execQpModify ch seq s
  | .qpDestroy ch seq => Sys2Proof.Machine.execQpDestroy ch seq s
  | .rdmaSend ring no => Sys2Proof.Machine.execRdmaSend ring no s
  | .rdmaSendImm ring no => Sys2Proof.Machine.execRdmaSendImm ring no s
  | .rdmaWrite ring no => Sys2Proof.Machine.execRdmaWrite ring no s
  | .rdmaWriteImm ring no => Sys2Proof.Machine.execRdmaWriteImm ring no s
  | .rdmaRead ring no => Sys2Proof.Machine.execRdmaRead ring no s
  | .cmpSwap ring no => Sys2Proof.Machine.execCmpSwap ring no s
  | .fetchAdd ring no => Sys2Proof.Machine.execFetchAdd ring no s
  | .regMr ring no => Sys2Proof.Machine.execRegMr ring no s
  | .invalMr ring no => Sys2Proof.Machine.execInvalMr ring no s
  | .rtePacketReceive mem e => Sys2Proof.Machine.execRtePacketReceive mem s e
  | .ackTimer qp => Sys2Proof.Machine.execAckTimer qp s
  | .retransmitTimeout qp => Sys2Proof.Machine.execRetransmitTimeout qp s
  | .pathResume qp path => Sys2Proof.Machine.execPathResume qp path s
  | .rnrWaitExpire qp => Sys2Proof.Machine.execRnrWaitExpire qp s
  | .rateIncrease qp => Sys2Proof.Machine.execRateIncrease qp s
  | .trackerAged tr => Sys2Proof.Machine.execTrackerAged tr s
  | .contextFetchComplete qp cpl mems => Sys2Proof.Machine.execContextFetchComplete qp cpl mems s
  | .laybyTimeout qp => Sys2Proof.Machine.execLaybyTimeout qp s
  | .rteIndRead v => Sys2Proof.Machine.execRteIndRead v s
  | .ccEnable f v => Sys2Proof.Machine.execCcEnable f v s
  | .ccDisable f => Sys2Proof.Machine.execCcDisable f s
  | .shutdownNotify f v => Sys2Proof.Machine.execShutdownNotify f v s
  | .shutdownComplete f => Sys2Proof.Machine.execShutdownComplete f s
  | .nvmeDoorbell f off v => Sys2Proof.Machine.execNvmeDoorbell f off v s
  | .nvmeCommandFetch f sq sqe e => Sys2Proof.Machine.execNvmeCommandFetch f sq sqe s e
  | .createIoSq slot => Sys2Proof.Machine.execCreateIoSq slot s
  | .deleteIoSq slot => Sys2Proof.Machine.execDeleteIoSq slot s
  | .createIoCq slot => Sys2Proof.Machine.execCreateIoCq slot s
  | .deleteIoCq slot => Sys2Proof.Machine.execDeleteIoCq slot s
  | .getLogPage slot ptrs e => Sys2Proof.Machine.execGetLogPage slot ptrs s e
  | .identify slot ptrs e => Sys2Proof.Machine.execIdentify slot ptrs s e
  | .nvmeAbort slot => Sys2Proof.Machine.execNvmeAbort slot s
  | .setFeatures slot => Sys2Proof.Machine.execSetFeatures slot s
  | .setFeaturesPowerManagement slot => Sys2Proof.Machine.execSetFeaturesPowerManagement slot s
  | .getFeatures slot => Sys2Proof.Machine.execGetFeatures slot s
  | .asyncEventRequest slot => Sys2Proof.Machine.execAsyncEventRequest slot s
  | .nvmeFlush slot => Sys2Proof.Machine.execNvmeFlush slot s
  | .nvmeWrite slot ptrs e data => Sys2Proof.Machine.execNvmeWrite slot ptrs e data s
  | .nvmeRead slot ptrs e => Sys2Proof.Machine.execNvmeRead slot ptrs s e
  | .writeZeroes slot => Sys2Proof.Machine.execWriteZeroes slot s
  | .datasetManagement slot ptrs e data => Sys2Proof.Machine.execDatasetManagement slot ptrs e data s
  | .backendCompletion slot piece status data => Sys2Proof.Machine.execBackendCompletion slot piece status data s
  | .backendDown conn why => Sys2Proof.Machine.execBackendDown conn why s
  | .backendUp conn status mdts block unit bounds vwc => Sys2Proof.Machine.execBackendUp conn status mdts block unit bounds vwc s
  | .reconnectTimer conn => Sys2Proof.Machine.execReconnectTimer conn s
  | .ctrlLossTimeout ns => Sys2Proof.Machine.execCtrlLossTimeout ns s
  | .ioTimeout slot => Sys2Proof.Machine.execIoTimeout slot s
  | .scePacketReceive seg slot => Sys2Proof.Machine.execScePacketReceive seg slot s
  | .nvmeCtrlCfg ch seq => Sys2Proof.Machine.execNvmeCtrlCfg ch seq s
  | .nvmeNsAttach ch seq => Sys2Proof.Machine.execNvmeNsAttach ch seq s
  | .backendConnect ch seq => Sys2Proof.Machine.execBackendConnect ch seq s
  | .sceIndRead v => Sys2Proof.Machine.execSceIndRead v s
  | .saAdd ch seq => Sys2Proof.Machine.execSaAdd ch seq s
  | .saDelete ch seq => Sys2Proof.Machine.execSaDelete ch seq s
  | .saDeleteDone sa => Sys2Proof.Machine.execSaDeleteDone sa s
  | .macsecTxSwitch p => Sys2Proof.Machine.execMacsecTxSwitch p s
  | .coreFault core => Sys2Proof.Machine.execCoreFault core s
  | .deflateCompress ring no => Sys2Proof.Machine.execDeflateCompress ring no s
  | .deflateDecompress ring no => Sys2Proof.Machine.execDeflateDecompress ring no s
  | .zstdCompress ring no => Sys2Proof.Machine.execZstdCompress ring no s
  | .zstdDecompress ring no => Sys2Proof.Machine.execZstdDecompress ring no s
  | .crc32c ring no => Sys2Proof.Machine.execCrc32c ring no s
  | .crc32Ieee ring no => Sys2Proof.Machine.execCrc32Ieee ring no s
  | .ciphIndRead v => Sys2Proof.Machine.execCiphIndRead v s
  | .stageComplete q pos => Sys2Proof.Machine.execStageComplete q pos s
  | .scrubRead err lane raced => Sys2Proof.Machine.execScrubRead err lane raced s
  | .pbufScrub err cell bank => Sys2Proof.Machine.execPbufScrub err cell bank s
  | .pllLock us => Sys2Proof.Machine.execPllLock us s
  | .pllLockTimeout => Sys2Proof.Machine.execPllLockTimeout s
  | .pllUnlock => Sys2Proof.Machine.execPllUnlock s
  | .clockMeasure counts => Sys2Proof.Machine.execClockMeasure counts s
  | .warmReset => Sys2Proof.Machine.execWarmReset s
  | .clkrstResetReq v => Sys2Proof.Machine.execClkrstResetReq v s
  | .warmRelease => Sys2Proof.Machine.execWarmRelease s
  | .coldReset => Sys2Proof.Machine.execColdReset s
  | .coldRelease straps => Sys2Proof.Machine.execColdRelease straps s
  | .blockReset b => Sys2Proof.Machine.execBlockReset b s
  | .blockResetRelease b => Sys2Proof.Machine.execBlockResetRelease b s
  | .wordCrossingDeliver src dst words => Sys2Proof.Machine.execWordCrossingDeliver src dst words s
  | .counterCrossingDeliver n => Sys2Proof.Machine.execCounterCrossingDeliver n s
  | .selfTest res => Sys2Proof.Machine.execSelfTest res s
  | .tempSample temps cool => Sys2Proof.Machine.execTempSample temps cool s
  | .tripRecovery => Sys2Proof.Machine.execTripRecovery s
  | .supplySample mv ma => Sys2Proof.Machine.execSupplySample mv ma s
  | .supplyTrip rail mv => Sys2Proof.Machine.execSupplyTrip rail mv s
  | .tetherRestart => Sys2Proof.Machine.execTetherRestart s
  | .watchdogPing => Sys2Proof.Machine.execWatchdogPing s
  | .fwHang => Sys2Proof.Machine.execFwHang s
  | .startWatchdogExpire => Sys2Proof.Machine.execStartWatchdogExpire s
  | .trialTick => Sys2Proof.Machine.execTrialTick s
  | .trialExpired => Sys2Proof.Machine.execTrialExpired s
  | .fieldMapWrite => Sys2Proof.Machine.execFieldMapWrite s
  | .blockHang b => Sys2Proof.Machine.execBlockHang b s
  | .blockHangRelease b => Sys2Proof.Machine.execBlockHangRelease b s
  | .trailheadStart answers => Sys2Proof.Machine.execTrailheadStart answers s
  | .pushWaitExpire => Sys2Proof.Machine.execPushWaitExpire s
  | .controlComplexRestart v => Sys2Proof.Machine.execControlComplexRestart v s
  | .coreRelease v => Sys2Proof.Machine.execCoreRelease v s
  | .measurementExtend v => Sys2Proof.Machine.execMeasurementExtend v s
  | .imageWrite ch seq => Sys2Proof.Machine.execImageWrite ch seq s
  | .imageCommit ch seq => Sys2Proof.Machine.execImageCommit ch seq s
  | .imageConfirm ch seq ok => Sys2Proof.Machine.execImageConfirm ch seq ok s
  | .fwActivate ch seq => Sys2Proof.Machine.execFwActivate ch seq s
  | .ledgerRead ch seq => Sys2Proof.Machine.execLedgerRead ch seq s
  | .measureRead ch seq => Sys2Proof.Machine.execMeasureRead ch seq s
  | .setEndpointId msg => Sys2Proof.Machine.execSetEndpointId msg s
  | .getEndpointId msg => Sys2Proof.Machine.execGetEndpointId msg s
  | .getMctpVersionSupport msg => Sys2Proof.Machine.execGetMctpVersionSupport msg s
  | .getMessageTypeSupport msg => Sys2Proof.Machine.execGetMessageTypeSupport msg s
  | .getVendorDefinedMessageSupport msg => Sys2Proof.Machine.execGetVendorDefinedMessageSupport msg s
  | .getDigests msg => Sys2Proof.Machine.execGetDigests msg s
  | .getCertificate msg => Sys2Proof.Machine.execGetCertificate msg s
  | .challenge msg => Sys2Proof.Machine.execChallenge msg s
  | .getMeasurements msg => Sys2Proof.Machine.execGetMeasurements msg s
  | .keyExchange msg => Sys2Proof.Machine.execKeyExchange msg s
  | .finish msg => Sys2Proof.Machine.execFinish msg s
  | .heartbeat msg => Sys2Proof.Machine.execHeartbeat msg s
  | .keyUpdate msg => Sys2Proof.Machine.execKeyUpdate msg s
  | .endSession msg => Sys2Proof.Machine.execEndSession msg s
  | .chunkSend msg => Sys2Proof.Machine.execChunkSend msg s
  | .chunkGet msg => Sys2Proof.Machine.execChunkGet msg s
  | .numericSensorRead msg => Sys2Proof.Machine.execNumericSensorRead msg s
  | .requestFirmwareData off data => Sys2Proof.Machine.execRequestFirmwareData off data s
  | .verifyComplete => Sys2Proof.Machine.execVerifyComplete s
  | .applyComplete => Sys2Proof.Machine.execApplyComplete s
  | .activateFirmware => Sys2Proof.Machine.execActivateFirmware s
  | .cwSelect f v => Sys2Proof.Machine.execCwSelect f v s
  | .rwCursor f v => Sys2Proof.Machine.execRwCursor f v s
  | .counterGrant ch seq => Sys2Proof.Machine.execCounterGrant ch seq s
  | .traceLevelSet ch seq => Sys2Proof.Machine.execTraceLevelSet ch seq s
  | .sinkConfigure ch seq => Sys2Proof.Machine.execSinkConfigure ch seq s
  | .sinkDisable ch seq => Sys2Proof.Machine.execSinkDisable ch seq s
  | .tracePageClose k => Sys2Proof.Machine.execTracePageClose k s
  | .counterSample k => Sys2Proof.Machine.execCounterSample k s
  | .extest sampled shifted => Sys2Proof.Machine.execExtest sampled shifted s
  | .samplePreload sampled shifted => Sys2Proof.Machine.execSamplePreload sampled shifted s
  | .idcode => Sys2Proof.Machine.execIdcode s
  | .clamp => Sys2Proof.Machine.execClamp s
  | .highz => Sys2Proof.Machine.execHighz s
  | .bypass => Sys2Proof.Machine.execBypass s
  | .recorderSample power passes lineRx lineTx dma issue => Sys2Proof.Machine.execRecorderSample power passes lineRx lineTx dma issue s
  | .checkpoint ok => Sys2Proof.Machine.execCheckpoint ok s
  | .recordWrite ok => Sys2Proof.Machine.execRecordWrite ok s
  | .hourEnd => Sys2Proof.Machine.execHourEnd s
  | .recorderClear ch seq => Sys2Proof.Machine.execRecorderClear ch seq s
  | .powerUp rails => Sys2Proof.Machine.execPowerUp rails s
  | .powerDown rails => Sys2Proof.Machine.execPowerDown rails s
  | .tableCfg ch seq => Sys2Proof.Machine.execTableCfg ch seq s
  | .alignmentRegained p => Sys2Proof.Machine.execAlignmentRegained p s
  | .slewComplete => Sys2Proof.Machine.execSlewComplete s
  | .lineRefReturn => Sys2Proof.Machine.execLineRefReturn s
  | .hostRefReturn n => Sys2Proof.Machine.execHostRefReturn n s
  | .eventCrossingAcknowledge n => Sys2Proof.Machine.execEventCrossingAcknowledge n s
  | .ctrlFatal f => Sys2Proof.Machine.execCtrlFatal f s
  | .tcpRetransmitTimeout conn => Sys2Proof.Machine.execTcpRetransmitTimeout conn s
  | .imageCommitted ok => Sys2Proof.Machine.execImageCommitted ok s

end Sys2Proof.Machine
end

