-- ==== Sys2Proof/Machine/Step.lean ====
section
/-!
DEFINITION. Machine/Step.lean: one step: the command at the front of the queue runs; on an empty queue Milepost time runs on
(R170, R171).
-/
namespace Sys2Proof.Machine
open Sys2Proof

/-- The step of the block: the front command, or on an empty queue one cycle of PER_CLK for Milepost time. -/
def step (s : State) : Host.Outcome State Fault Refusal :=
  match s.pending with
  | [] => .next s.tick
  | c :: rest => exec c { s with pending := rest }

/-- The state with the command a word spells put in front of the queue. No row of the table has bits (their field lists
are empty), so no word spells a command. -/
def State.withFetchWord (s : State) (nbits w : Nat) : State :=
  match Sys2Proof.decodeTableWord nbits w with
  | some c => { s with pending := c :: s.pending }
  | none => s

end Sys2Proof.Machine
end

