-- ==== Sys2Proof/Safety.lean ====
section
/-!
DEFINITION. Safety.lean: the terms claims are stated in: when a command of a Kite line runs, what every step keeps, and what
counts as a safe run.
-/
namespace Sys2Proof.Machine
open Sys2Proof

/-- Channel `ch` holds command `c` open under `seq`, it is of code `code`, and it can run now (R283, R503). -/
def State.ready (s : State) (ch : BitVec 13) (seq : BitVec 4) (code : Nat) (c : OpenCmd) : Bool :=
  match findOpen seq [] (s.opened ch.toNat) with
  | some (before, d) => decide (d = c) && d.readyFor before code && s.objectFree ch.toNat d
  | none => false

/-- A host's access to a BAR of function `f` reaches the device: the function exists, its link is up, it is in no reset, and
its memory space is on (R227, R241). -/
def State.barOpen (s : State) (f : Nat) : Bool :=
  s.exists_ f && (s.link (s.fnLink f)).dlUp && !(s.fn f).flr && s.memOn f && !s.insecure (s.fnLink f)

/-- A write of the party of channel `ch` reaches its Kite line page: always, but for a function through its BAR0 (R268). -/
def State.pageOpen (s : State) (ch : Nat) : Bool := !isFuncCh ch || s.barOpen ch

/-- The answer to command `c` with a result and no output. -/
def State.answered (s : State) (ch : BitVec 13) (c : OpenCmd) (status : Status) (result : Nat) : State :=
  s.answer ch.toNat c status result []

/-- The answer to command `c` with an output, whose length is the result (R282). -/
def State.answeredOut (s : State) (ch : BitVec 13) (c : OpenCmd) (out : Bytes) : State :=
  s.answer ch.toNat c 0 out.length out

/-- Operation `o`, number `no` of ring `r` and of code `op`, runs now: its turn has come, nothing has decided its status, and,
where it has host requests to make (`host`), its function can make them (R307, R308, R320). -/
def State.opRuns (s : State) (r no op : Nat) (host : Bool) (o : RingOp) : Bool :=
  decide (s.opReady r no op = some o) && o.verdict.isNone && (!host || (s.hostStop (s.ring r).func).isNone)

/-- Thread `t` of engine `e` issues instruction word `w` now: it has the engine's cycle, and `w` stands at its PC with good parity
and is listed (R179, R203). -/
def State.issues (s : State) (e t : Nat) (w : Word) : Bool :=
  let at_ := e * 16384 + (s.thr e t).pc.toNat
  s.engClocked e && decide (s.turnThread e = some t) && s.imem e (s.thr e t).pc.toNat == w && listed w &&
  decide (at_ ∉ s.eng.badImem)

/-- The issue counted (Tables 8-11 and 8-12). -/
def State.counted (s : State) (e t : Nat) : State := (s.bump (R.ENG_ISSUE_CNT e)).bump (R.ENG_THR_INSTR_CNT e t)

/-- The thread's PC at `n`. -/
def State.setPc (s : State) (e t n : Nat) : State := s.updThr e t (fun x => { x with pc := BitVec.ofNat 14 n })

/-- The thread blocked until `why` comes, its PC where it was. -/
def State.blocked (s : State) (e t : Nat) (st : ThrSt) (ch : Nat) (why : Await) : State :=
  s.updThr e t (fun x => { x with st := st, blockedCh := ch, blockedSince := s.now, awaits := why })

/-- A row of a thread's instruction. -/
abbrev ThrRow := Fin 136 → Fin 8 → EngMem → Instr

/-- The rows of the Path Engine instructions (Tables 9-2 to 9-12). -/
def threadRows : List ThrRow :=
  [@Instr.thrAdd, @Instr.thrSub, @Instr.thrAnd, @Instr.thrOr, @Instr.thrXor, @Instr.thrSll, @Instr.thrSrl, @Instr.thrSra,
   @Instr.thrSlt, @Instr.thrSltu, @Instr.thrMul, @Instr.thrMulhu, @Instr.thrMin, @Instr.thrMax, @Instr.thrMinu, @Instr.thrMaxu,
   @Instr.thrSlli, @Instr.thrSrli, @Instr.thrSrai, @Instr.thrPopc, @Instr.thrClz, @Instr.thrCtz, @Instr.thrBswap64,
   @Instr.thrBswap32, @Instr.thrBswap16, @Instr.thrAddi, @Instr.thrAndi, @Instr.thrOri, @Instr.thrXori, @Instr.thrSlti,
   @Instr.thrMovi, @Instr.thrMovk, @Instr.thrBfx, @Instr.thrBfxs, @Instr.thrBfi, @Instr.thrCrc32c8, @Instr.thrCrc32c16,
   @Instr.thrCrc32c32, @Instr.thrCrc32c64, @Instr.thrCrc32e8, @Instr.thrCrc32e16, @Instr.thrCrc32e32, @Instr.thrCrc32e64,
   @Instr.thrFold16, @Instr.thrMix16, @Instr.thrAadd, @Instr.thrAand, @Instr.thrAor, @Instr.thrAxor, @Instr.thrAswap,
   @Instr.thrAminu, @Instr.thrAmaxu, @Instr.thrAcas, @Instr.thrLdb, @Instr.thrLdh, @Instr.thrLdw, @Instr.thrLdd, @Instr.thrStb,
   @Instr.thrSth, @Instr.thrStw, @Instr.thrStd, @Instr.thrBeq, @Instr.thrBne, @Instr.thrBlt, @Instr.thrBge, @Instr.thrBltu,
   @Instr.thrBgeu, @Instr.thrJal, @Instr.thrJalr, @Instr.thrChrd, @Instr.thrChrdnb, @Instr.thrOrphrd, @Instr.thrChlvl,
   @Instr.thrChst, @Instr.thrChcmt, @Instr.thrChabort, @Instr.thrSprd, @Instr.thrSpwr, @Instr.thrPkttm, @Instr.thrPktcw,
   @Instr.thrPktdrop, @Instr.thrPktnew, @Instr.thrPktrd, @Instr.thrPktwr, @Instr.thrHbmrd, @Instr.thrHbmwr, @Instr.thrLkup,
   @Instr.thrWait, @Instr.thrNop, @Instr.thrEnd, @Instr.thrFence, @Instr.thrTstat, @Instr.thrTime, @Instr.thrSelf]

/-- What a claim about an issue asks of the state before it, of engine, thread and word, and of the engine's memory. -/
abbrev ThrPre := State → Nat → Nat → Word → EngMem → Prop

/-- The row of the table completes: whenever a thread issues a word that satisfies `is`, below PC 16,383 and with no parity
failure, and `pre` holds of the state before, `does` answers for it, the PC moves on by one and the cycle ends. -/
def passesMem (row : ThrRow) (is : Word → Bool) (pre : ThrPre) (does : State → Nat → Nat → Word → EngMem → State) : Prop :=
  ∀ (e : Fin 136) (t : Fin 8) (w : Word) (s : State) (m : EngMem), s.issues e.val t.val w = true →
    (s.thr e.val t.val).pc.toNat ≠ 16383 → is w = true → m ≠ .parity → pre s e.val t.val w m →
    exec (row e t m) s = .next (((does (s.counted e.val t.val) e.val t.val w m).setPc e.val t.val
      ((s.thr e.val t.val).pc.toNat + 1)).endCycle e.val)

/-- The same of an instruction that reads no local data memory. -/
def passesWhen (row : ThrRow) (is : Word → Bool) (pre : State → Nat → Nat → Word → Prop)
    (does : State → Nat → Nat → Word → State) : Prop :=
  passesMem row is (fun s e t w _ => pre s e t w) (fun s e t w _ => does s e t w)

/-- The same with no condition on the state. -/
def passes (row : ThrRow) (is : Word → Bool) (does : State → Nat → Nat → Word → State) : Prop :=
  passesWhen row is (fun _ _ _ _ => True) does

/-- Where `pre` holds the row leaves the thread blocked until what it awaits comes, its PC where it was (Table 8-3). -/
def blocksMem (row : ThrRow) (is : Word → Bool) (pre : ThrPre) (st : ThrSt)
    (ch : State → Nat → Nat → Word → Nat × Await) : Prop :=
  ∀ (e : Fin 136) (t : Fin 8) (w : Word) (s : State) (m : EngMem), s.issues e.val t.val w = true →
    (s.thr e.val t.val).pc.toNat ≠ 16383 → is w = true → m ≠ .parity → pre s e.val t.val w m →
    exec (row e t m) s = .next (((s.counted e.val t.val).blocked e.val t.val st (ch s e.val t.val w).1
      (ch s e.val t.val w).2).endCycle e.val)

/-- The same of an instruction that reads no local data memory. -/
def blocksWhen (row : ThrRow) (is : Word → Bool) (pre : State → Nat → Nat → Word → Prop) (st : ThrSt)
    (ch : State → Nat → Nat → Word → Nat × Await) : Prop :=
  blocksMem row is (fun s e t w _ => pre s e t w) st ch

/-- Where `pre` holds the row ends in a thread fault (R195), which takes its cycle too. -/
def faultsMem (row : ThrRow) (is : Word → Bool) (pre : ThrPre) (code : Nat) (detail : State → Nat → Nat → Word → Nat) : Prop :=
  ∀ (e : Fin 136) (t : Fin 8) (w : Word) (s : State) (m : EngMem), s.issues e.val t.val w = true → is w = true →
    m ≠ .parity → pre s e.val t.val w m →
    exec (row e t m) s = .next (((s.counted e.val t.val).threadFault e.val t.val code (detail s e.val t.val w)).endCycle e.val)

/-- The same of an instruction that reads no local data memory. -/
def faultsWhen (row : ThrRow) (is : Word → Bool) (pre : State → Nat → Nat → Word → Prop) (code : Nat)
    (detail : State → Nat → Nat → Word → Nat) : Prop :=
  faultsMem row is (fun s e t w _ => pre s e t w) code detail

/-- The row writes `f a b n` to dst, where n is the b field itself; its result takes `cycles` (Tables 9-3 and 9-5, R202). -/
def computesIn (cycles : Nat) (row : ThrRow) (is : Word → Bool) (f : DWord → DWord → Nat → DWord) : Prop :=
  passes row is (fun s e t w => s.setRegIn e t (iDst w) cycles (f (s.reg e t (iA w)) (s.reg e t (iB w)) (iB w)))

/-- The same with a result of 1 cycle. -/
def computes (row : ThrRow) (is : Word → Bool) (f : DWord → DWord → Nat → DWord) : Prop :=
  passes row is (fun s e t w => s.setReg e t (iDst w) (f (s.reg e t (iA w)) (s.reg e t (iB w)) (iB w)))

/-- The row writes `f a imm14` to dst, imm14 sign-extended (R201). -/
def computesImm (row : ThrRow) (major : Nat) (f : DWord → DWord → DWord) : Prop :=
  passes row (fun w => iMajor w == major) (fun s e t w => s.setReg e t (iDst w) (f (s.reg e t (iA w)) (iImm14 w)))

/-- The row writes `f old b dst` to shared register a and the old value to dst (R207). -/
def swaps (row : ThrRow) (fn : Nat) (f : DWord → DWord → DWord → DWord) : Prop :=
  passes row (fun w => isFn 0x0A fn w && decide (32 ≤ iA w) && decide (iDst w ≠ iA w)) (fun s e t w =>
    (s.setReg e t (iA w) (f (s.reg e t (iA w)) (s.reg e t (iB w)) (s.reg e t (iDst w)))).setReg e t (iDst w)
      (s.reg e t (iA w)))

/-- Operation `o`, number `no` of ring `r` and of code `op`, begins now as work of queue pair `q`, index `i`: the queue pair is in
RTS, nothing has decided the operation's status, and the function can make host requests (Table 14-2, R335). -/
def State.rdmaRuns (s : State) (r no op i : Nat) (o : RingOp) (q : Qp) : Bool :=
  decide (s.opReady r no op = some o) && decide (s.qpOfSq r = some (i, q)) && q.st == .rts && o.verdict.isNone &&
  (s.hostStop q.func.toNat).isNone

/-- The state in which an operation of queue pair `i` begins: the context used, the operation taken, a free value drawn. -/
def State.rdmaBegun (s : State) (r no i : Nat) : State :=
  ((s.useQpc i).updRing r (fun k => k.updOp no (fun o => { o with started := true }))).drew

/-- The work a descriptor asks of its queue pair (Tables 14-6 and 14-7), `first` the value its FIRST_PSN field has until it
sends. -/
def ROp.asked (no : Nat) (o : RingOp) (first : Word) : ROp :=
  let d := o.desc
  ⟨no, descCode d, first, 1, 0, descLen d, BitVec.ofNat 64 (descB d), BitVec.ofNat 32 (fld d 192 32),
    BitVec.ofNat 32 (fld d 224 32), padTo (descLen d) o.data, BitVec.ofNat 64 (descA d), BitVec.ofNat 64 (fld d 256 64),
    BitVec.ofNat 64 (fld d 320 64), bit d 384, 0, 0, false, 0, 0⟩

/-- Operation `x` joins the work of queue pair `i`: those behind it that need no work join it too, whatever is finished completes
in ring order (R335), and what may be sent is sent (R339, R342). -/
def State.joins (s : State) (i : Nat) (x : ROp) : State :=
  let s := s.updQp i (fun q => { q with ops := q.ops ++ [x] })
  (s.beginDone i (s.opFuel i)).pumpQp i pumpFuel

/-- Command `c` stands in `slot`, fetched from an I/O (`io`) or admin queue, of opcode `op`, and has not begun. -/
def State.nvRuns (s : State) (slot : Nat) (io : Bool) (op : Nat) (c : NCmd) : Bool :=
  decide (s.cmd slot = some c) && (c.sq != 0) == io && c.op == op && !c.waiting

/-- How many commands of opcode `op` controller `f` has waiting on its admin queue. -/
def State.nvWaiting (s : State) (f op : Nat) : Nat :=
  (s.sce.cmds.filter (fun x => x.func == f && x.sq == 0 && x.op == op && x.waiting)).length

/-- The canonical form of a memory whose unlisted bytes read as `d`: addresses strictly rising, and no entry equal to what an
unlisted address reads as. -/
def Memory.wf (d : Nat → Byte) (m : SMap Byte) : Bool := mapWf d m

/-- HBM, whose unlisted bytes read 0, and both boot flashes, whose unlisted bytes read as erased, hold their canonical form. -/
def State.memoriesWf (s : State) : Bool :=
  Memory.wf (fun _ => 0) s.hbm.byte && Memory.wf erased s.boot.flash0 && Memory.wf erased s.boot.flash1

/-- Fuses `new` reached from `old` with none cleared (R445, R446): what no operation blows is as it was, the security version has
not fallen, and no revocation has gone. -/
structure Fuses.Kept (old new : Fuses) : Prop where
  trust : new.trust = old.trust
  sec : new.sec = old.sec
  orderOverride : new.orderOverride = old.orderOverride
  order : new.order = old.order
  manifestSet : new.manifestSet = old.manifestSet
  manifest : new.manifest = old.manifest
  factory : new.factory = old.factory
  svn : old.svn ≤ new.svn
  revoked : ∀ k, bit old.revoked k = true → bit new.revoked k = true

end Sys2Proof.Machine
end

