-- ==== Sys2Proof/Certificates/Slice0/Obligations.lean ====
section
/-!
DEFINITION. Certificates/Slice0/Obligations.lean: the statements for the provers, from the numbered rules of the spec.
-/
open Sys2Proof Sys2Proof.Machine

/-- When a command stands at the front of the queue of waiting commands, the step is that command's effect on the state
with the queue's rest. The queue is the model's own form of what waits (log entry 1). (00_scope.md) -/
def Obligations.StepRunsFrontCommand : Prop :=
  ∀ (c : Instr) (rest : List Instr) (s : State), s.pending = c :: rest →
    step s = exec c { s with pending := rest }

/-- With no command waiting, PER_CLK running and no slew left, a step adds the increment in force to Milepost time and
leaves all else; with PER_CLK stopped it leaves everything. That an idle step is one PER_CLK cycle is the model's choice
(log entry 2). (R170, R171, R407) -/
def Obligations.IdleStepAdvancesTime : Prop :=
  (∀ s : State, s.pending = [] → bit s.clk.running 5 = true → s.line.slew = 0 →
    step s = .next { s with line := { s.line with now := s.line.now + BitVec.ofNat 96 s.timeIncr } }) ∧
  (∀ s : State, s.pending = [] → bit s.clk.running 5 = false → step s = .next s)

/-- Delivery of a requested event hands its detail and time to the event block and leaves the crossing acknowledged; the
acknowledge then leaves it idle, or, with the merge flag set, requested again with the flag clear. Delivery of a counter
crossing adds its pending delta to the count and leaves no delta; with PER_CLK stopped the request and the delta stay.
With the destination's clock running every held and offered word is delivered in order; into a block in reset all of
them are discarded and counted; with the clock stopped they wait. (R413, R414, R415, R416) -/
def Obligations.CrossingsDeliver : Prop :=
  (∀ (n : Fin 2048) (s : State), bit s.clk.running 5 = false →
    exec (.eventCrossingDeliver n) s = .next s ∧ exec (.counterCrossingDeliver n) s = .next s) ∧
  (∀ (n : Fin 2048) (s : State), (s.xing n.val).phase = .requested → bit s.clk.running 5 = true →
    exec (.eventCrossingDeliver n) s = .next ((s.setXing n.val { s.xing n.val with phase := .acked }).occurrence n.val
      (s.xing n.val).detail (s.xing n.val).time)) ∧
  (∀ (n : Fin 2048) (s : State), (s.xing n.val).phase = .acked → (s.xing n.val).merge = true →
    exec (.eventCrossingAcknowledge n) s =
      .next (s.setXing n.val { s.xing n.val with phase := .requested, merge := false })) ∧
  (∀ (n : Fin 2048) (s : State), (s.xing n.val).phase = .acked → (s.xing n.val).merge = false →
    exec (.eventCrossingAcknowledge n) s = .next (s.setXing n.val EvXing.idle)) ∧
  (∀ (n : Fin 2048) (s : State), bit s.clk.running 5 = true →
    exec (.counterCrossingDeliver n) s =
      .next ((s.wr (R.EVT_COUNT n.val) (s.rd (R.EVT_COUNT n.val) + BitVec.ofNat 64 (s.delta (R.EVT_COUNT n.val)).toNat)).setDelta
        (R.EVT_COUNT n.val) 0)) ∧
  (∀ (src dst : Fin 29) (ws : List DWord) (s : State), s.blockHeld dst.val = false → s.clocked dst.val = true →
    exec (.wordCrossingDeliver src dst ws) s =
      .next { s with evt := { s.evt with
        words := mapSet (fun _ => []) s.evt.words (crossing src.val dst.val) []
        arrived := mapSet (fun _ => []) s.evt.arrived (crossing src.val dst.val)
          (mapGet (fun _ => []) s.evt.arrived (crossing src.val dst.val) ++ s.words (crossing src.val dst.val) ++ ws) } }) ∧
  (∀ (src dst : Fin 29) (ws : List DWord) (s : State), s.blockHeld dst.val = true →
    exec (.wordCrossingDeliver src dst ws) s =
      .next ({ s with evt := { s.evt with
        words := mapSet (fun _ => []) s.evt.words (crossing src.val dst.val) [] } }.bumpN (R.CLKRST_FLUSH_CNT dst.val)
        ((s.words (crossing src.val dst.val)).length + ws.length))) ∧
  (∀ (src dst : Fin 29) (ws : List DWord) (s : State), s.blockHeld dst.val = false → s.clocked dst.val = false →
    exec (.wordCrossingDeliver src dst ws) s = .next (s.offer (crossing src.val dst.val) ws))

/-- Raising an event takes an idle crossing to requested, and a crossing under way keeps its phase with the merge flag
set; either way it then holds the latest detail and time, and the count's crossing holds one more increment. A pulse
that finds the flag set counts in CLKRST_EVT_MERGE_CNT, and no other does. (R414, R415) -/
def Obligations.RaisedEventsMerge : Prop :=
  ∀ (s : State) (n func obj code : Nat),
    ((s.xing n).phase = .idle → ((s.raise n func obj code).xing n) = ⟨.requested, false, evDetail func obj code, s.now⟩) ∧
    ((s.xing n).phase ≠ .idle →
      ((s.raise n func obj code).xing n) = ⟨(s.xing n).phase, true, evDetail func obj code, s.now⟩) ∧
    (s.raise n func obj code).delta (R.EVT_COUNT n) = s.delta (R.EVT_COUNT n) + 1 ∧
    (s.raise n func obj code).rd R.CLKRST_EVT_MERGE_CNT =
      s.rd R.CLKRST_EVT_MERGE_CNT + (if (s.xing n).merge = true then 1 else 0)

/-- An unmask of an MSI vector, of an MSI-X entry or of a function's MSI-X clears the mask and sends what nothing else
holds. The running firmware takes the oldest occurrence of its queue and the source's pending bit clears; the Tether,
while it monitors, does so of its queue, and the pending bit clears where the occurrence came by the route and not by
the fixed wiring alone. (R33, R35, R36, R235, R236) -/
def Obligations.InterruptsAndEventQueues : Prop :=
  (∀ (f : Fin 4104) (v : Fin 32) (s : State), f.val < 8 → s.exists_ f.val = true →
    exec (.msiUnmask f v) s =
      .next ((s.updFn f.val (fun h => { h with msiMask := setBit h.msiMask v.val false })).release f.val v.val)) ∧
  (∀ (f : Fin 4104) (v : Fin 2048) (addr : DWord) (data : Word) (m : Bool) (s : State), s.barOpen f.val = true →
    v.val < s.vectors f.val →
    exec (.msixUnmask f (some v) addr data m) s = .next ((s.updFn f.val (fun h => { h with
      msixTable := mapSet (fun _ => MsixEntry.reset) h.msixTable v.val ⟨addr, data, m⟩ })).release f.val v.val)) ∧
  (∀ (f : Fin 4104) (s : State), s.barOpen f.val = true →
    exec (.msixUnmask f none 0 0 false) s =
      .next ((s.updFn f.val (fun h => { h with msixFnMask := false })).releaseAll f.val)) ∧
  (∀ (n : Nat) (rest : List Nat) (s : State), s.kite.fw = .running → s.evt.fwQueue = n :: rest →
    exec .fwEventTake s = .next ({ s with evt := { s.evt with fwQueue := rest } }.setPend n false)) ∧
  (∀ (n : Nat) (rest : List Nat) (s t : State), s.rdf R.TETHER_STATE 29 3 = 2 → s.evt.tetherQueue = n :: rest →
    t = { s with evt := { s.evt with tetherQueue := rest, routed := mapDel s.evt.routed n } } →
    (mapGet (fun _ => false) s.evt.routed n = true → exec .tetherEventTake s = .next (t.setPend n false)) ∧
    (mapGet (fun _ => false) s.evt.routed n = false → exec .tetherEventTake s = .next t))

/-- On a page the party's write reaches, a write of the low half stages it and posts nothing. A 64-bit write, or a write
of the high half with the staged low half, posts the word when no word is posted and its sequence is not open: CMD_FULL
is then set with the word, CMD_SEQ, CMD_CODE and KL_POST_TIME are written, the staged half is 0, and nothing else
changes. A refused post leaves the staged half as it stood. (R270) -/
def Obligations.KitePostAccepted : Prop :=
  (∀ (ch : BitVec 13) (v : Word) (s : State), s.pageOpen ch.toNat = true →
    exec (.klCmdStage ch v) s = .next (s.setPage ch.toNat { s.page ch.toNat with staged := v })) ∧
  (∀ (ch : BitVec 13) (v w : DWord) (half : Bool) (s : State), s.pageOpen ch.toNat = true →
    w.toNat = (if half then v.toNat % 4294967296 * 4294967296 + (s.page ch.toNat).staged.toNat else v.toNat) →
    (s.page ch.toNat).cmd = none → bit (s.page ch.toNat).seqOpen (fld w 48 4) = false →
    exec (.klCmdPost ch v half) s = .next (s.setPage ch.toNat { s.page ch.toNat with
      cmd := some w, cmdSeq := BitVec.ofNat 4 (fld w 48 4), cmdCode := BitVec.ofNat 8 (fld w 56 8)
      postTime := s.now, staged := 0 })) ∧
  (∀ (ch : BitVec 13) (v : DWord) (half : Bool) (s : State), s.pageOpen ch.toNat = true →
    ((s.page ch.toNat).cmd ≠ none ∨ bit (s.page ch.toNat).seqOpen (fld (postedWord (s.page ch.toNat) v half) 48 4) = true) →
    ∃ t, exec (.klCmdPost ch v half) s = .next t ∧ (t.page ch.toNat).staged = (s.page ch.toNat).staged)

/-- When a word is posted already, a post sets OVERRUN alone and raises KL_OVERRUN with CODE 0, whatever its sequence;
when none is but the sequence is open, it sets SEQ_CONFLICT and raises KL_OVERRUN with CODE 1. KL_OVERRUN_CNT rises by
1; the word, the staged half and every other field of the page stay, and no command opens. (R271) -/
def Obligations.KitePostRefused : Prop :=
  ∀ (ch : BitVec 13) (v : DWord) (half : Bool) (s : State), s.pageOpen ch.toNat = true →
    ((s.page ch.toNat).cmd ≠ none →
      exec (.klCmdPost ch v half) s = .next ((s.setPage ch.toNat { s.page ch.toNat with
        overrun := true, overrunCnt := (s.page ch.toNat).overrunCnt + 1 }).raise 0x061 (chFunc ch.toNat) ch.toNat 0)) ∧
    ((s.page ch.toNat).cmd = none → bit (s.page ch.toNat).seqOpen (fld (postedWord (s.page ch.toNat) v half) 48 4) = true →
      exec (.klCmdPost ch v half) s = .next ((s.setPage ch.toNat { s.page ch.toNat with
        seqConflict := true, overrunCnt := (s.page ch.toNat).overrunCnt + 1 }).raise 0x061 (chFunc ch.toNat) ch.toNat 1))

/-- WITHDRAW while CMD_FULL is 1 clears CMD_FULL and CMD_TIMEOUT, sets WITHDRAWN and adds 1 to KL_WITHDRAW_CNT, and no
command opens; on the sideband's page the request so taken back is dropped and the next one held is posted. While
CMD_FULL is 0 nothing changes. (R274) -/
def Obligations.KiteWithdraw : Prop :=
  ∀ (ch : BitVec 13) (s : State), s.pageOpen ch.toNat = true →
    ((s.page ch.toNat).cmd ≠ none → ch.toNat ≠ sbCh →
      exec (.klWithdraw ch) s = .next (s.setPage ch.toNat { s.page ch.toNat with
        cmd := none, cmdTimeout := false, withdrawn := true, withdrawCnt := (s.page ch.toNat).withdrawCnt + 1 })) ∧
    (∀ w, (s.page ch.toNat).cmd = some w → ch.toNat = sbCh →
      exec (.klWithdraw ch) s = .next (((s.setPage ch.toNat { s.page ch.toNat with
        cmd := none, cmdTimeout := false, withdrawn := true, withdrawCnt := (s.page ch.toNat).withdrawCnt + 1 }).sbDrop
          (fld w 48 4)).sbPost)) ∧
    ((s.page ch.toNat).cmd = none → exec (.klWithdraw ch) s = .next s)

/-- While the firmware takes words of the posted code, a take of a page's word leaves the page without it, its sequence
bit set and the take time written, and the command open behind those of its channel with the verdict of checks 1 to 4;
what is then due on that channel follows. On the sideband's page the word is taken with the block its request brought,
as sbTake says, and the next request held is posted. A page with no word, a code the firmware takes no word of now, and
a sequence whose command is still open leave the state alone. The present read of the block of an open command that has
begun ends as its completion says: for a command with a block, without all of it yet, not yet answered by a check and
not waiting. (R272, R279, R280, R292, R503) -/
def Obligations.KiteTake : Prop :=
  (∀ (ch : BitVec 13) (w : DWord) (s t : State), (s.page ch.toNat).cmd = some w →
    s.takes ch.toNat (fld w 56 8) = true → (s.opened ch.toNat).any (fun c => c.seq.toNat == fld w 48 4) = false →
    t = s.setPage ch.toNat { s.page ch.toNat with
          cmd := none, cmdTimeout := false, seqOpen := setBit (s.page ch.toNat).seqOpen (fld w 48 4) true, takeTime := s.now
          cmdCnt := (s.page ch.toNat).cmdCnt + 1 } →
    (ch.toNat ≠ sbCh → exec (.klTake ch) s =
      .next (({ t with kite := { t.kite with takes := t.kite.takes + 1 } }.setOpened ch.toNat
        (t.opened ch.toNat ++ [t.openOf ch.toNat w])).settle ch.toNat settleFuel)) ∧
    (ch.toNat = sbCh → exec (.klTake ch) s = .next (t.sbTake w))) ∧
  (∀ (ch : BitVec 13) (s : State), (s.page ch.toNat).cmd = none → exec (.klTake ch) s = .next s) ∧
  (∀ (ch : BitVec 13) (w : DWord) (s : State), (s.page ch.toNat).cmd = some w →
    (s.takes ch.toNat (fld w 56 8) = false ∨ (s.opened ch.toNat).any (fun c => c.seq.toNat == fld w 48 4) = true) →
    exec (.klTake ch) s = .next s) ∧
  (∀ (ch : BitVec 13) (seq : BitVec 4) (cpl : CplStatus) (data : Bytes) (s : State) (before : List OpenCmd) (c : OpenCmd),
    findOpen seq [] (s.opened ch.toNat) = some (before, c) → c.begun = true → c.block = none → c.verdict = none →
    c.waiting = false → hasBlock c.code.toNat = true →
    exec (.commandBlockRead ch seq cpl data) s = .next (s.blockCpl ch.toNat c cpl data))

/-- A posted word that has waited the timeout in force, not 0, sets CMD_TIMEOUT, is counted in KL_TIMEOUT_CNT and raises
KL_TIMEOUT; a response word likewise sets RSP_TIMEOUT, is counted in KL_RSP_STALE_CNT and raises its event. Either word
stays. With the timeout in force 0 nothing happens. (R273, R276) -/
def Obligations.KiteTimeouts : Prop :=
  (∀ (ch : BitVec 13) (s : State), (s.page ch.toNat).cmd ≠ none → (s.page ch.toNat).cmdTimeout = false →
    s.effective ch.toNat ≠ 0 →
    exec (.klCmdTimeout ch) s = .next ((s.setPage ch.toNat { s.page ch.toNat with
      cmdTimeout := true, timeoutCnt := (s.page ch.toNat).timeoutCnt + 1 }).raise 0x060 (chFunc ch.toNat) ch.toNat
        (at' (s.page ch.toNat).cmdCode.toNat 4 + (s.page ch.toNat).cmdSeq.toNat))) ∧
  (∀ (ch : BitVec 13) (w : DWord) (s : State), (s.page ch.toNat).rsp = some w → (s.page ch.toNat).rspTimeout = false →
    s.effective ch.toNat ≠ 0 →
    exec (.klRspTimeout ch) s = .next ((s.setPage ch.toNat { s.page ch.toNat with
      rspTimeout := true, staleCnt := (s.page ch.toNat).staleCnt + 1 }).raise 0x062 (chFunc ch.toNat) ch.toNat (fld w 48 4))) ∧
  (∀ (ch : BitVec 13) (s : State), s.effective ch.toNat = 0 →
    exec (.klCmdTimeout ch) s = .next s ∧ exec (.klRspTimeout ch) s = .next s)

/-- With responses posted and none waiting on the page, the channel's first queued response goes to KL_RSP and
KL_RSP_READY is raised; what FW_ACTIVATE asked for follows its answer. A 64-bit read of KL_RSP, or one of its high half,
clears RSP_FULL, closes the word's sequence, adds 1 to KL_RSP_CNT and, for a function, returns those bytes; a read of
the low half returns them and takes nothing. The word of the sideband's page leaves as its answer, the Tether's PING
counts as answered. With no word, a function reads 0. (R276, R282, R291, R293) -/
def Obligations.KiteResponses : Prop :=
  (∀ (ch : BitVec 13) (w : DWord) (rest : List DWord) (s : State), s.posts = true → (s.page ch.toNat).rsp = none →
    s.rspQ ch.toNat = w :: rest → ch.toNat ≠ tetherCh →
    exec (.klRspPost ch) s = .next ((((s.setRspQ ch.toNat rest).updPage ch.toNat (fun k => { k with
      rsp := some w, rspTimeout := false })).raise 0x066 (chFunc ch.toNat) ch.toNat (fld w 32 16)).activated ch.toNat w)) ∧
  (∀ (w : DWord) (rest : List DWord) (s : State), s.posts = true → (s.page tetherCh).rsp = none →
    s.rspQ tetherCh = w :: rest →
    exec (.klRspPost (BitVec.ofNat 13 tetherCh)) s = .next (((((s.setRspQ tetherCh rest).updPage tetherCh (fun k => { k with
      rsp := some w, rspTimeout := false })).if_ (fld w 56 8 == 0) (fun t => { t with
        tether := { t.tether with ping := none } })).raise 0x066 noFunc tetherCh (fld w 32 16)).activated tetherCh w)) ∧
  (∀ (ch : BitVec 13) (w : DWord) (r : RspRead) (s t : State), (s.page ch.toNat).rsp = some w →
    (isFuncCh ch.toNat = true → s.barOpen ch.toNat = true) →
    t = (if isFuncCh ch.toNat then s.emit (.completion ch.toNat 0 (match r with
      | .whole => bvBytes w
      | .low => (bvBytes w).take 4
      | .high => (bvBytes w).drop 4)) else s) →
    (r = .low → exec (.klRspTake ch r) s = .next t) ∧
    (r ≠ .low → exec (.klRspTake ch r) s = .next ((t.setPage ch.toNat { s.page ch.toNat with
      rsp := none, rspTimeout := false, rspCnt := (s.page ch.toNat).rspCnt + 1
      seqOpen := setBit (s.page ch.toNat).seqOpen (fld w 48 4) false }).if_ (ch.toNat == sbCh) (fun u => u.sbOut w)))) ∧
  (∀ (ch : BitVec 13) (r : RspRead) (s : State), (s.page ch.toNat).rsp = none →
    (isFuncCh ch.toNat = true → s.barOpen ch.toNat = true →
      exec (.klRspTake ch r) s = .next (s.emit (.completion ch.toNat 0
        (if r = .whole then [0, 0, 0, 0, 0, 0, 0, 0] else [0, 0, 0, 0])))) ∧
    (isFuncCh ch.toNat = false → exec (.klRspTake ch r) s = .next s))

/-- A restart out of maintenance goes to STARTING and owes FW_RESTARTED on every open sequence; STARTING queues what is
owed, and, once nothing is owed and no queued response could still be posted, becomes RUNNING with FW_GEN one up and
FW_READY raised. RUNNING with no command open announces maintenance, which ends with FW_GEN unchanged and may be
lengthened. A sideband request is held under the lowest free sequence of 16 (the model's choice, log entry 96) and
posted in its turn; with none free it is answered SB_BUSY by the binding it came by. (R288, R290, R291, R292) -/
def Obligations.FirmwareStates : Prop :=
  (∀ s : State, s.kite.fw = .starting → s.kite.lost = [] → s.postable = false →
    exec .fwReady s = .next ({ s with
      kite := { s.kite with fw := .running, fwGen := s.kite.fwGen + 1 }, clk := { s.clk with dev := .running }
      tether := { s.tether with startRuns := false } }.raise 0x064 noFunc (s.kite.fwGen + 1).toNat 0)) ∧
  (∀ s : State, s.kite.fw = .starting →
    exec .fwRestart s = .next ({ s with kite := { s.kite with lost := [] } }.each s.kite.lost
      (fun s' e => s'.setRspQ e.1 (s'.rspQ e.1 ++ e.2)))) ∧
  (∀ s : State, s.kite.fw = .maintenance → exec .fwRestart s =
    .next { s.restartOwes with kite := { s.restartOwes.kite with fw := .starting } }) ∧
  (∀ (ms : BitVec 16) (s : State), s.kite.fw = .running → s.kite.opened = [] →
    exec (.maintenanceEnter ms) s = .next ({ s with kite := { s.kite with fw := .maintenance, expectMs := ms } }.raise 0x063
      noFunc ms.toNat s.kite.fwGen.toNat)) ∧
  (∀ s : State, s.kite.fw = .maintenance →
    exec .maintenanceEnd s = .next ({ s with kite := { s.kite with fw := .running } }.raise 0x064 noFunc s.kite.fwGen.toNat 1)) ∧
  (∀ (ms : BitVec 16) (s : State), s.kite.fw = .maintenance →
    exec (.maintenanceOverrun ms) s =
      .next ({ s with kite := { s.kite with expectMs := ms } }.raise 0x063 noFunc ms.toNat s.kite.fwGen.toNat)) ∧
  (∀ (via : Option (Fin 4)) (word : DWord) (block : Bytes) (i : Nat) (s : State), i < 16 → i ∉ s.sbBusy →
    (∀ j < i, j ∈ s.sbBusy) →
    exec (.sidebandRequest word block via) s =
      .next ({ s with kite := { s.kite with sideband := s.kite.sideband ++ [(⟨setFld word 48 4 i, block, via⟩ : SbReq)] } }.sbPost)) ∧
  (∀ (via : Option (Fin 4)) (word : DWord) (block : Bytes) (s : State), (∀ i < 16, i ∈ s.sbBusy) →
    exec (.sidebandRequest word block via) s =
      .next (s.emit (.sideband via ([0x7E, 0x1F, 0x8A] ++ beBytes 8 (setFld (setFld word 32 16 0x3081) 0 32 0).toNat))))

/-- A write from the manager function's host that reaches its BAR0, to any device offset and of any value, adds 1 to the
HIU's discard count and changes nothing else. (R1) -/
def Obligations.HostRegisterWritesDiscarded : Prop :=
  ∀ (f : Fin 4104) (a : BitVec 24) (v : DWord) (s : State), f.val = s.manager → s.barOpen f.val = true →
    exec (.hostRegisterWriteDiscard f a v) s =
      .next (s.wr R.HIU_REGWRITE_DISCARD_CNT (s.rd R.HIU_REGWRITE_DISCARD_CNT + 1))

/-- Such a read of an open BAR completes with as many zero bytes as it asks for and adds 1 to HIU_BAD_ACCESS_CNT; such a
write adds 1 to it. Nothing else changes. On the doorbell page every read, and every write but an aligned 64-bit one, is
such an access (R302). (R12) -/
def Obligations.UnalignedAccessesReturnZero : Prop :=
  ∀ (f : Fin 4104) (db : Bool) (a : BitVec 24) (len : Nat) (s : State), s.barOpen f.val = true →
    (¬ (len = 4 ∧ a.toNat % 4 = 0 ∧ db = false) → ¬ (len = 8 ∧ a.toNat % 8 = 0) →
      exec (.unalignedAccess f true a len db) s = .next (s.bump R.HIU_BAD_ACCESS_CNT)) ∧
    (¬ (len = 4 ∧ a.toNat % 4 = 0 ∧ db = false) → ¬ (len = 8 ∧ a.toNat % 8 = 0 ∧ db = false) →
      exec (.unalignedAccess f false a len db) s =
        .next ((s.bump R.HIU_BAD_ACCESS_CNT).emit (.completion f.val 0 (List.replicate len 0))))

/-- A read by the manager through BAR0 of a 32-bit RC register returns its value and leaves it 0, and so does an aligned
64-bit read of a 64-bit one; a 32-bit read of half a 64-bit one returns that half and changes nothing. REG_READ and
REG_READ_BLOCK return the values and change no register. (R16, R17) -/
def Obligations.ManagerReadClearsRc : Prop :=
  (∀ (a : BitVec 24) (d : RegDesc) (e b : Nat) (v : DWord) (s : State), s.barOpen s.manager = true → a.toNat % 4 = 0 →
    s.readAt a.toNat = some (d, e, b, v) → d.acc = .rc → s.regHeld e = false →
    exec (.rcRead a false) s = .next (((if d.wide then s else s.wr e 0)).emit
      (.completion s.manager 0 (bvBytes (s.read32 a.toNat))))) ∧
  (∀ (a : BitVec 24) (d : RegDesc) (e : Nat) (v : DWord) (s : State), s.barOpen s.manager = true → a.toNat % 8 = 0 →
    s.readAt a.toNat = some (d, e, 0, v) → d.acc = .rc → d.wide = true → s.regHeld e = false →
    ∃ t, exec (.rcRead a true) s = .next t ∧ t.rd e = 0 ∧
      t.out = .completion s.manager 0 (bvBytes (s.read64 a.toNat)) :: s.out ∧ t = { s with regs := t.regs, out := t.out }) ∧
  (∀ (ch : BitVec 13) (seq : BitVec 4) (c : OpenCmd) (s : State), s.ready ch seq 0x02 c = true → c.imm % 4 = 0 →
    c.imm < 16777216 → exec (.regRead ch seq) s = .next (s.answered ch c 0 (s.read32 c.imm).toNat)) ∧
  (∀ (ch : BitVec 13) (seq : BitVec 4) (c : OpenCmd) (n : Nat) (s : State), s.ready ch seq 0x03 c = true →
    leAt c.args 0 4 % 4 = 0 → leAt c.args 4 4 = n → 1 ≤ n → n ≤ 16384 → leAt c.args 0 4 + 4 * n ≤ 16777216 →
    4 * n ≤ outSpace ch.toNat c →
    exec (.regReadBlock ch seq) s =
      .next (s.answeredOut ch c ((List.range n).flatMap (fun k => bvBytes (s.read32 (leAt c.args 0 4 + 4 * k))))))

/-- A write of a TW register by any party but the Tether core changes nothing, and neither does a write by the host or
any other party of any register, nor a write to an offset where no register is defined. A write by the firmware or the
Tether goes to the 32-bit or 64-bit register write; a driver's and a Kite line party's to their pages. A misaligned one
is counted. (R13, R14, R19, R270) -/
def Obligations.RegisterWriteByAccess : Prop :=
  (∀ (w : Writer) (a : BitVec 24) (v : DWord) (d : RegDesc) (e b : Nat) (s : State), (w = .firmware ∨ w = .other) →
    a.toNat % 4 = 0 → regFind a.toNat regRows = some (d, e, b) → d.acc = .tw →
    exec (.registerWrite w a false v) s = .next s ∧
    (a.toNat % 8 = 0 → d.wide = true → b = 0 → exec (.registerWrite w a true v) s = .next s)) ∧
  (∀ (a : BitVec 24) (v : DWord) (s : State), a.toNat % 4 = 0 → exec (.registerWrite .other a false v) s = .next s) ∧
  (∀ (w : Writer) (a : BitVec 24) (v : DWord) (s : State), (w = .firmware ∨ w = .tether ∨ w = .other) →
    a.toNat % 4 = 0 → regFind a.toNat regRows = none → exec (.registerWrite w a false v) s = .next s) ∧
  (∀ (w : Writer) (a : BitVec 24) (v : DWord) (s : State), (w = .firmware ∨ w = .tether) →
    (a.toNat % 4 = 0 → exec (.registerWrite w a false v) s = .next (s.write32 w a.toNat (v.setWidth 32))) ∧
    (a.toNat % 8 = 0 → exec (.registerWrite w a true v) s = .next (s.write64 w a.toNat v))) ∧
  (∀ (f : Fin 4104) (a : BitVec 24) (v : DWord) (s : State), s.barOpen f.val = true → a.toNat % 4 = 0 →
    exec (.registerWrite (.driver f) a false v) s = .next (s.pageWrite32 f a.toNat (v.setWidth 32))) ∧
  (∀ (ch : BitVec 13) (a : BitVec 24) (v : DWord) (s : State), s.pageOpen ch.toNat = true → a.toNat % 4 = 0 →
    exec (.registerWrite (.party ch) a false v) s = .next (s.kiteWrite32 ch.toNat a.toNat (v.setWidth 32))) ∧
  (∀ (w : Writer) (a : BitVec 24) (v : DWord) (s : State), a.toNat % 4 ≠ 0 →
    exec (.registerWrite w a false v) s = .next (s.bump R.HIU_BAD_ACCESS_CNT))

/-- For an RW register whose write only holds the value, in a block not held in reset, a 32-bit firmware write leaves
its writable bits of the written half as written and every other bit as the register showed it. (R18, R13) -/
def Obligations.ReservedBitsKept : Prop :=
  ∀ (a : BitVec 24) (v : DWord) (d : RegDesc) (e b : Nat) (s : State), s.kite.fw ≠ .absent → s.inReset = false →
    a.toNat % 4 = 0 → regFind a.toNat regRows = some (d, e, b) → d.acc = .rw → s.regHeld e = false →
    (∀ x, s.writeActs .firmware e x = none) →
    ∃ t, exec (.registerWrite .firmware a false v) s = .next t ∧ t = { s with regs := t.regs } ∧
      (t.rd e) &&& ~~~(BitVec.ofNat 64 (at' 0xFFFFFFFF (b * 8)) &&& BitVec.ofNat 64 d.wmask) =
        (s.shown e) &&& ~~~(BitVec.ofNat 64 (at' 0xFFFFFFFF (b * 8)) &&& BitVec.ofNat 64 d.wmask) ∧
      (t.rd e) &&& (BitVec.ofNat 64 (at' 0xFFFFFFFF (b * 8)) &&& BitVec.ofNat 64 d.wmask) =
        BitVec.ofNat 64 (at' (v.setWidth 32).toNat (b * 8)) &&& (BitVec.ofNat 64 (at' 0xFFFFFFFF (b * 8)) &&& BitVec.ofNat 64 d.wmask) ∧
      ∀ x, x ≠ e → t.rd x = s.rd x

/-- IDCODE shifts out the part's code with its stepping, anywhere. EXTEST, CLAMP and HIGHZ work in board-test mode,
SAMPLE/PRELOAD also outside LOCKED; elsewhere each acts as BYPASS, which shifts out one 0 bit. EXTEST drives what was
shifted in, CLAMP the boundary register, the others no pin. Nothing but the scan state and what is shifted out changes.
(R469) -/
def Obligations.BoundaryScan : Prop :=
  (∀ s : State, exec .idcode s = .next (s.scan .idcode (leBytes 4 (0x08016B67 + at' (s.rdf R.IDENT_STEP 0 4) 28)) s.obs.boundary [])) ∧
  (∀ s : State, exec .bypass s = .next (s.scan .bypass [0] s.obs.boundary [])) ∧
  (∀ (x y : Bytes) (s : State), s.tether.boardTest = true →
    exec (.extest x y) s = .next (s.scan .extest x y y) ∧ exec .clamp s = .next (s.scan .clamp [0] s.obs.boundary s.obs.boundary) ∧
    exec .highz s = .next (s.scan .highz [0] s.obs.boundary [])) ∧
  (∀ (x y : Bytes) (s : State), s.tether.boardTest = true ∨ s.boot.fuse.sec ≠ 2 →
    exec (.samplePreload x y) s = .next (s.scan .sample x y [])) ∧
  (∀ (x y : Bytes) (s : State), s.tether.boardTest = false →
    exec (.extest x y) s = exec .bypass s ∧ exec .clamp s = exec .bypass s ∧ exec .highz s = exec .bypass s) ∧
  (∀ (x y : Bytes) (s : State), s.tether.boardTest = false → s.boot.fuse.sec = 2 →
    exec (.samplePreload x y) s = exec .bypass s) ∧
  (∀ (i : Jtag) (tdo b p : Bytes) (s : State), s.scan i tdo b p =
    { s with obs := { s.obs with jtag := i, boundary := b, pinsDriven := p }, out := .tdo tdo :: s.out })

/-- CW_SELECT and RW_CURSOR written through a PF's window hold what is written. COUNTER_GRANT maps a listed range, the
recorder window for slot 63, or nothing. TRACE_CFG sets the level up to the ceiling, a sink's configuration, or ends a
sink after closing its page. A page's time closes it; a running sink's period writes its counter records. (R459, R460,
R461, R463, R465, R466, R467, R475, R487) -/
def Obligations.ObservationCommands : Prop :=
  (∀ (f : Fin 4104) (v : Word) (s : State), f.val < 8 → s.barOpen f.val = true →
    exec (.cwSelect f v) s =
      .next { s with obs := { s.obs with cwSelect := mapSet (fun _ => 0) s.obs.cwSelect f.val (fld v 0 4) } }) ∧
  (∀ (f : Fin 4104) (v : Word) (s : State), f.val < 8 → s.barOpen f.val = true → s.grantOf f.val 63 ≠ 0 →
    exec (.rwCursor f v) s = .next { s with obs := { s.obs with rwCursor := mapSet (fun _ => 0) s.obs.rwCursor f.val v } }) ∧
  (∀ (ch : BitVec 13) (seq : BitVec 4) (c : OpenCmd) (f slot off : Nat) (s : State), s.ready ch seq 0x81 c = true →
    leAt c.args 0 2 = f → f < 8 → leAt c.args 2 1 = slot → slot < 64 → byteAt c.args 3 = 0 → leAt c.args 4 4 = off →
    (slot = 63 ∨ off ∈ grantable) →
    exec (.counterGrant ch seq) s = .next ({ s with obs := { s.obs with
      grant := mapSet (fun _ => 0) s.obs.grant (f * 64 + slot) (if slot = 63 then 1 else off + 1) } }.answered ch c 0 0)) ∧
  (∀ (ch : BitVec 13) (seq : BitVec 4) (c : OpenCmd) (f slot : Nat) (s : State), s.ready ch seq 0x81 c = true →
    leAt c.args 0 2 = f → f < 8 → leAt c.args 2 1 = slot → slot < 64 → byteAt c.args 3 = 1 →
    exec (.counterGrant ch seq) s = .next ({ s with obs := { s.obs with
      grant := mapSet (fun _ => 0) s.obs.grant (f * 64 + slot) 0 } }.answered ch c 0 0)) ∧
  (∀ (ch : BitVec 13) (seq : BitVec 4) (c : OpenCmd) (s : State), s.ready ch seq 0x80 c = true → byteAt c.args 0 = 0 →
    leAt c.args 1 1 ≤ s.levelCeiling →
    exec (.traceLevelSet ch seq) s = .next ((s.setLevel (leAt c.args 1 1)).answered ch c 0 0)) ∧
  (∀ (ch : BitVec 13) (seq : BitVec 4) (c : OpenCmd) (k : Nat) (s : State), s.ready ch seq 0x80 c = true →
    byteAt c.args 0 = 1 → leAt c.args 1 1 = k → k < 8 → leAt c.args 2 6 = 0 → leAt c.args 20 4 = 0 → (sinkImage c.args).ok = true →
    (bit (sinkImage c.args).cfg 30 = false ∨ ∀ j < 8, j ≠ k → bit (s.sinkCfg j) 30 = false) →
    s.listAllowed (sinkImage c.args) = true →
    exec (.sinkConfigure ch seq) s =
      .next (((((s.sinkCfgWrite k (sinkImage c.args).cfg (sinkImage c.args).ring (sinkImage c.args).buf).wr (R.SND_SINK_RATE k)
        ((sinkImage c.args).rate.setWidth 64)).each (List.range 32) (fun s n =>
          s.wr (R.SND_FILTER k (n / 4) (n % 4)) (((sinkImage c.args).filters.getD n 0).setWidth 64))).each (List.range 64)
        (fun s j => s.wr (R.SND_CNT_LIST k j) (((sinkImage c.args).list.getD j 0).setWidth 64))).answered ch c 0 0)) ∧
  (∀ (ch : BitVec 13) (seq : BitVec 4) (c : OpenCmd) (k : Nat) (s : State), s.ready ch seq 0x80 c = true →
    byteAt c.args 0 = 2 → leAt c.args 1 1 = k → k < 8 →
    exec (.sinkDisable ch seq) s = .next (((s.closePage k).wrf (R.SND_SINK_CFG k) 31 1 0).answered ch c 0 0)) ∧
  (∀ (k : Fin 8) (s : State), exec (.tracePageClose k) s = .next (s.closePage k.val)) ∧
  (∀ (k : Fin 8) (s : State), bit (s.sinkCfg k.val) 31 = true → bit (s.sinkCfg k.val) 27 = true →
    fld (s.sinkCfg k.val) 0 16 ≠ 0 → s.level ≠ 0 → s.blockHeld 20 = false →
    exec (.counterSample k) s = .next (s.each (s.counterBodies 22
      ((((List.range 64).map (fun j => s.rd (R.SND_CNT_LIST k.val j))).filter (fun e => bit e 31)).map (fun e => fld e 0 24)))
      (fun s body => s.drew.traceDeliver k.val (fun seq => traceHeader 0 (fld s.fresh 0 8) 64 seq s.now ++ body))))

/-- A parse unit takes its oldest packet and parses it anew (units 0 and 1 in order of arrival), or, for unit 4 and a
re-parse, again with the kept fields. A hold whose old instance has passed every earlier packet ends with its packets in
order. A HOLDING entry expires into the orphan action and an untouched FOLLOWING one is freed and counted. (R37, R38,
R39, R42, R44, R50, R54, R55) -/
def Obligations.ParserCommands : Prop :=
  (∀ (u : Fin 5) (p : Pkt) (rest : List Pkt) (s : State), s.unitQ u.val = p :: rest → p.reparse = false →
    (u.val < 2 → s.unitTurn = u.val) → s.blockHeld 5 = false → bit s.clk.running 2 = true →
    exec (.packetParse u) s = .next ((s.setUnitQ u.val rest).parseNew u.val p)) ∧
  (∀ (p : Pkt) (rest : List Pkt) (s : State), s.unitQ 4 = p :: rest → p.reparse = true →
    s.blockHeld 5 = false → bit s.clk.running 2 = true →
    exec .reparse s = .next ((s.setUnitQ 4 rest).parseAgain p)) ∧
  (∀ (i : Fin 16) (old : Nat) (held : List Pkt) (s : State), s.hold i.val = some (old, held) →
    s.laneBusy old i.val = false →
    exec (.laneHoldRelease i) s =
      .next ((s.setHold i.val none).each held (fun s p => s.dispatchTo (s.laneInst p.sp) p))) ∧
  (∀ (slot : Fin 4) (idx : Fin 65536) (s : State), (s.follow (followKey slot idx)).st = .holding →
    exec (.followWaitExpire slot idx) s = .next ((s.setFollow (followKey slot idx) .empty).orphan slot.val (idx.val / 8)
      ((s.slotInst slot.val).getD slot.val) (s.follow (followKey slot idx)).held)) ∧
  (∀ (slot : Fin 4) (idx : Fin 65536) (s : State), (s.follow (followKey slot idx)).st = .following →
    exec (.followAgeExpire slot idx) s =
      .next ((s.setFollow (followKey slot idx) .empty).bump (R.PARSE_FOLLOW_AGED_CNT slot.val)))

/-- LANE_MAP_SET moves an entry to an instance serving a slot; PARSE_CFG writes a whole image without reserved bits and
holds every index where the hash changes; a pass of an instance that runs takes its oldest retained pass to its end; a
classifier commit writes the staged entry; RULESET_LOAD, COMMIT and DISCARD work on the slot whose turn it is. (R49,
R50, R63, R72, R76, R78, R79, R281) -/
def Obligations.RuleSetCommands : Prop :=
  (∀ (ch : BitVec 13) (seq : BitVec 4) (c : OpenCmd) (s : State), s.ready ch seq 0x33 c = true →
    c.imm &&& 0xFFFFFFF0FFF8 = 0 → (s.cinst (fld c.arg 0 3)).role.serves = true → fld c.arg 0 3 ≤ 4 →
    exec (.laneMapSet ch seq) s = .next ((s.setLane (fld c.arg 16 4) (fld c.arg 0 3)).answered ch c 0 0)) ∧
  (∀ (ch : BitVec 13) (seq : BitVec 4) (c : OpenCmd) (t : State) (s : State), s.ready ch seq 0x34 c = true →
    320 ≤ c.args.length → (∀ o ∈ parseImageOffsets, leAt c.args o 4 &&& (0xFFFFFFFF ^^^ parseImageMask o) = 0) →
    t = s.each (parseImageOffsets.filter (fun o => parseImageMask o != 0)) (fun s o =>
      s.wr (R.PARSE_HASH_CFG + o) (BitVec.ofNat 64 (leAt c.args o 4))) →
    exec (.parseCfg ch seq) s = .next ((if t.hashMode = s.hashMode then t else
      t.each (List.range 16) (fun s i => s.beginHold (s.rdf (R.PARSE_LANE_MAP i) 0 3) i)).answered ch c 0 0)) ∧
  (∀ (i : Fin 5) (flip : Word) (bad : List (Fin 24)) (h : Held) (rest : List Held) (s : State),
    s.instRuns i.val = true → (s.cinst i.val).retain = h :: rest →
    exec (.carriagewayPass i flip bad) s =
      .next ((s.runPass false i.val bad flip h.pkt.bytes (.start h.pkt.sp [] [] [])).1.endPass i.val h rest
        (s.runPass false i.val bad flip h.pkt.bytes (.start h.pkt.sp [] [] [])).2)) ∧
  (∀ (v : Word) (s : State), s.blockHeld 6 = false →
    exec (.tcamCommit v) s = .next (s.tcamWrite (fld v 0 14) s.tcamStaged).1) ∧
  (∀ (ch : BitVec 13) (seq : BitVec 4) (c : OpenCmd) (g n base : Nat) (image : Bool) (s : State),
    s.ready ch seq 0x30 c = true → byteAt c.args 0 &&& 0xFC = 0 → leAt c.args 1 3 = 0 → leAt c.args 4 4 = n →
    image = bit (byteAt c.args 0) 1 → base = (if image then 2248 else 8) → base + n * 138 ≤ c.args.length →
    (c.version ≠ 1 ∨ (image = false ∧ n ≤ 1)) → (∀ k < n, leAt c.args (base + k * 138) 2 < 16384) →
    s.genIn (if bit (byteAt c.args 0) 0 then .free else .loading) = some g →
    (∀ r ∈ tcamRecords n (c.args.drop base), s.tcamBlocks r.1 r.2 = none) →
    exec (.rulesetLoad ch seq) s = .next (((if image then
        ((s.setGen g { s.gen g with st := .loading }).loadStages g (c.args.drop 8)).loadTemplates g (c.args.drop 200)
      else s.setGen g { s.gen g with st := .loading }).each (tcamRecords n (c.args.drop base))
        (fun s r => (s.tcamWrite r.1 r.2).1)).answered ch c 0 g)) ∧
  (∀ (ch : BitVec 13) (seq : BitVec 4) (c : OpenCmd) (g : Nat) (s : State), s.ready ch seq 0x31 c = true → c.imm = 0 →
    s.genIn .loading = some g →
    exec (.rulesetCommit ch seq) s = .next (((s.commitGen g).1.extend 9 none none
      (Config.sha384 ((s.commitGen g).1.ruleSetBytes g))).answered ch c 0 (s.commitGen g).2)) ∧
  (∀ (ch : BitVec 13) (seq : BitVec 4) (c : OpenCmd) (g : Nat) (s : State), s.ready ch seq 0x32 c = true → c.imm = 0 →
    s.genIn .loading = some g →
    exec (.rulesetDiscard ch seq) s = .next ((s.setGen g { s.gen g with st := .free }).answered ch c 0 0))

/-- Committing slot g, other than the LIVE one, leaves g LIVE with the old waymark plus 1 and no packet in flight, and
the old slot DRAINING with its packets, or FREE where none was in flight; no other slot is LIVE. (R76, R78) -/
def Obligations.GenerationSwapIsWhole : Prop :=
  ∀ (s : State) (g : Nat), g < 2 → (s.gen s.liveSlot).st = .live → s.liveSlot = 1 - g → (s.gen g).st = .loading →
    (s.commitGen g).1.gen g = ⟨.live, (s.gen (1 - g)).waymark + 1, 0⟩ ∧
    (s.commitGen g).1.gen (1 - g) =
      { s.gen (1 - g) with st := if (s.gen (1 - g)).inflight = 0 then .free else .draining } ∧
    (s.commitGen g).2 = ((s.gen (1 - g)).waymark + 1).toNat

/-- With shadowing enabled a window opens on the next slot of the rotation and closes with the rotation moved on. The
Shoulder takes its oldest copy: a void one is counted, an equal digest matches, another is recorded and waits for its
replay, or is counted without one when 64 wait. The oldest replay that can enter its instance runs there: one that
agrees with the instance charges the Shoulder, one that agrees with the Shoulder charges the instance, a third digest is
no majority; the record is completed where it is still the latest. A substitution abandons the suspect's passes, freezes
its registers, hands its regions, its lane map entries and its passes to instance 4 and raises SUBSTITUTION. The manager
forces a substitution and sets the schedule. (R118, R119, R121, R124, R126, R127) -/
def Obligations.ShoulderCommands : Prop :=
  (∀ (slot i : Nat) (s : State), s.shld.st = .standing → bit (s.rd R.CWAY_SHLD_CFG) 31 = true →
    s.rotate s.shld.nextSlot = some slot → s.slotInst slot = some i →
    exec .shadowWindowOpen s = .next ((s.setShld { s.shld with
      st := .shadowing, window := some slot, target := i }).bump R.CWAY_SHLD_WINDOW_CNT)) ∧
  (∀ (slot : Nat) (s : State), s.shld.st = .shadowing → s.shld.window = some slot →
    exec .shadowWindowEnd s = .next (s.setShld { s.shld with st := .standing, window := none, nextSlot := (slot + 1) % 4 })) ∧
  (∀ (flip : Word) (c : ShadowCopy) (rest : List ShadowCopy) (s : State), s.shld.copies = c :: rest → s.shadowing = true →
    s.blockHeld 28 = false → c.void = true →
    exec (.shadowPass flip) s = .next ((s.setShld { s.shld with copies := rest }).bump R.CWAY_SHLD_VOID_CNT)) ∧
  (∀ (flip : Word) (c : ShadowCopy) (rest : List ShadowCopy) (s t : State), s.shld.copies = c :: rest → s.shadowing = true →
    s.blockHeld 28 = false → c.void = false → (s.setShld { s.shld with copies := rest }).runCopy 4 flip c = (t, c.digest) →
    exec (.shadowPass flip) s = .next ((t.bump R.CWAY_SHLD_CMP_CNT).bump R.CWAY_SHLD_MATCH_CNT)) ∧
  (∀ (flip d : Word) (c : ShadowCopy) (rest : List ShadowCopy) (s t u : State), s.shld.copies = c :: rest →
    s.shadowing = true → s.blockHeld 28 = false → c.void = false →
    (s.setShld { s.shld with copies := rest }).runCopy 4 flip c = (t, d) → d ≠ c.digest →
    u = t.bump R.CWAY_SHLD_CMP_CNT →
    ∃ v c', c' = { c with shoulder := d, seen := u.now, no := u.shld.mmNo + 1 } ∧
      v = ((u.setShld { u.shld with mmNo := u.shld.mmNo + 1 }).bump R.CWAY_SHLD_MISMATCH_CNT).mismatch c' ∧
      exec (.shadowPass flip) s = .next (if 64 ≤ v.shld.replays.length then v.bump R.CWAY_SHLD_NO_REPLAY_CNT
        else v.setShld { v.shld with replays := v.shld.replays ++ [c'] })) ∧
  (∀ (flip d : Word) (c : ShadowCopy) (before rest : List ShadowCopy) (s t u : State),
    s.shld.replays = before ++ c :: rest → (∀ b ∈ before, s.instRuns (s.replayInst b.inst) = false ∨
      (s.cinst (s.replayInst b.inst)).recirc ≠ []) → s.instRuns (s.replayInst c.inst) = true →
    (s.cinst (s.replayInst c.inst)).recirc = [] →
    (s.setShld { s.shld with replays := before ++ rest }).runCopy (s.replayInst c.inst) flip c = (t, d) →
    u = t.bump R.CWAY_SHLD_REPLAY_CNT →
    exec (.tieBreakReplay flip) s = .next (State.startPasses (
      if d = c.digest then (u.voted c 1 d).charge 4 (s.replayInst c.inst)
      else if d = c.shoulder then (u.voted c 0 d).charge c.inst (s.replayInst c.inst)
      else ((u.voted c 2 d).bump R.CWAY_SHLD_NO_MAJ_CNT).raise 0x287 noFunc c.inst (s.replayInst c.inst))
        (s.replayInst c.inst))) ∧
  (∀ (n : Nat) (s u v : State), s.shld.st = .substituting → s.shld.target = n →
    u = (((((s.abandonRuns n).pauseEnd n (s.paused n)).freeze n).adopt n).remap n).takeOver n →
    v = (((u.drew.wr R.CWAY_SHLD_SUB_NS (BitVec.ofNat 64 (u.fresh.toNat % 5001))).wrf R.IDENT_CWAY 7 1 0).wrf R.IDENT_CWAY 4 3
      n).raise 0x285 noFunc n (s.cinst n).retain.length →
    exec .substitution s = .next (v.setXing 0x285 { v.xing 0x285 with time := v.rd R.CWAY_SHLD_SUB_TIME })) ∧
  (∀ (ch : BitVec 13) (seq : BitVec 4) (c : OpenCmd) (s : State), s.ready ch seq 0x37 c = true → c.imm ≤ 3 →
    exec (.shoulderForce ch seq) s = .next ((s.force c.imm).answered ch c 0 0)) ∧
  (∀ (ch : BitVec 13) (seq : BitVec 4) (c : OpenCmd) (s : State), s.ready ch seq 0x36 c = true → fld c.arg 32 16 = 0 →
    c.arg &&& 0x7C0000F0 = 0 →
    exec (.shoulderCfg ch seq) s = .next ((s.wr R.CWAY_SHLD_CFG (BitVec.ofNat 64 c.imm)).answered ch c 0 0))

/-- While the table engines run, each applies the oldest request of its learning queue and the oldest station copy. An
age tick advances RTBL_AGE_NOW modulo 65,536. A sweeper visit moves on by one bucket and, with aging enabled for the
table, removes that bucket's aged unlocked entries. (R93, R102, R104, R105, R107, R108, R109) -/
def Obligations.LearningAndAging : Prop :=
  (∀ (i : Fin 5) (q : LearnReq) (rest : List LearnReq) (s : State), s.learnQ i.val = q :: rest → s.tablesRun = true →
    exec (.learnApply i) s = .next ((s.setLearnQ i.val rest).learnOne i.val q)) ∧
  (∀ (i : Fin 5) (q : LearnReq) (rest : List LearnReq) (s : State), s.copyQ i.val = q :: rest → s.tablesRun = true →
    exec (.stationCopyApply i) s = .next ((s.setCopyQ i.val rest).copyOne i.val q)) ∧
  (∀ s : State, s.tablesRun = true →
    exec .ageTick s = .next (s.wr R.RTBL_AGE_NOW ((s.rd R.RTBL_AGE_NOW + 1) &&& 0xFFFF))) ∧
  (∀ (i : Fin 5) (tbl : Fin 2) (s t : State), s.tablesRun = true → (s.cinst i.val).role ≠ .suspect →
    t = { s with rtbl := { s.rtbl with
      sweep := mapSet (fun _ => 0) s.rtbl.sweep (i.val * 2 + tbl.val)
        ((s.sweepAt (i.val * 2 + tbl.val) + 1) % bucketsOf tbl.val) } } →
    exec (.sweeperVisit i tbl) s = .next (if bit (s.rd (R.RTBL_AGE_LIMIT tbl.val)) 31 then
      t.sweepBucket i.val tbl.val (s.sweepAt (i.val * 2 + tbl.val)) else t))

/-- A screened READ_INDEX writes the records from START that fit, and completes with status 0x0003 where not all of
COUNT fit; DUMP does so with whole buckets; READ_KEY writes the entry with the key, or completes with 0x0002 when there
is none and 0x0003 when it does not fit. The completion gives the bytes sent; where the host refuses a write, it has
that write's status (taGive). (R111, R112, R114, R115, R230) -/
def Obligations.TableAccessReads : Prop :=
  (∀ (ring : BitVec 20) (no n i t : Nat) (data : Bytes) (o : RingOp) (s : State),
    s.opRuns ring.toNat no 0x4002 true o = true → s.taScreen (s.ring ring.toNat) o.desc 2 = none → t = taTable o.desc →
    n = min (taCount o.desc) (descLen o.desc / taReadLen t) → i = s.readInst t (taMask o.desc) →
    data = (List.range n).flatMap (fun x => s.taRecord t i (taStart o.desc + x)) →
    exec (.taReadIndex ring no) s = .next (s.taGive (s.ring ring.toNat) ring.toNat o (if n < taCount o.desc then 3 else 0) data
      (taStart o.desc + n) n 0 0)) ∧
  (∀ (ring : BitVec 20) (no n : Nat) (data : Bytes) (o : RingOp) (s : State),
    s.opRuns ring.toNat no 0x4003 true o = true → s.taScreen (s.ring ring.toNat) o.desc 3 = none →
    s.dumpFit (s.readInst (taTable o.desc) (taMask o.desc)) (taTable o.desc - 1) (taCount o.desc) (taStart o.desc)
      (descLen o.desc) = (data, n) →
    exec (.taDump ring no) s = .next (s.taGive (s.ring ring.toNat) ring.toNat o (if n < taCount o.desc then 3 else 0) data
      (taStart o.desc + n) n 0 0)) ∧
  (∀ (ring : BitVec 20) (no t i word : Nat) (e : EmEntry) (l : Loc) (o : RingOp) (s : State),
    s.opRuns ring.toNat no 0x4001 true o = true → s.taScreen (s.ring ring.toNat) o.desc 1 = none → t = taTable o.desc →
    t ≠ 6 → t ≠ 7 → i = s.readInst t (taMask o.desc) →
    s.emFind (s.regionOf i) (t - 1) (taKey t o.data) = some (l, e) →
    word = (match l with
      | .slot _ 0 => (s.bucket (s.regionOf i) (t - 1) (home (t - 1) (taKey t o.data))).word
      | _ => 0) →
    exec (.taReadKey ring no) s = .next (if descLen o.desc < (e.bytes word).length then
        s.taEnd ring.toNat no 3 0 0 0 word l.code
      else s.taGive (s.ring ring.toNat) ring.toNat o 0 (e.bytes word) 0 1 word l.code)) ∧
  (∀ (ring : BitVec 20) (no t : Nat) (p q : PfxEntry) (o : RingOp) (s : State),
    s.opRuns ring.toNat no 0x4001 true o = true → s.taScreen (s.ring ring.toNat) o.desc 1 = none → t = taTable o.desc →
    (t = 6 ∨ t = 7) → p = pfxOf (padTo 32 o.data) → p.ok t = true → (s.prefixes t).find? (fun q => q.same p) = some q →
    (q.bytes (t == 7)).length ≤ descLen o.desc →
    exec (.taReadKey ring no) s = .next (s.taGive (s.ring ring.toNat) ring.toNat o 0 (q.bytes (t == 7)) 0 1 0 0)) ∧
  (∀ (ring : BitVec 20) (no t i : Nat) (o : RingOp) (s : State),
    s.opRuns ring.toNat no 0x4001 true o = true → s.taScreen (s.ring ring.toNat) o.desc 1 = none → t = taTable o.desc →
    t ≠ 6 → t ≠ 7 → i = s.readInst t (taMask o.desc) →
    s.emFind (s.regionOf i) (t - 1) (taKey t o.data) = none →
    exec (.taReadKey ring no) s = .next (s.taEnd ring.toNat no 2 0 0 0
      (s.bucket (s.regionOf i) (t - 1) (home (t - 1) (taKey t o.data))).word 0)) ∧
  (∀ (k : Ring) (r : Nat) (o : RingOp) (st : Status) (data : Bytes) (next n word loc sent : Nat) (bad : Option Status)
    (s s' : State),
    s.hostPut k.func (s.ringPasid k) (BitVec.ofNat 64 (descA o.desc)) data = (s', sent, bad) →
    s.taGive k r o st data next n word loc = s'.taEnd r o.no (bad.getD st) sent next n word loc)

/-- A screened WRITE with all its records and only well-formed prefixes writes them in order and completes with the
first refusal, or the highest status, and how many were written. DELETE completes with 0x0002 when no instance held the
key. TABLE_CFG without reserved bits writes its whole image. (R99, R107, R112, R113) -/
def Obligations.TableAccessWrites : Prop :=
  (∀ (ring : BitVec 20) (no n t done : Nat) (st : Status) (recs : Bytes) (o : RingOp) (s s' : State),
    s.opRuns ring.toNat no 0x4004 false o = true → s.taScreen (s.ring ring.toNat) o.desc 4 = none → t = taTable o.desc →
    n = taCount o.desc → n * taWriteLen t ≤ descLen o.desc → recs = padTo (n * taWriteLen t) o.data →
    (t ≠ 6 ∧ t ≠ 7 ∨ ∀ k < n, (pfxOf (slice recs (k * 32) 32)).ok t = true) →
    s.taWriteAll t ((maskInsts (taMask o.desc)).map s.taInst).eraseDups n (taStart o.desc) recs 0 0 = (s', st, done) →
    exec (.taWrite ring no) s = .next (s'.taEnd ring.toNat no st (n * taWriteLen t) (taStart o.desc + done) done 0 0)) ∧
  (∀ (ring : BitVec 20) (no t n : Nat) (o : RingOp) (s s' : State),
    s.opRuns ring.toNat no 0x4005 false o = true → s.taScreen (s.ring ring.toNat) o.desc 5 = none → t = taTable o.desc →
    (t = 1 ∨ t = 2) →
    ((maskInsts (taMask o.desc)).map s.taInst).eraseDups.foldl (fun (a : State × Nat) i =>
      ((a.1.taRemove (t - 1) i (taKey t o.data)).1,
        a.2 + cond ((a.1.taRemove (t - 1) i (taKey t o.data)).2 == 0) 1 0)) (s, 0) = (s', n) →
    exec (.taDelete ring no) s = .next (s'.taEnd ring.toNat no (if n = 0 then 2 else 0) 0 0 n 0 0)) ∧
  (∀ (ring : BitVec 20) (no t : Nat) (o : RingOp) (s s' : State) (st : Status),
    s.opRuns ring.toNat no 0x4005 false o = true → s.taScreen (s.ring ring.toNat) o.desc 5 = none → t = taTable o.desc →
    (t = 6 ∨ t = 7) → s.pfxRemove t (pfxOf (padTo 32 o.data)) = (s', st) →
    exec (.taDelete ring no) s =
      .next (s'.taEnd ring.toNat no (if st = 0 then 0 else 2) 0 0 (if st = 0 then 1 else 0) 0 0)) ∧
  (∀ (ch : BitVec 13) (seq : BitVec 4) (c : OpenCmd) (s : State), s.ready ch seq 0x35 c = true → 40 ≤ c.args.length →
    (∀ k < 10, leAt c.args (k * 4) 4 &&& (0xFFFFFFFF ^^^ tableImageMask (k * 4)) = 0) →
    exec (.tableCfg ch seq) s = .next ((s.each [0, 8, 12, 16, 20, 24, 32, 36] (fun s o =>
      s.wr (R.RTBL_AGE_TICK + o) (BitVec.ofNat 64 (leAt c.args o 4)))).answered ch c 0 0))

/-- The traffic manager takes the oldest arrival and admits or drops it. A port node that is up and eligible and whose
choice is a packet sends it with its charges. Every microsecond each node's buckets refill and take what was written. A
gate entry's end applies the next entry, and a pending switch begins its list at entry 0. (R137, R138, R139, R142, R152,
R155, R156) -/
def Obligations.TrafficManagerTraffic : Prop :=
  (∀ (p : Pkt) (mirror : Bool) (rest : List (Pkt × Bool)) (s : State), s.tm.input = (p, mirror) :: rest →
    s.blockHeld 9 = false → s.tmRuns = true →
    exec .tmAdmit s = .next ({ s with tm := { s.tm with input := rest } }.admitPkt p mirror)) ∧
  (∀ (n : Fin 16) (bad : Bool) (c : Pick) (s t : State), s.tmRuns = true → s.nodeUp n.val = true →
    (s.tmNode (portKey n.val)).eligible = true → s.portChoose n.val (s.portKids n.val) classOrder = (t, .send c) →
    exec (.tmSend n bad) s = .next (t.sendPick n.val c bad false)) ∧
  (∀ s : State, s.tmRuns = true →
    exec .shaperRefill s = .next (s.each (s.tm.node.map (fun e => e.1)) (fun s k => s.setTmNode k (s.tmNode k).refill))) ∧
  (∀ (p : Fin 8) (s : State), s.tmRuns = true → exec (.timeGateEntry p) s = .next (s.gateNow p.val)) ∧
  (∀ (p : Fin 8) (g : TimeGate) (gates : Byte) (s : State), s.tmRuns = true → (s.gate p.val).pending ≠ none →
    g = { (s.gateSwap p.val).gate p.val with cfg := ((s.gateSwap p.val).rd (R.TM_TG_CFG p.val)).setWidth 32 } →
    gates = (if bit g.cfg 31 then (((s.gateSwap p.val).activeSegs p.val).head?.map (fun x => x.gates)).getD 0xFF else 0xFF) →
    exec (.timeGateSwitch p) s = .next ((s.gateSwap p.val).setGate p.val { g with gates := gates }))

/-- After a refill of a node neither bucket is above the burst that was written, a bucket whose rate and burst stand
rises by the rate or to the burst, and the rates and bursts in force are those written. (R139, R140) -/
def Obligations.ShaperBucketsBounded : Prop :=
  ∀ v : TmNode, v.refill.cLevel ≤ burstOf v.written.cbs ∧ v.refill.pLevel ≤ burstOf v.written.pbs ∧
    v.refill.inForce = v.written ∧ v.refill.cLevel ≤ v.cLevel + v.written.cir.toNat ∧
    v.refill.pLevel ≤ v.pLevel + v.written.pir.toNat ∧
    (v.written = v.inForce → v.cLevel + v.written.cir.toNat ≤ burstOf v.written.cbs →
      v.refill.cLevel = v.cLevel + v.written.cir.toNat)

/-- A window read of an object in range gives its bytes and a write that is not refused puts them. TM_READ gives the
objects asked for, TM_WRITE puts all of them. TM_DRAIN waits while anything is queued below the node, and is answered
when nothing is. TM_FLUSH, TG_LOAD, TG_SWITCH and POOL_SET do their work on operands in range. (R133, R156, R158, R285)
-/
def Obligations.TrafficManagerAccess : Prop :=
  (∀ (v : Word) (kind i size count : Nat) (s t : State), s.blockHeld 9 = false → fld v 30 2 = 1 → fld v 26 4 = kind →
    fld v 0 24 = i → tmKind kind = some (size, count) → i < count → t = s.wr R.TM_IND_CTL ((v &&& 0xFCFFFFFF).setWidth 64) →
    exec (.tmIndRead v) s = .next ((t.drew.each (List.range ((t.tmObject kind i t.free).length / 4)) (fun u k =>
      u.wr (R.TM_IND_DATA k) (BitVec.ofNat 64 (leAt (t.tmObject kind i t.free) (4 * k) 4)))).tmWindow false)) ∧
  (∀ (v : Word) (kind i size count : Nat) (b : Bytes) (s t : State), s.blockHeld 9 = false → fld v 30 2 = 2 →
    fld v 26 4 = kind → fld v 0 24 = i → tmKind kind = some (size, count) → i < count →
    t = s.wr R.TM_IND_CTL ((v &&& 0xFCFFFFFF).setWidth 64) →
    b = ((List.range 32).flatMap (fun k => leBytes 4 (t.rd (R.TM_IND_DATA k)).toNat)).take size →
    t.tmRefused kind i b = false →
    exec (.tmIndWrite v) s = .next ((t.tmPut kind i b).tmWindow false)) ∧
  (∀ (ch : BitVec 13) (seq : BitVec 4) (c : OpenCmd) (kind i n size : Nat) (out : Bytes) (s : State),
    s.ready ch seq 0x40 c = true → c.tmRange = some (kind, i, n, size) → s.tmMay ch.toNat kind i n = true →
    n * size ≤ outSpace ch.toNat c → out = (List.range n).flatMap (fun k => s.tmObject kind (i + k) (s.free + k)) →
    out.length ≤ outSpace ch.toNat c →
    exec (.tmRead ch seq) s = .next ({ s with free := s.free + n }.answeredOut ch c out)) ∧
  (∀ (ch : BitVec 13) (seq : BitVec 4) (c : OpenCmd) (kind i n size : Nat) (objs : List Bytes) (s : State),
    s.ready ch seq 0x41 c = true → c.tmRange = some (kind, i, n, size) →
    (∀ x, tmKind (leAt c.args 0 1) = some x → c.tooLong (16 + x.1 * leAt c.args 8 4) = false) →
    leAt c.args 12 4 = 0 → 16 + size * n ≤ c.args.length →
    objs = (List.range n).map (fun k => slice c.args (16 + size * k) size) → (∀ b ∈ objs, tmReserved kind b = 0) →
    s.tmMay ch.toNat kind i n = true → (kind = 3 → ∀ b ∈ objs, s.tmMay ch.toNat 4 (leAt b 0 4 % 16384) 1 = true) →
    (∀ k < n, s.tmRefused kind (i + k) (objs.getD k []) = false) →
    exec (.tmWrite ch seq) s =
      .next ((s.each (List.range n) (fun s k => s.tmPut kind (i + k) (objs.getD k []))).answered ch c 0 0)) ∧
  (∀ (ch : BitVec 13) (seq : BitVec 4) (c : OpenCmd) (kind i : Nat) (s : State), s.ready ch seq 0x42 c = true →
    fld c.arg 24 4 = kind → fld c.arg 0 24 = i → fld c.arg 28 20 = 0 → (kind = 3 ∧ i < 65536 ∨ kind = 4 ∧ i < 16384) →
    s.tmMay ch.toNat kind i 1 = true →
    exec (.tmDrain ch seq) s = .next (if s.busyBelow kind i then
      { s with tm := { s.tm with drains := s.tm.drains ++ [(⟨kind, i, ch.toNat, seq.toNat, 0⟩ : Drain)] } }.markWaiting ch.toNat seq
      else s.answered ch c 0 0)) ∧
  (∀ (ch : BitVec 13) (seq : BitVec 4) (d : Drain) (s : State),
    s.tm.drains.find? (fun d => d.ch == ch.toNat && d.seq == seq.toNat) = some d → s.busyBelow d.kind d.node = false →
    exec (.tmDrainDone ch seq) s = .next ({ s with tm := { s.tm with
      drains := s.tm.drains.filter (fun x => !(x.ch == d.ch && x.seq == d.seq)) } }.finish (some (d.ch, d.seq)) 0 d.sent)) ∧
  (∀ (ch : BitVec 13) (seq : BitVec 4) (c : OpenCmd) (s : State), s.ready ch seq 0x43 c = true → c.imm ≤ 15 →
    exec (.tmFlush ch seq) s = .next ((s.flushNode c.imm 10).1.answered ch c 0 (s.flushNode c.imm 10).2)) ∧
  (∀ (ch : BitVec 13) (seq : BitVec 4) (c : OpenCmd) (p first k base : Nat) (s : State), s.ready ch seq 0x44 c = true →
    leAt c.args 0 1 = p → leAt c.args 4 2 = first → leAt c.args 6 2 = k → p < 8 → leAt c.args 1 3 = 0 → first + k ≤ 1024 →
    8 + 8 * k ≤ c.args.length → (∀ j < k, tmReserved 8 (slice c.args (8 + 8 * j) 8) = 0) → (s.gate p).pending = none →
    base = p * 2048 + (if (s.gate p).bank then 0 else 1024) + first →
    exec (.tgLoad ch seq) s = .next ((s.each (List.range k) (fun s j => s.tmPut 8 (base + j)
      (((List.range k).map (fun j => slice c.args (8 + 8 * j) 8)).getD j []))).answered ch c 0 0)) ∧
  (∀ (ch : BitVec 13) (seq : BitVec 4) (c : OpenCmd) (p : Nat) (s t : State), s.ready ch seq 0x45 c = true →
    leAt c.args 0 1 = p → p < 8 → leAt c.args 1 7 = 0 → leAt c.args 16 4 < 1073741824 → leAt c.args 20 2 < 2048 →
    t = (((s.wr (R.TM_TG_NEXT_BASE p) (BitVec.ofNat 64 (leAt c.args 8 8))).wr (R.TM_TG_NEXT_CYCLE p)
      (BitVec.ofNat 64 (leAt c.args 16 4))).wr (R.TM_TG_NEXT_LEN p) (BitVec.ofNat 64 (leAt c.args 20 2))).gateRequest p →
    exec (.tgSwitch ch seq) s = .next (t.answered ch c 0 ((t.rd (R.TM_TG_SWITCH_TIME p)).toNat % 4294967296))) ∧
  (∀ (ch : BitVec 13) (seq : BitVec 4) (c : OpenCmd) (s : State), s.ready ch seq 0x46 c = true → fld c.arg 22 10 = 0 →
    fld c.arg 37 11 = 0 →
    exec (.poolSet ch seq) s =
      .next ((s.wr (R.TM_POOL_LIMIT (fld c.arg 32 5)) (BitVec.ofNat 64 (fld c.arg 0 22))).answered ch c 0 0))

/-- A port in UP that loses alignment has the frame its port node just started sent cut short and counted, and the one
it receives dropped and counted, as the command says; it regains alignment and stays UP, or goes down after 10
microseconds with LINK_DOWN. Training and alignment complete while the line reference is there, and time out; LINK_UP
tells TRAIN_TRIES before clearing it. A pause runs out, PFC XOFF repeats above the threshold, and pre-FEC errors are
counted with the flag and its event. Losing the reference takes UP ports down. (R159, R160, R162, R164, R166, R168,
R169, R408) -/
def Obligations.LinePortStates : Prop :=
  (∀ (p : Fin 8) (cutTx cutRx : Bool) (s : State), (s.port p.val).st = .up → (s.port p.val).alignLost = false →
    ∃ t u, t = (if cutTx = true ∧ s.tmRuns = true then s.portSend p.val false true (s.queued + 1) else s) ∧
      u = (if cutRx then t.bump (R.LINE_DROP_CNT p.val 3) else t) ∧
      exec (.alignmentLoss p cutTx cutRx) s = .next (u.setPort p.val { u.port p.val with alignLost := true })) ∧
  (∀ (p : Fin 8) (s : State), (s.port p.val).st = .up → (s.port p.val).alignLost = true →
    exec (.alignmentRegained p) s = .next (s.setPort p.val { s.port p.val with alignLost := false }) ∧
    exec (.linkDown p) s = .next (s.leaveUp p.val (s.bringUp p.val) true)) ∧
  (∀ (p : Fin 8) (s : State), (s.port p.val).st = .training → s.clk.lineRef = true →
    exec (.trainingComplete p) s = .next (s.setPort p.val { s.port p.val with st := .aligning })) ∧
  (∀ (p : Fin 8) (s : State), (s.port p.val).st = .training →
    exec (.trainingTimeout p) s = .next (s.setPort p.val { s.port p.val with
      tries := if (s.port p.val).tries = 255 then 255 else (s.port p.val).tries + 1 })) ∧
  (∀ (p : Fin 8) (s : State), (s.port p.val).st = .aligning → s.clk.lineRef = true →
    exec (.linkUp p) s = .next ((s.setPort p.val { s.port p.val with st := .up, tries := 0, alignLost := false }).raise
      (0x180 + p.val) noFunc (s.port p.val).tries.toNat (s.rdf R.LINE_PORT_OPT 0 3))) ∧
  (∀ (p : Fin 8) (s : State), (s.port p.val).st = .aligning →
    exec (.alignTimeout p) s = .next (s.setPort p.val { s.port p.val with st := s.bringUp p.val })) ∧
  (∀ (p : Fin 8) (errors : Nat) (on : Bool) (s : State), on = decide ((s.rd R.LINE_FEC_THRESH).toNat < errors) →
    exec (.fecDegraded p errors) s =
      .next (((s.bumpN (R.LINE_FEC_SYM_CNT p.val) errors).setPort p.val { s.port p.val with fecDegraded := on }).if_
        (on && !(s.port p.val).fecDegraded) (fun s => s.raise (0x190 + p.val) noFunc errors 0))) ∧
  (∀ (p c : Fin 8) (s : State), exec (.pauseExpire p c) s = .next (s.setPort p.val { s.port p.val with
    paused := (List.range 8).map (fun t => if t = c.val ∨ s.flow p.val = 1 then 0 else (s.port p.val).paused.getD t 0) })) ∧
  (∀ (p c : Fin 8) (s : State), (s.port p.val).st = .up → s.flow p.val ≠ 0 → bit (s.port p.val).xoff c.val = true →
    s.rdf (R.LINE_PFC_THRESH p.val) 0 16 < s.flowCells p.val c.val →
    exec (.pfcRefresh p c) s = .next (s.sendPfc p.val c.val 0xFFFF)) ∧
  (∀ s : State, s.clk.lineRef = true → exec .lineRefLost s =
    .next (({ s with clk := { s.clk with lineRef := false } }.raise 0x782 noFunc 0 0).each (List.range 8) (fun s p =>
      if (s.port p).st = LinkSt.up then s.leaveUp p (s.bringUp p) true else s))) ∧
  (∀ s : State, exec .lineRefReturn s = .next { s with clk := { s.clk with lineRef := true } })

/-- At a port in UP, a frame with a bad check sequence, with a FEC error or received while alignment is lost, one under
60 bytes and one over the maximum are dropped and counted by reason; a pause frame acts; any other is counted, goes
through MACsec and enters. At a port that is not in UP no frame is received. A management frame of at most 16,383 bytes
with a good check sequence enters while that link is up; another is not passed on. (R162, R167, R387, R391) -/
def Obligations.LineFramesReceived : Prop :=
  (∀ (p : Fin 8) (frame : Bytes) (s : State), (s.port p.val).st = .up → p.val < s.portOpt.1 →
    (exec (.lineFrameReceive p frame false false) s = .next (s.bump (R.LINE_DROP_CNT p.val 0))) ∧
    (∀ ok, exec (.lineFrameReceive p frame ok true) s =
      .next ((s.bump (R.LINE_FEC_UNCORR_CNT p.val)).bump (R.LINE_DROP_CNT p.val 0))) ∧
    ((s.port p.val).alignLost = true →
      exec (.lineFrameReceive p frame true false) s = .next (s.bump (R.LINE_DROP_CNT p.val 0))) ∧
    ((s.port p.val).alignLost = false → frame.length < 60 →
      exec (.lineFrameReceive p frame true false) s = .next (s.bump (R.LINE_DROP_CNT p.val 1))) ∧
    ((s.port p.val).alignLost = false → 60 ≤ frame.length → s.maxFrame p.val < frame.length →
      exec (.lineFrameReceive p frame true false) s = .next (s.bump (R.LINE_DROP_CNT p.val 2))) ∧
    ((s.port p.val).alignLost = false → 60 ≤ frame.length → frame.length ≤ s.maxFrame p.val → isPause frame = true →
      exec (.lineFrameReceive p frame true false) s = .next (s.pauseFrame p.val frame)) ∧
    (∀ t, (s.port p.val).alignLost = false → 60 ≤ frame.length → frame.length ≤ s.maxFrame p.val → isPause frame = false →
      t = (s.bump (R.LINE_RX_PKT_CNT p.val)).bumpN (R.LINE_RX_BYTE_CNT p.val) frame.length →
      exec (.lineFrameReceive p frame true false) s = .next (match t.macsecRx p.val frame with
        | (u, .error r) => u.bump (R.CIPH_MACSEC_DROP_CNT p.val r)
        | (u, .ok f) => u.ingress f p.val 4 0 (some p.val)))) ∧
  (∀ (p : Fin 8) (frame : Bytes) (ok symErr : Bool) (s : State), (s.port p.val).st ≠ .up →
    exec (.lineFrameReceive p frame ok symErr) s = .next s) ∧
  (∀ (frame : Bytes) (s : State), s.line.mgmtUp = true → frame.length < 16384 →
    exec (.mgmtFrameReceive frame true) s = .next (s.ingress frame 8 8 1 none)) ∧
  (∀ (frame : Bytes) (ok : Bool) (s : State), (ok = false ∨ s.line.mgmtUp = false ∨ 16384 ≤ frame.length) →
    exec (.mgmtFrameReceive frame ok) s = .next s)

/-- PORT_OPTION, PORT_CFG, PFC_THRESH and MGMT_CFG apply arguments without reserved bits. The management link comes up
only while enabled. TIME_ADJUST sets the increment, a slew of at most 1,000,000 ns, a step to a time, or a step by an
offset. With PER_CLK running, the end of a slew leaves none: its rest is used up over the cycles it takes at 500 ppm,
each advancing the count by the increment. At a whole second the enabled PPS output goes high and, PULSE_NS later, low;
an edge at the enabled input is stamped. (R160, R166, R167, R170, R171, R174) -/
def Obligations.LineAndTimeCommands : Prop :=
  (∀ (ch : BitVec 13) (seq : BitVec 4) (c : OpenCmd) (s : State), s.ready ch seq 0x50 c = true → c.imm ≤ 7 →
    exec (.portOption ch seq) s = .next ((s.setPortOption c.imm).answered ch c 0 0)) ∧
  (∀ (ch : BitVec 13) (seq : BitVec 4) (c : OpenCmd) (s : State), s.ready ch seq 0x51 c = true → fld c.arg 35 13 = 0 →
    c.arg &&& 0x07FFC000 = 0 →
    exec (.portCfg ch seq) s =
      .next ((s.setPortCfg (fld c.arg 32 3) (BitVec.ofNat 64 (fld c.arg 0 32))).answered ch c 0 0)) ∧
  (∀ (ch : BitVec 13) (seq : BitVec 4) (c : OpenCmd) (s : State), s.ready ch seq 0x52 c = true → fld c.arg 35 13 = 0 →
    exec (.pfcThresh ch seq) s =
      .next ((s.setPfcThresh (fld c.arg 32 3) (BitVec.ofNat 64 (fld c.arg 0 32))).answered ch c 0 0)) ∧
  (∀ (ch : BitVec 13) (seq : BitVec 4) (c : OpenCmd) (s : State), s.ready ch seq 0x53 c = true → fld c.arg 32 16 = 0 →
    c.arg &&& 0x3FFFFFF0 = 0 →
    exec (.mgmtCfg ch seq) s = .next ((s.setMgmtCfg (BitVec.ofNat 64 (fld c.arg 0 32))).answered ch c 0 0)) ∧
  (∀ s : State, bit (s.rd R.LINE_MGMT_CFG) 31 = true → exec (.mgmtLink true) s = .next (s.setMgmt true)) ∧
  (∀ s : State, exec (.mgmtLink false) s = .next (s.setMgmt false)) ∧
  (∀ (ch : BitVec 13) (seq : BitVec 4) (c : OpenCmd) (v : Nat) (s : State), s.ready ch seq 0x54 c = true →
    leAt c.args 1 7 = 0 → leAt c.args 8 8 = v →
    (byteAt c.args 0 = 0 → v < 1099511627776 →
      exec (.timeIncrWrite ch seq) s = .next ((s.wr R.TIME_INCR (BitVec.ofNat 64 v)).answered ch c 0 0)) ∧
    (byteAt c.args 0 = 1 → -1000000 ≤ (BitVec.ofNat 64 v).toInt → (BitVec.ofNat 64 v).toInt ≤ 1000000 →
      exec (.timeSlew ch seq) s = .next ((s.setSlew (BitVec.ofNat 64 v).toInt).answered ch c 0 0)) ∧
    (byteAt c.args 0 = 2 →
      exec (.timeSetStep ch seq) s = .next (((s.wr R.TIME_SET (BitVec.ofNat 64 v)).applySet).answered ch c 0 0)) ∧
    (byteAt c.args 0 = 3 →
      exec (.timeOffsetStep ch seq) s = .next (((s.wr R.TIME_OFFSET (BitVec.ofNat 64 v)).applyOffset).answered ch c 0 0))) ∧
  (∀ (n : Nat) (s : State), bit s.clk.running 5 = true →
    n = ceilDiv s.line.slew.natAbs (s.timeIncr * 500 / 1000000) →
    exec .slewComplete s = .next { s with line := { s.line with
      now := s.line.now + BitVec.ofNat 96 (n * s.timeIncr) + BitVec.ofInt 96 s.line.slew, slew := 0 } }) ∧
  (∀ s : State, bit (s.rd R.TIME_PPS_CFG) 31 = true → s.rdf R.TIME_PPS_CFG 0 30 ≠ 0 →
    (s.now.toNat % 1000000000 ≤ 4 ∨ 999999996 ≤ s.now.toNat % 1000000000) →
    exec .ppsOut s = .next ((s.emit (.pps true s.now)).emit
      (.pps false (s.now + BitVec.ofNat 64 (s.rdf R.TIME_PPS_CFG 0 30))))) ∧
  (∀ s : State, bit (s.rd R.TIME_PPS_CFG) 30 = true →
    exec .ppsIn s = .next ((s.wr R.TIME_PPS_IN_TS s.now).raise 0x1A2 noFunc 0 0))

/-- Whenever a READY thread of a running engine issues one of these words below PC 16,383, the row of the table answers
a next state: the issue counted, dst holding the result of Tables 9-2 to 9-5 after its result cycles, the PC one
further, the engine's cycle at its end, and nothing else changed. Words whose b field must be 0 have it 0. Whenever a
thread issues an atomic whose a field names a shared register other than dst, that register takes the new value of Table
9-6, and dst the old one, in one step. ACAS compares with dst as it stood before. An atomic on a private register, or
with dst equal to a, retires the thread with ILLEGAL_OP and the word as DETAIL. (R201, R203, R204, R206, R207) -/
def Obligations.EngineArithmetic : Prop :=
  computes @Instr.thrAdd (isFn 0 0x00) (fun a b _ => a + b) ∧ computes @Instr.thrSub (isFn 0 0x01) (fun a b _ => a - b) ∧
  computes @Instr.thrAnd (isFn 0 0x02) (fun a b _ => a &&& b) ∧ computes @Instr.thrOr (isFn 0 0x03) (fun a b _ => a ||| b) ∧
  computes @Instr.thrXor (isFn 0 0x04) (fun a b _ => a ^^^ b) ∧
  computes @Instr.thrSll (isFn 0 0x05) (fun a b _ => a <<< (b.toNat % 64)) ∧
  computes @Instr.thrSrl (isFn 0 0x06) (fun a b _ => a >>> (b.toNat % 64)) ∧
  computes @Instr.thrSra (isFn 0 0x07) (fun a b _ => a.sshiftRight (b.toNat % 64)) ∧
  computes @Instr.thrSlt (isFn 0 0x08) (fun a b _ => if a.toInt < b.toInt then 1 else 0) ∧
  computes @Instr.thrSltu (isFn 0 0x09) (fun a b _ => if a.toNat < b.toNat then 1 else 0) ∧
  computesIn 3 @Instr.thrMul (isFn 0 0x0A) (fun a b _ => a * b) ∧
  computesIn 3 @Instr.thrMulhu (isFn 0 0x0B) (fun a b _ => BitVec.ofNat 64 (a.toNat * b.toNat / 2 ^ 64)) ∧
  computes @Instr.thrMin (isFn 0 0x0C) (fun a b _ => if a.toInt < b.toInt then a else b) ∧
  computes @Instr.thrMax (isFn 0 0x0D) (fun a b _ => if a.toInt < b.toInt then b else a) ∧
  computes @Instr.thrMinu (isFn 0 0x0E) (fun a b _ => if a.toNat < b.toNat then a else b) ∧
  computes @Instr.thrMaxu (isFn 0 0x0F) (fun a b _ => if a.toNat < b.toNat then b else a) ∧
  computes @Instr.thrSlli (isFn 0 0x10) (fun a _ n => a <<< n) ∧ computes @Instr.thrSrli (isFn 0 0x11) (fun a _ n => a >>> n) ∧
  computes @Instr.thrSrai (isFn 0 0x12) (fun a _ n => a.sshiftRight n) ∧
  (let bZero := fun (major fn : Nat) (w : Word) => isFn major fn w && iB w == 0
   computes @Instr.thrPopc (bZero 0 0x13) (fun a _ _ => BitVec.ofNat 64 ((List.range 64).filter (fun i => bit a i)).length) ∧
   computes @Instr.thrClz (bZero 0 0x14) (fun a _ _ => BitVec.ofNat 64 (leadingZeros a)) ∧
   computes @Instr.thrCtz (bZero 0 0x15) (fun a _ _ => BitVec.ofNat 64 (trailingZeros a)) ∧
   computes @Instr.thrBswap64 (bZero 0 0x16) (fun a _ _ => BitVec.ofNat 64 (beNat (leBytes 8 a.toNat))) ∧
   computes @Instr.thrBswap32 (bZero 0 0x17) (fun a _ _ => BitVec.ofNat 64 (beNat (leBytes 4 a.toNat))) ∧
   computes @Instr.thrBswap16 (bZero 0 0x18) (fun a _ _ => BitVec.ofNat 64 (beNat (leBytes 2 a.toNat))) ∧
   computes @Instr.thrFold16 (bZero 9 0x08) (fun a _ _ => BitVec.ofNat 64 (fld a 0 16 ^^^ fld a 16 16 ^^^ fld a 32 16 ^^^ fld a 48 16)) ∧
   computesIn 2 @Instr.thrMix16 (bZero 9 0x09) (fun a _ _ => BitVec.ofNat 64 (a.toNat * 0x9E37 % 65536))) ∧
  computesImm @Instr.thrAddi 0x01 (fun a i => a + i) ∧ computesImm @Instr.thrAndi 0x02 (fun a i => a &&& i) ∧
  computesImm @Instr.thrOri 0x03 (fun a i => a ||| i) ∧ computesImm @Instr.thrXori 0x04 (fun a i => a ^^^ i) ∧
  computesImm @Instr.thrSlti 0x05 (fun a i => if a.toInt < i.toInt then 1 else 0) ∧
  passes @Instr.thrMovi (fun w => iMajor w == 0x06)
    (fun s e t w => s.setReg e t (iDst w) ((BitVec.ofNat 20 (iImm20 w)).signExtend 64)) ∧
  passes @Instr.thrMovk (fun w => iMajor w == 0x07)
    (fun s e t w => s.setReg e t (iDst w) (s.reg e t (iDst w) <<< 20 ||| BitVec.ofNat 64 (iImm20 w))) ∧
  passes @Instr.thrBfx (fun w => iMajor w == 0x08 && fld w 0 2 == 0) (fun s e t w => s.setReg e t (iDst w)
    (BitVec.ofNat 64 (fld (s.reg e t (iA w)) (iB w) (min (fld w 2 6 + 1) (64 - iB w))))) ∧
  passes @Instr.thrBfxs (fun w => iMajor w == 0x08 && fld w 0 2 == 1) (fun s e t w =>
    let n := min (fld w 2 6 + 1) (64 - iB w)
    let x := fld (s.reg e t (iA w)) (iB w) n
    s.setReg e t (iDst w) (BitVec.ofInt 64 (if x < 2 ^ (n - 1) then (x : Int) else (x : Int) - 2 ^ n))) ∧
  passes @Instr.thrBfi (fun w => iMajor w == 0x08 && fld w 0 2 == 2) (fun s e t w => s.setReg e t (iDst w)
    (setFld (s.reg e t (iDst w)) (iB w) (min (fld w 2 6 + 1) (64 - iB w)) (s.reg e t (iA w)).toNat)) ∧
  (let crc := fun (poly : Word) (n : Nat) (a b : DWord) (_ : Nat) =>
     (crcFrom poly (a.setWidth 32) (leBytes n b.toNat)).setWidth 64
   computes @Instr.thrCrc32c8 (isFn 9 0) (crc 0x82F63B78 1) ∧ computes @Instr.thrCrc32c16 (isFn 9 1) (crc 0x82F63B78 2) ∧
   computes @Instr.thrCrc32c32 (isFn 9 2) (crc 0x82F63B78 4) ∧ computesIn 2 @Instr.thrCrc32c64 (isFn 9 3) (crc 0x82F63B78 8) ∧
   computes @Instr.thrCrc32e8 (isFn 9 4) (crc 0xEDB88320 1) ∧ computes @Instr.thrCrc32e16 (isFn 9 5) (crc 0xEDB88320 2) ∧
   computes @Instr.thrCrc32e32 (isFn 9 6) (crc 0xEDB88320 4) ∧ computesIn 2 @Instr.thrCrc32e64 (isFn 9 7) (crc 0xEDB88320 8)) ∧
  swaps @Instr.thrAadd 0 (fun o b _ => o + b) ∧ swaps @Instr.thrAand 1 (fun o b _ => o &&& b) ∧ swaps @Instr.thrAor 2 (fun o b _ => o ||| b) ∧
  swaps @Instr.thrAxor 3 (fun o b _ => o ^^^ b) ∧ swaps @Instr.thrAswap 4 (fun _ b _ => b) ∧
  swaps @Instr.thrAminu 5 (fun o b _ => if o.toNat < b.toNat then o else b) ∧
  swaps @Instr.thrAmaxu 6 (fun o b _ => if o.toNat < b.toNat then b else o) ∧
  swaps @Instr.thrAcas 7 (fun o b d => if o = d then b else o) ∧
  (∀ p ∈ ([(@Instr.thrAadd, 0), (@Instr.thrAand, 1), (@Instr.thrAor, 2), (@Instr.thrAxor, 3), (@Instr.thrAswap, 4), (@Instr.thrAminu, 5), (@Instr.thrAmaxu, 6),
      (@Instr.thrAcas, 7)] : List (ThrRow × _)), faultsWhen p.1 (isFn 0x0A p.2) (fun _ _ _ w => iA w < 32 ∨ iDst w = iA w) 1 (fun _ _ _ w => w.toNat))

/-- A load of 1, 2, 4 or 8 bytes at the aligned address a + imm14 inside local data memory writes them to dst
zero-extended, little-endian, after 2 result cycles; a store writes the low bytes of dst there. A corrected error of the
word read is counted in ENG_ECC_CORR_CNT, an uncorrectable one is the fault DMEM_UNCORR; a store of 8 bytes reads no
word. An access that reaches beyond byte 262,143 faults with DMEM_RANGE, one not aligned with MISALIGNED. A branch whose
comparison holds, and a jump, set the PC to their target, a link first; one that does not hold passes on; a branch
target outside 0 to 16,383 is IMEM_RANGE. (R195, R202, R204, R205) -/
def Obligations.EngineMemoryAndBranches : Prop :=
  (let at_ := fun (s : State) (e t : Nat) (w : Word) => (s.reg e t (iA w) + iImm14 w).toNat
   let fits := fun (s : State) (e t : Nat) (w : Word) (n : Nat) => at_ s e t w + n ≤ 262144 ∧ at_ s e t w % n = 0
   let ecc := fun (s : State) (e : Nat) (m : EngMem) => if m = .corrected then s.bump (R.ENG_ECC_CORR_CNT e) else s
   let rows := ([(@Instr.thrLdb, 0x10, 1), (@Instr.thrLdh, 0x11, 2), (@Instr.thrLdw, 0x12, 4), (@Instr.thrLdd, 0x13, 8),
     (@Instr.thrStb, 0x14, 1), (@Instr.thrSth, 0x15, 2), (@Instr.thrStw, 0x16, 4)] : List (ThrRow × _ × _))
   (∀ p ∈ rows.take 4, passesMem p.1 (fun w => iMajor w == p.2.1)
     (fun s e t w m => fits s e t w p.2.2 ∧ m ≠ .uncorrectable ∧ s.dmemBad e (at_ s e t w) p.2.2 = false)
     (fun s e t w m => (ecc s e m).setRegIn e t (iDst w) 2 (BitVec.ofNat 64 (leNat (s.dmem e (at_ s e t w) p.2.2))))) ∧
   (∀ p ∈ rows.drop 4, passesMem p.1 (fun w => iMajor w == p.2.1)
     (fun s e t w m => fits s e t w p.2.2 ∧ m ≠ .uncorrectable ∧ s.dmemBad e (at_ s e t w) p.2.2 = false)
     (fun s e t w m => (ecc s e m).setDmem e (at_ s e t w) (leBytes p.2.2 (s.reg e t (iDst w)).toNat))) ∧
   passesWhen @Instr.thrStd (fun w => iMajor w == 0x17) (fun s e t w => fits s e t w 8)
     (fun s e t w => s.setDmem e (at_ s e t w) (leBytes 8 (s.reg e t (iDst w)).toNat)) ∧
   (∀ p ∈ rows, faultsMem p.1 (fun w => iMajor w == p.2.1)
     (fun s e t w m => fits s e t w p.2.2 ∧ (m = .uncorrectable ∨ s.dmemBad e (at_ s e t w) p.2.2 = true)) 7 at_) ∧
   (∀ p ∈ rows ++ ([(@Instr.thrStd, 0x17, 8)] : List (ThrRow × _)),
     faultsWhen p.1 (fun w => iMajor w == p.2.1) (fun s e t w => 262144 < at_ s e t w + p.2.2) 3 at_ ∧
     faultsWhen p.1 (fun w => iMajor w == p.2.1) (fun s e t w => at_ s e t w + p.2.2 ≤ 262144 ∧ at_ s e t w % p.2.2 ≠ 0) 4 at_)) ∧
  (∀ p ∈ ([(@Instr.thrBeq, 0x18, fun (a b : DWord) => decide (a = b)), (@Instr.thrBne, 0x19, fun a b => decide (a ≠ b)),
      (@Instr.thrBlt, 0x1A, fun a b => decide (a.toInt < b.toInt)), (@Instr.thrBge, 0x1B, fun a b => decide (b.toInt ≤ a.toInt)),
      (@Instr.thrBltu, 0x1C, fun a b => decide (a.toNat < b.toNat)), (@Instr.thrBgeu, 0x1D, fun a b => decide (b.toNat ≤ a.toNat))] : List (ThrRow × _ × _)),
    ∀ (e : Fin 136) (t : Fin 8) (w : Word) (s : State) (m : EngMem) (goal : Int), s.issues e.val t.val w = true →
      iMajor w = p.2.1 → m ≠ .parity →
      goal = ((s.thr e.val t.val).pc.toNat : Int) + (BitVec.ofNat 14 (iDst w * 256 + iFn w)).toInt →
      (0 ≤ goal → goal ≤ 16383 → p.2.2 (s.reg e.val t.val (iA w)) (s.reg e.val t.val (iB w)) = true →
        exec (p.1 e t m) s = .next (((s.counted e.val t.val).setPc e.val t.val goal.toNat).endCycle e.val)) ∧
      (0 ≤ goal → goal ≤ 16383 → (s.thr e.val t.val).pc.toNat ≠ 16383 →
        p.2.2 (s.reg e.val t.val (iA w)) (s.reg e.val t.val (iB w)) = false →
        exec (p.1 e t m) s =
          .next (((s.counted e.val t.val).setPc e.val t.val ((s.thr e.val t.val).pc.toNat + 1)).endCycle e.val)) ∧
      (goal < 0 ∨ 16383 < goal → exec (p.1 e t m) s = .next (((s.counted e.val t.val).threadFault e.val t.val 2
        (BitVec.ofInt 34 goal).toNat).endCycle e.val))) ∧
  (∀ (e : Fin 136) (t : Fin 8) (w : Word) (s : State) (m : EngMem), s.issues e.val t.val w = true → m ≠ .parity →
    (iMajor w = 0x1E → fld w 14 5 = 0 →
      exec (.thrJal e t m) s = .next (((if bit w 19 then (s.counted e.val t.val).setReg e.val t.val (iDst w)
        (BitVec.ofNat 64 ((s.thr e.val t.val).pc.toNat + 1)) else s.counted e.val t.val).setPc e.val t.val
        (fld w 0 14)).endCycle e.val)) ∧
    (iMajor w = 0x1E → fld w 14 5 ≠ 0 →
      exec (.thrJal e t m) s = .next (((s.counted e.val t.val).threadFault e.val t.val 1 w.toNat).endCycle e.val)) ∧
    (iMajor w = 0x1F →
      exec (.thrJalr e t m) s = .next ((((s.counted e.val t.val).setReg e.val t.val (iDst w)
        (BitVec.ofNat 64 ((s.thr e.val t.val).pc.toNat + 1))).setPc e.val t.val
        ((s.reg e.val t.val (iA w) + iImm14 w).toNat % 16384)).endCycle e.val)))

/-- When a thread issues an instruction that does nothing but write its result to dst, dst reads as its result to the
thread itself; every other register of every thread and engine, and dst to the other threads while its result cycles
last, reads as the end of the cycle leaves it, which is as before where no shared-register write was waiting; local data
memory and HBM read as before, and every device register but the two counts of instructions, every other thread and
every channel is as before. The issue pointer stands one slot further, and the slot table in effect is the same, or at
the pointer's wrap the one ENG_SLOT_TABLE holds. (R179, R180, R201, R202, R203, R205, R207) -/
def Obligations.EngineRegisterFrame : Prop :=
  ∀ (row : ThrRow) (is : Word → Bool) (n : Nat) (f : State → Nat → Nat → Word → DWord),
    passes row is (fun s e t w => s.setRegIn e t (iDst w) n (f s e t w)) →
    ∀ (e : Fin 136) (t : Fin 8) (w : Word) (s u : State) (m : EngMem), s.issues e.val t.val w = true →
      (s.thr e.val t.val).pc.toNat ≠ 16383 → is w = true → m ≠ .parity → exec (row e t m) s = .next u →
      u.reg e.val t.val (iDst w) = f (s.counted e.val t.val) e.val t.val w ∧
      (∀ (e' : Fin 136) (t' : Fin 8) (r : Nat), r < 64 →
        (r ≠ iDst w ∨ e' ≠ e ∨ (t' ≠ t ∧ (r < 32 ∨ 1 < n))) →
        u.reg e'.val t'.val r = (s.endCycle e.val).reg e'.val t'.val r ∧
        (s.late e.val = [] → u.reg e'.val t'.val r = s.reg e'.val t'.val r)) ∧
      (∀ (e' : Fin 136) (x : Nat), u.dmem e'.val x 1 = s.dmem e'.val x 1) ∧
      (∀ x : Nat, u.hbmRead x 1 = s.hbmRead x 1) ∧
      (∀ x : Nat, x ≠ R.ENG_ISSUE_CNT e.val → x ≠ R.ENG_THR_INSTR_CNT e.val t.val → u.rd x = s.rd x) ∧
      (∀ (e' : Fin 136) (t' : Fin 8), (e' ≠ e ∨ t' ≠ t) → u.thr e'.val t'.val = s.thr e'.val t'.val) ∧
      (∀ (e' : Fin 136) (c : Fin 32), u.chan e'.val c.val = s.chan e'.val c.val) ∧
      u.issuePtr e.val = (s.issuePtr e.val + 1) % 16 ∧
      u.slotTable e.val = (if u.issuePtr e.val = 0 then s.rd (R.ENG_SLOT_TABLE e.val) else s.slotTable e.val)

/-- A cycle goes to the READY thread of the first slot from the pointer on; a row named for another thread does nothing,
and where no thread has the cycle it passes, counted in ENG_IDLE_CNT where none is READY. A word no row lists faults
with ILLEGAL_OP, a word of bad parity with IMEM_PARITY, whatever row is named, and an ADD at PC 16,383 with IMEM_RANGE.
The fault drops the thread's packets and its open message, leaves it RETIRED with no outstanding tag at the same PC,
records thread, code, PC and detail, and leaves every other thread and every channel as it was. (R179, R195, R203, R204,
R219) -/
def Obligations.EngineFaults : Prop :=
  (∀ (e : Fin 136) (t : Fin 8) (w : Word) (s : State) (m : EngMem) (pc : Nat), pc = (s.thr e.val t.val).pc.toNat →
    s.engClocked e.val = true →
    (∀ t' : Nat, s.turnThread e.val = some t' → t' ≠ t.val → ∀ row ∈ threadRows, exec (row e t m) s = .next s) ∧
    (s.turnThread e.val = none → (∀ t' < 8, (s.thr e.val t').st ≠ .ready) → ∀ row ∈ threadRows,
      exec (row e t m) s = .next ((s.bump (R.ENG_IDLE_CNT e.val)).endCycle e.val)) ∧
    (s.turnThread e.val = some t.val → s.imem e.val pc = w →
      (m = .parity ∨ e.val * 16384 + pc ∈ s.eng.badImem → ∀ row ∈ threadRows,
        exec (row e t m) s = .next (((s.counted e.val t.val).threadFault e.val t.val 6 pc).endCycle e.val)) ∧
      (m ≠ .parity → e.val * 16384 + pc ∉ s.eng.badImem → listed w = false → ∀ row ∈ threadRows,
        exec (row e t m) s = .next (((s.counted e.val t.val).threadFault e.val t.val 1 w.toNat).endCycle e.val)) ∧
      (m ≠ .parity → e.val * 16384 + pc ∉ s.eng.badImem → pc = 16383 → isFn 0 0 w = true →
        exec (.thrAdd e t m) s = .next (((s.counted e.val t.val).threadFault e.val t.val 2 16384).endCycle e.val)))) ∧
  (∀ (e : Fin 136) (t : Fin 8) (code detail : Nat) (s u : State), code < 256 → detail < 2 ^ 34 →
    u = s.threadFault e.val t.val code detail →
    (u.thr e.val t.val).st = .retired ∧ (u.thr e.val t.val).pc = (s.thr e.val t.val).pc ∧
    (u.thr e.val t.val).target = none ∧ (u.thr e.val t.val).staged = [] ∧ (u.thr e.val t.val).held = [] ∧
    (u.thr e.val t.val).outstanding = [] ∧
    u.rd (R.ENG_FAULT_INFO e.val) =
      BitVec.ofNat 64 (t.val * 2 ^ 61 + code * 2 ^ 48 + (s.thr e.val t.val).pc.toNat * 2 ^ 34 + detail) ∧
    u.rd (R.ENG_FAULT_TIME e.val) = s.now ∧
    (∀ (e' : Fin 136) (t' : Fin 8), (e' ≠ e ∨ t' ≠ t) → u.thr e'.val t'.val = s.thr e'.val t'.val) ∧
    (∀ (e' : Fin 136) (c : Fin 32), u.chan e'.val c.val = s.chan e'.val c.val))

/-- CHRD and CHRDNB of a bound channel of the thread's own take the next word and TS, and the last word of a packet
message brings its packet into a free slot; with 16 packets held that word stays and HOLD_FULL is set. An unbound
channel gives 0 and UNBOUND. With no word CHRD blocks and CHRDNB gives 0 and EMPTY. ORPHRD takes a tag word, then its
message's words. CHST stages a word of the open message; a commit within the engine enters whole or blocks in
BLOCKED_WRITE for room; one to another engine or the firmware goes to the Junction, or blocks while the Junction holds
the thread's previous message or the channel has no room; one to an engine not loaded is counted; CHABORT discards.
Another target while one is open faults with OPEN_MESSAGE, a scope that does not admit the thread with SCOPE. (R182,
R183, R185, R186, R193, R215, R216, R217, R218) -/
def Obligations.EngineChannels : Prop :=
  (∀ r ∈ ([(@Instr.thrChrd, 0x00), (@Instr.thrChrdnb, 0x20)] : List (ThrRow × _)),
    let is := fun (w : Word) => iMajor w == 0x20 && decide (r.2 ≤ iFn w) && decide (iFn w < r.2 + 0x20)
    let mine := fun (s : State) (e t c : Nat) => s.bindValid e c = true ∧ s.bindReader e c = t
    passesWhen r.1 is (fun s e t w => ¬ mine s e t (iFn w % 32))
      (fun s e t w => (s.setReg e t (iDst w) 0).setTs e t 1) ∧
    (∀ (e : Fin 136) (t : Fin 8) (w : Word) (s : State) (y : EngMem) (c : Nat) (m : Msg) (ms : List Msg) (x : DWord) (rest : List DWord),
      s.issues e.val t.val w = true → (s.thr e.val t.val).pc.toNat ≠ 16383 → is w = true → y ≠ .parity → c = iFn w % 32 →
      mine s e.val t.val c → s.chan e.val c = ⟨m :: ms, none⟩ → m.words = x :: rest →
      (rest ≠ [] ∨ m.pkt = none →
        exec (r.1 e t y) s = .next (((((((s.counted e.val t.val).setChan e.val c
          ⟨(if rest = [] then [] else [{ m with words := rest }]) ++ ms, none⟩).setReg e.val t.val (iDst w) x).setTs
          e.val t.val ((if rest.length + 1 = m.total then 4 else 0) + (if rest = [] then 8 else 0) +
            16 * m.total)).wakeWriters e.val c).setPc e.val t.val ((s.thr e.val t.val).pc.toNat + 1)).endCycle e.val)) ∧
      (∀ (p : Pkt) (k : Nat) (u : State), rest = [] → m.pkt = some p → (s.thr e.val t.val).freeSlots ≠ [] →
        (u, k) = (s.counted e.val t.val).intoSlot e.val t.val p →
        exec (r.1 e t y) s = .next (((((((u.bump (R.ENG_THR_PKT_IN_CNT e.val t.val)).setChan e.val c ⟨ms, none⟩).setReg
          e.val t.val (iDst w) x).setTs e.val t.val
          ((if m.total = 1 then 4 else 0) + 8 + 16 * m.total + 2048 + 4096 * k)).wakeWriters e.val c).setPc
          e.val t.val ((s.thr e.val t.val).pc.toNat + 1)).endCycle e.val)) ∧
      (∀ p : Pkt, rest = [] → m.pkt = some p → (s.thr e.val t.val).freeSlots = [] →
        exec (r.1 e t y) s = .next (((((s.counted e.val t.val).setReg e.val t.val (iDst w) 0).setTs e.val t.val 1024).setPc
          e.val t.val ((s.thr e.val t.val).pc.toNat + 1)).endCycle e.val)))) ∧
  blocksWhen @Instr.thrChrd (fun w => iMajor w == 0x20 && decide (iFn w < 0x20))
    (fun s e t w => s.bindValid e (iFn w) = true ∧ s.bindReader e (iFn w) = t ∧ (s.chan e (iFn w)).msgs = []) .blockedRead
    (fun _ _ _ w => (iFn w, .word)) ∧
  passesWhen @Instr.thrChrdnb (fun w => iMajor w == 0x20 && decide (0x20 ≤ iFn w) && decide (iFn w < 0x40))
    (fun s e t w => s.bindValid e (iFn w - 32) = true ∧ s.bindReader e (iFn w - 32) = t ∧ (s.chan e (iFn w - 32)).msgs = [])
    (fun s e t w => (s.setReg e t (iDst w) 0).setTs e t 2) ∧
  passesWhen @Instr.thrOrphrd (isFn 0x20 0x40) (fun s e _ _ => s.orphans e = [])
    (fun s e t w => (s.setReg e t (iDst w) 0).setTs e t 2) ∧
  (∀ (v : DWord) (m : Msg) (rest : List OrphMsg),
    passesWhen @Instr.thrOrphrd (isFn 0x20 0x40) (fun s e _ _ => s.orphans e = ⟨some v, m⟩ :: rest)
      (fun s e t w => ((s.setOrphans e (⟨none, m⟩ :: rest)).setReg e t (iDst w) v).setTs e t (512 + 16 * m.words.length))) ∧
  (∀ (x : DWord) (xs : List DWord) (m : Msg) (rest : List OrphMsg), m.words = x :: xs → (xs ≠ [] ∨ m.pkt = none) →
    passesWhen @Instr.thrOrphrd (isFn 0x20 0x40) (fun s e _ _ => s.orphans e = ⟨none, m⟩ :: rest)
      (fun s e t w => ((s.setOrphans e ((if xs = [] then [] else [⟨none, { m with words := xs }⟩]) ++ rest)).setReg e t
        (iDst w) x).setTs e t
        ((if xs.length + 1 = m.total then 4 else 0) + (if xs = [] then 8 else 0) + 16 * m.total))) ∧
  passes @Instr.thrChlvl (fun w => iMajor w == 0x20 && decide (0x60 ≤ iFn w) && decide (iFn w < 0x80))
    (fun s e t w => s.setReg e t (iDst w) (BitVec.ofNat 64 (((s.chan e (iFn w - 0x60)).msgs.map (fun m => m.words.length)).sum))) ∧
  (let st := fun (w : Word) => iMajor w == 0x20 && decide (0x80 ≤ iFn w) && decide (iFn w < 0x90)
   let cm := fun (w : Word) => iMajor w == 0x20 && decide (0xA0 ≤ iFn w) && decide (iFn w < 0xB0)
   let goal := fun (s : State) (e t : Nat) (w : Word) => (s.reg e t (iB w)).setWidth 13
   let free := fun (s : State) (e t : Nat) (w : Word) => (s.thr e t).target = none ∨ (s.thr e t).target = some (goal s e t w)
   let staged := fun (s : State) (e t k : Nat) (w : Word) => s.stageWord e t k (goal s e t w) (s.reg e t (iA w))
   let chan := fun (s : State) (e t : Nat) (w : Word) => fld (goal s e t w) 8 5
   let dest := fun (s : State) (e t : Nat) (w : Word) => s.eng.logical[fld (goal s e t w) 0 8]?
   let msg := fun (s : State) (e t : Nat) (w : Word) => ((staged s e t (iFn w - 0xA0) w).thr e t).message (iFn w - 0xA0)
   let waits := fun (s : State) (e t : Nat) => ∃ j ∈ s.eng.jct, j.fromEng = e ∧ j.fromThr = t
   let post := fun (s : State) (e t d : Nat) (w : Word) =>
     ({ staged s e t (iFn w - 0xA0) w with
       eng := { (staged s e t (iFn w - 0xA0) w).eng with
         jct := s.eng.jct ++ [⟨e, t, d, chan s e t w, msg s e t w⟩] } } : State).closeMsg e t
   passesWhen @Instr.thrChst st free (fun s e t w => staged s e t (iFn w - 0x80) w) ∧
   (∀ r ∈ ([(@Instr.thrChst, st), (@Instr.thrChcmt, cm)] : List (ThrRow × _)),
     faultsWhen r.1 r.2 (fun s e t w => ¬ free s e t w) 10 (fun s e t w => (goal s e t w).toNat)) ∧
   passesWhen @Instr.thrChcmt cm (fun s e t w => free s e t w ∧ fld (goal s e t w) 0 8 ≠ 255 ∧ dest s e t w = some e ∧
       s.admitsThread e e (chan s e t w) = true ∧ s.chanLoad e (chan s e t w) + (iFn w - 0xA0 + 1) ≤ 16)
     (fun s e t w => ((staged s e t (iFn w - 0xA0) w).intoChan e (chan s e t w) (msg s e t w)).closeMsg e t) ∧
   (∀ (e : Fin 136) (t : Fin 8) (w : Word) (s : State) (y : EngMem) (why : Await), s.issues e.val t.val w = true →
     (s.thr e.val t.val).pc.toNat ≠ 16383 → cm w = true → y ≠ .parity → free s e.val t.val w →
     ((fld (goal s e.val t.val w) 0 8 ≠ 255 ∧ dest s e.val t.val w = some e.val ∧
         s.admitsThread e.val e.val (chan s e.val t.val w) = true ∧
         16 < s.chanLoad e.val (chan s e.val t.val w) + (iFn w - 0xA0 + 1) ∧
         why = .room e.val (chan s e.val t.val w) (iFn w - 0xA0 + 1)) ∨
       (fld (goal s e.val t.val w) 0 8 = 255 ∧ waits s e.val t.val ∧ why = .junction) ∨
       (∃ d : Nat, fld (goal s e.val t.val w) 0 8 ≠ 255 ∧ dest s e.val t.val w = some d ∧ d ≠ e.val ∧
         s.admitsThread e.val d (chan s e.val t.val w) = true ∧
         ((waits s e.val t.val ∧ why = .junction) ∨
          (¬ waits s e.val t.val ∧ d ≠ 255 ∧ s.bindValid d (chan s e.val t.val w) = true ∧
            16 < s.chanLoad d (chan s e.val t.val w) + (iFn w - 0xA0 + 1) ∧
            why = .room d (chan s e.val t.val w) (iFn w - 0xA0 + 1))))) →
     exec (.thrChcmt e t y) s = .next (((staged (s.counted e.val t.val) e.val t.val (iFn w - 0xA0) w).blocked e.val t.val
       .blockedWrite (chan s e.val t.val w) why).endCycle e.val)) ∧
   (∀ d : Nat, passesWhen @Instr.thrChcmt cm (fun s e t w => free s e t w ∧ ¬ waits s e t ∧
       ((fld (goal s e t w) 0 8 = 255 ∧ d = 255) ∨ (fld (goal s e t w) 0 8 ≠ 255 ∧ dest s e t w = some d ∧ d ≠ e ∧
         s.admitsThread e d (chan s e t w) = true ∧
         (s.chanLoad d (chan s e t w) + (iFn w - 0xA0 + 1) ≤ 16 ∨ s.bindValid d (chan s e t w) = false))))
     (fun s e t w => post s e t d w)) ∧
   passesWhen @Instr.thrChcmt cm (fun s e t w => free s e t w ∧ fld (goal s e t w) 0 8 ≠ 255 ∧ dest s e t w = none)
     (fun s e t w => ((staged s e t (iFn w - 0xA0) w).bump R.JCT_UNBOUND_CNT).closeMsg e t) ∧
   (∀ d : Nat, faultsWhen @Instr.thrChcmt cm (fun s e t w => free s e t w ∧ fld (goal s e t w) 0 8 ≠ 255 ∧ dest s e t w = some d ∧
       s.admitsThread e d (chan s e t w) = false) 9 (fun s e t w => (goal s e t w).toNat))) ∧
  passesWhen @Instr.thrChabort (isFn 0x20 0xC0) (fun s e t _ => (s.thr e t).target ≠ none)
    (fun s e t _ => (s.bump (R.ENG_PARTIAL_DISCARD_CNT e)).closeMsg e t) ∧
  passesWhen @Instr.thrChabort (isFn 0x20 0xC0) (fun s e t _ => (s.thr e t).target = none) (fun s e t _ => s.closeMsg e t)

/-- SPRD reads a Signpost word of the packet in the slot register a names; SPWR changes only the RW bits of one. PKTTM,
PKTCW and PKTDROP free the slot, count the packet out and send it to the traffic manager, to a carriageway, or drop it
for reason 0 to 7. A slot register of 16 or more, or of an empty slot, faults with BAD_HANDLE, a reserved field with
ILLEGAL_OP. PKTNEW puts a new packet of zeros, with the current waymark, in a free slot, gives all ones for a bad length
or no cells, and faults with HOLD_LIMIT while 16 are held. (R190, R191, R195, R208, R209, R210) -/
def Obligations.EnginePackets : Prop :=
  (let slot := fun (s : State) (e t : Nat) (w : Word) => (s.reg e t (iA w)).toNat
   let holds := fun (s : State) (e t : Nat) (w : Word) (p : Pkt) => slot s e t w < 16 ∧ (s.thr e t).slot (slot s e t w) = some p
   let gone := fun (s : State) (e t : Nat) (w : Word) =>
     (s.updThr e t (fun x => x.setSlot (slot s e t w) none)).bump (R.ENG_THR_PKT_OUT_CNT e t)
   let rd := fun (w : Word) => iMajor w == 0x21 && decide (iFn w < 8)
   let wr := fun (w : Word) => iMajor w == 0x21 && decide (0x80 ≤ iFn w) && iDst w == 0
   (∀ r ∈ ([(@Instr.thrSprd, rd), (@Instr.thrSpwr, wr), (@Instr.thrPkttm, isFn 0x22 0),
       (@Instr.thrPktcw, fun w => isFn 0x22 1 w && decide (iB w < 2)), (@Instr.thrPktdrop, fun w => isFn 0x22 2 w && decide (iB w < 8)),
       (@Instr.thrPktrd, isFn 0x23 0), (@Instr.thrPktwr, isFn 0x23 1)] : List (ThrRow × _)),
     faultsWhen r.1 r.2 (fun s e t w => ∀ p, ¬ holds s e t w p) 5 slot) ∧
   (∀ p : Pkt,
     passesWhen @Instr.thrSprd rd (fun s e t w => holds s e t w p)
       (fun s e t w => s.setReg e t (iDst w) (BitVec.ofNat 64 (fld p.sp (64 * iFn w) 64))) ∧
     passesWhen @Instr.thrSpwr wr (fun s e t w => holds s e t w p) (fun s e t w =>
       s.updThr e t (fun x => x.setSlot (slot s e t w) (some { p with
         sp := (setFld p.sp (64 * (iFn w - 0x80)) 64 (s.reg e t (iB w)).toNat &&& spRw) ||| (p.sp &&& ~~~spRw) }))) ∧
     passesWhen @Instr.thrPkttm (isFn 0x22 0) (fun s e t w => holds s e t w p) (fun s e t w => ((gone s e t w).leave_ p).toTm p) ∧
     (∀ again : Bool, passesWhen @Instr.thrPktcw (isFn 0x22 1) (fun s e t w => iB w = b2n again ∧ holds s e t w p)
       (fun s e t w => (gone s e t w).toCway p again)) ∧
     passesWhen @Instr.thrPktdrop (isFn 0x22 2) (fun s e t w => iB w < 8 ∧ holds s e t w p)
       (fun s e t w => (gone s e t w).dropEarly p (R.ENG_PKT_DROP_CNT e (iB w)) 10 (iB w))) ∧
   (∀ r ∈ ([(@Instr.thrSpwr, fun w => iMajor w == 0x21 && decide (0x80 ≤ iFn w) && iDst w != 0),
       (@Instr.thrPktcw, fun w => isFn 0x22 1 w && decide (1 < iB w)), (@Instr.thrPktdrop, fun w => isFn 0x22 2 w && decide (7 < iB w))] : List (ThrRow × _)),
     faultsWhen r.1 r.2 (fun _ _ _ _ => True) 1 (fun _ _ _ w => w.toNat))) ∧
  faultsWhen @Instr.thrPktnew (isFn 0x22 3) (fun s e t _ => (s.thr e t).freeSlots = []) 11 (fun _ _ _ _ => 16) ∧
  passesWhen @Instr.thrPktnew (isFn 0x22 3) (fun s e t w => (s.thr e t).freeSlots ≠ [] ∧
      ((s.reg e t (iB w)).toNat < 14 ∨ 9600 < (s.reg e t (iB w)).toNat ∨
        s.cellsFor false < ceilDiv (s.reg e t (iB w)).toNat 256))
    (fun s e t w => (s.bump R.PBUF_ALLOC_FAIL_CNT).setReg e t (iDst w) (BitVec.allOnes 64)) ∧
  (∀ (e : Fin 136) (t : Fin 8) (w : Word) (s u v : State) (m : EngMem) (p q : Pkt) (k len : Nat),
    s.issues e.val t.val w = true → m ≠ .parity → (s.thr e.val t.val).pc.toNat ≠ 16383 → isFn 0x22 3 w = true → (s.thr e.val t.val).freeSlots ≠ [] →
    len = (s.reg e.val t.val (iB w)).toNat → 14 ≤ len → len ≤ 9600 → ceilDiv len 256 ≤ s.cellsFor false →
    (u, p) = (s.counted e.val t.val).newPkt (List.replicate len 0) 3 9 noFunc →
    q = { p with sp := spSets spReset [(SP.ORIGIN, 3), (SP.SRC_PORT, 9), (SP.PKT_LEN, len),
      (SP.WAYMARK, (s.gen s.liveSlot).waymark.toNat)] } →
    (v, k) = (u.takeCells p.cells).intoSlot e.val t.val q →
    exec (.thrPktnew e t m) s = .next (((v.setReg e.val t.val (iDst w) (BitVec.ofNat 64 k)).setPc e.val t.val
      ((s.thr e.val t.val).pc.toNat + 1)).endCycle e.val))

/-- A request with good addresses takes the lowest free tag and writes it to dst, or blocks in BLOCKED_MEM while all 8
are outstanding; PKTRD, HBMRD and LKUP read at issue, PKTWR and HBMWR have written their bytes. Bad offsets fault with
HBM_RANGE or MISALIGNED, and a source whose ECC fails with DMEM_UNCORR. A reply writes its data, sets the done bit with
its status, and wakes the thread where it is what the thread waits for: a free tag, a tag of its mask, or the last one
outstanding. WAIT takes the lowest done tag of the mask, blocks while one is outstanding, or gives all ones. FENCE waits
for none outstanding. NOP, END, TSTAT, TIME and SELF do what Table 9-12 says; fields they leave unused must be 0. (R177,
R178, R211, R212, R213, R214, R219) -/
def Obligations.EngineRequestsAndControl : Prop :=
  (let slot := fun (s : State) (e t : Nat) (w : Word) => (s.reg e t (iA w)).toNat
   let holds := fun (s : State) (e t : Nat) (w : Word) (p : Pkt) => slot s e t w < 16 ∧ (s.thr e t).slot (slot s e t w) = some p
   let b := fun (s : State) (e t : Nat) (w : Word) => s.reg e t (iB w)
   let ecc := fun (s : State) (e : Nat) (m : EngMem) => if m = .corrected then s.bump (R.ENG_ECC_CORR_CNT e) else s
   let good := fun (s : State) (e a n : Nat) (m : EngMem) => m ≠ .uncorrectable ∧ s.dmemBad e a n = false
   let fits := fun (a n align : Nat) => a + n ≤ 262144 ∧ a % align = 0
   let tag := fun (s : State) (e t k : Nat) => k < 8 ∧ ((s.thr e t).tag k).req = none ∧
     ∀ j, j < k → ((s.thr e t).tag j).req ≠ none
   let full := fun (s : State) (e t : Nat) => ∀ k, k < 8 → ((s.thr e t).tag k).req ≠ none
   let ask := fun (s : State) (e t k dst : Nat) (r : EngReq) =>
     (s.updThr e t (fun x => x.setTag k { x.tag k with req := some r, done := false })).setReg e t dst (BitVec.ofNat 64 k)
   let pkt := fun (s : State) (e t : Nat) (w : Word) (a off len : Nat) =>
     a = fld (b s e t w) 0 18 ∧ off = fld (b s e t w) 18 14 ∧ len = fld (b s e t w) 32 6 + 1
   (∀ (p : Pkt) (k a off len : Nat) (st : Status), st = (if p.bytes.length < off + len then 0x1050 else 0) →
     passesWhen @Instr.thrPktrd (isFn 0x23 0) (fun s e t w => holds s e t w p ∧ pkt s e t w a off len ∧ fits a len 8 ∧ tag s e t k)
       (fun s e t w => ask s e t k (iDst w) ⟨0, a, padTo len (slice p.bytes off len), st, 0, 0, 0, [], false⟩) ∧
     blocksWhen @Instr.thrPktrd (isFn 0x23 0) (fun s e t w => holds s e t w p ∧ pkt s e t w a off len ∧ fits a len 8 ∧ full s e t)
       .blockedMem (fun _ _ _ _ => (0, .tag)) ∧
     passesMem @Instr.thrPktwr (isFn 0x23 1) (fun s e t w m => holds s e t w p ∧ pkt s e t w a off len ∧ fits a len 8 ∧
         good s e a len m ∧ tag s e t k)
       (fun s e t w m => ask ((ecc s e m).updThr e t (fun x => x.setSlot (slot s e t w)
         (some { p with bytes := patch p.bytes off (s.dmem e a len) }))) e t k (iDst w) ⟨1, a, [], st, 0, 0, 0, [], false⟩) ∧
     blocksMem @Instr.thrPktwr (isFn 0x23 1) (fun s e t w m => holds s e t w p ∧ pkt s e t w a off len ∧ fits a len 8 ∧
       good s e a len m ∧ full s e t) .blockedMem (fun _ _ _ _ => (0, .tag)) ∧
     faultsMem @Instr.thrPktwr (isFn 0x23 1) (fun s e t w m => holds s e t w p ∧ pkt s e t w a off len ∧ fits a len 8 ∧
       ¬ good s e a len m) 7 (fun _ _ _ _ => a)) ∧
   (∀ k h a : Nat,
     passesWhen @Instr.thrHbmrd (isFn 0x23 2) (fun s e t w => engHbm e (slot s e t w) = some h ∧ slot s e t w % 64 = 0 ∧
         a = fld (b s e t w) 0 18 ∧ fits a 64 64 ∧ tag s e t k)
       (fun s e t w => ask s e t k (iDst w) ⟨2, a, s.hbmRead h 64, 0, h, 0, 0, [], false⟩) ∧
     passesMem @Instr.thrHbmwr (isFn 0x23 3) (fun s e t w m => engHbm e (slot s e t w) = some h ∧ slot s e t w % 64 = 0 ∧
         a = fld (b s e t w) 0 18 ∧ fits a 64 64 ∧ good s e a 64 m ∧ tag s e t k)
       (fun s e t w m => ask ((ecc s e m).hbmPut h (s.dmem e a 64)) e t k (iDst w) ⟨3, a, [], 0, h, 0, 0, [], false⟩)) ∧
   (∀ r ∈ ([(@Instr.thrHbmrd, 2), (@Instr.thrHbmwr, 3)] : List (ThrRow × _)),
     blocksMem r.1 (isFn 0x23 r.2) (fun s e t w m => engHbm e (slot s e t w) ≠ none ∧ slot s e t w % 64 = 0 ∧
       fits (fld (b s e t w) 0 18) 64 64 ∧ (r.2 = 3 → good s e (fld (b s e t w) 0 18) 64 m) ∧ full s e t) .blockedMem
       (fun _ _ _ _ => (0, .tag))) ∧
   faultsMem @Instr.thrHbmwr (isFn 0x23 3) (fun s e t w m => engHbm e (slot s e t w) ≠ none ∧ slot s e t w % 64 = 0 ∧
     fits (fld (b s e t w) 0 18) 64 64 ∧ ¬ good s e (fld (b s e t w) 0 18) 64 m) 7 (fun s e t w => fld (b s e t w) 0 18) ∧
   (∀ r ∈ ([(@Instr.thrHbmrd, 2), (@Instr.thrHbmwr, 3)] : List (ThrRow × _)),
     faultsWhen r.1 (isFn 0x23 r.2) (fun s e t w => engHbm e (slot s e t w) = none) 8 slot ∧
     faultsWhen r.1 (isFn 0x23 r.2) (fun s e t w => engHbm e (slot s e t w) ≠ none ∧ slot s e t w % 64 ≠ 0) 4 slot) ∧
   (∀ (k kind inst key n reply : Nat) (notouch : Bool), n = lkupKeyLen kind → 1 ≤ kind → kind ≤ 7 →
     passesMem @Instr.thrLkup (isFn 0x23 4) (fun s e t w m => key = slot s e t w ∧ kind = fld (b s e t w) 18 4 ∧
         reply = fld (b s e t w) 0 18 ∧ notouch = bit (b s e t w) 29 ∧ fits key n 8 ∧ fits reply 40 8 ∧
         good s e key n m ∧ ((s.thr e t).held = [] ∨ (2 < kind ∧ (s.thr e t).slot (fld (b s e t w) 25 4) = none)) ∧
         inst = fld (b s e t w) 22 3 ∧ tag s e t k)
       (fun s e t w m => ask (ecc s e m) e t k (iDst w) ⟨4, reply, [], 0, 0, kind, inst, s.dmem e key n, notouch⟩) ∧
     (∀ p : Pkt, passesMem @Instr.thrLkup (isFn 0x23 4) (fun s e t w m => key = slot s e t w ∧ kind = fld (b s e t w) 18 4 ∧
         reply = fld (b s e t w) 0 18 ∧ notouch = bit (b s e t w) 29 ∧ fits key n 8 ∧ fits reply 40 8 ∧
         good s e key n m ∧ (s.thr e t).held ≠ [] ∧ (s.thr e t).slot (fld (b s e t w) 25 4) = some p ∧
         inst = spGet p.sp SP.CWAY ∧ tag s e t k)
       (fun s e t w m => ask (ecc s e m) e t k (iDst w) ⟨4, reply, [], 0, 0, kind, inst, s.dmem e key n, notouch⟩)) ∧
     blocksMem @Instr.thrLkup (isFn 0x23 4) (fun s e t w m => key = slot s e t w ∧ kind = fld (b s e t w) 18 4 ∧
         reply = fld (b s e t w) 0 18 ∧ fits key n 8 ∧ fits reply 40 8 ∧ good s e key n m ∧
         ((s.thr e t).held = [] ∨ 2 < kind ∨ (s.thr e t).slot (fld (b s e t w) 25 4) ≠ none) ∧ full s e t)
       .blockedMem (fun _ _ _ _ => (0, .tag)) ∧
     faultsMem @Instr.thrLkup (isFn 0x23 4) (fun s e t w m => key = slot s e t w ∧ kind = fld (b s e t w) 18 4 ∧
         reply = fld (b s e t w) 0 18 ∧ fits key n 8 ∧ fits reply 40 8 ∧ ¬ good s e key n m) 7 (fun _ _ _ _ => key)) ∧
   faultsMem @Instr.thrLkup (isFn 0x23 4) (fun s e t w m => (fld (b s e t w) 18 4 = 1 ∨ fld (b s e t w) 18 4 = 2) ∧
       fits (slot s e t w) (if fld (b s e t w) 18 4 = 1 then 40 else 8) 8 ∧ fits (fld (b s e t w) 0 18) 40 8 ∧
       good s e (slot s e t w) (if fld (b s e t w) 18 4 = 1 then 40 else 8) m ∧ (s.thr e t).held ≠ [] ∧
       (s.thr e t).slot (fld (b s e t w) 25 4) = none) 5 (fun s e t w => fld (b s e t w) 25 4) ∧
   faultsWhen @Instr.thrLkup (isFn 0x23 4) (fun s e t w => fld (b s e t w) 18 4 = 0 ∨ 7 < fld (b s e t w) 18 4) 1
     (fun _ _ _ w => w.toNat) ∧
   (∀ (e : Fin 136) (t k : Fin 8) (bad : Bool) (r : EngReq) (s u v : State) (data : Bytes) (st : Status),
     ((s.thr e.val t.val).tag k.val).req = some r → (u, data, st) = s.replyOf r bad →
     v = (u.setDmem e.val r.laddr data).updThr e.val t.val (fun x => x.setTag k.val ⟨none, true, st⟩) →
     (let awaited : Prop := (v.thr e.val t.val).st = .blockedMem ∧
       ((v.thr e.val t.val).awaits = .tag ∨
        (∃ mask, (v.thr e.val t.val).awaits = .mask mask ∧ bit mask k.val = true) ∨
        ((v.thr e.val t.val).awaits = .all ∧ ∀ j, j < 8 → ((v.thr e.val t.val).tag j).req = none))
      (awaited → exec (.requestReply e t k bad) s = .next (v.wake e.val t.val)) ∧
      (¬ awaited → exec (.requestReply e t k bad) s = .next v))) ∧
   (let is := fun (w : Word) => iMajor w == 0x24 && iB w == 0 && iFn w == 0
    let asked := fun (s : State) (e t : Nat) (w : Word) (k : Nat) => k < 8 ∧ bit (s.reg e t (iA w)) k = true
    (∀ k : Nat, passesWhen @Instr.thrWait is (fun s e t w => asked s e t w k ∧ ((s.thr e t).tag k).done = true ∧
        ∀ j, j < k → asked s e t w j → ((s.thr e t).tag j).done = false)
      (fun s e t w => (s.updThr e t (fun x => x.setTag k { x.tag k with done := false })).setReg e t (iDst w)
        (BitVec.ofNat 64 (k * 65536 + ((s.thr e t).tag k).status.toNat)))) ∧
    blocksWhen @Instr.thrWait is (fun s e t w => (∀ k, asked s e t w k → ((s.thr e t).tag k).done = false) ∧
      ∃ k, asked s e t w k ∧ ((s.thr e t).tag k).req ≠ none) .blockedMem (fun s e t w => (0, .mask (s.reg e t (iA w)))) ∧
    passesWhen @Instr.thrWait is (fun s e t w => ∀ k, asked s e t w k → ((s.thr e t).tag k).done = false ∧
        ((s.thr e t).tag k).req = none)
      (fun s e t w => s.setReg e t (iDst w) (BitVec.allOnes 64)))) ∧
  (let plain := fun (fn : Nat) (w : Word) => isFn 0x25 fn w && fld w 8 18 == 0
   let writes := fun (fn : Nat) (w : Word) => isFn 0x25 fn w && fld w 8 12 == 0
   passes @Instr.thrNop (plain 0) (fun s _ _ _ => s) ∧
   (∀ (e : Fin 136) (t : Fin 8) (w : Word) (s : State) (m : EngMem), s.issues e.val t.val w = true → m ≠ .parity →
     plain 1 w = true → (s.thr e.val t.val).pc.toNat ≠ 16383 →
     exec (.thrEnd e t m) s = .next ((((s.counted e.val t.val).dropHeld e.val t.val).1.updThr e.val t.val
       (fun x => { x with st := .ended, tags := [] })).endCycle e.val)) ∧
   passesWhen @Instr.thrFence (plain 2) (fun s e t _ => ∀ k, k < 8 → ((s.thr e t).tag k).req = none) (fun s _ _ _ => s) ∧
   blocksWhen @Instr.thrFence (plain 2) (fun s e t _ => ∃ k, k < 8 ∧ ((s.thr e t).tag k).req ≠ none) .blockedMem
     (fun _ _ _ _ => (0, .all)) ∧
   passes @Instr.thrTstat (writes 3) (fun s e t w => s.setReg e t (iDst w) (s.thr e t).ts) ∧
   passes @Instr.thrTime (writes 4) (fun s e t w => s.setRegIn e t (iDst w) 4 s.now) ∧
   (∀ l : Nat, passesWhen @Instr.thrSelf (writes 5) (fun s e _ _ => s.eng.logical[l]? = some e ∧ l < 256 ∧
       ∀ j, j < l → s.eng.logical[j]? ≠ some e)
     (fun s e t w => s.setReg e t (iDst w) (BitVec.ofNat 64 (e * 65536 + l * 256 + t)))) ∧
   (∀ r ∈ ([(@Instr.thrNop, fun w => isFn 0x25 0 w && fld w 8 18 != 0), (@Instr.thrEnd, fun w => isFn 0x25 1 w && fld w 8 18 != 0),
       (@Instr.thrFence, fun w => isFn 0x25 2 w && fld w 8 18 != 0), (@Instr.thrTstat, fun w => isFn 0x25 3 w && fld w 8 12 != 0),
       (@Instr.thrTime, fun w => isFn 0x25 4 w && fld w 8 12 != 0), (@Instr.thrSelf, fun w => isFn 0x25 5 w && fld w 8 12 != 0),
       (@Instr.thrWait, fun w => iMajor w == 0x24 && (iB w != 0 || iFn w != 0))] : List (ThrRow × _)),
     faultsWhen r.1 r.2 (fun _ _ _ _ => True) 1 (fun _ _ _ w => w.toNat)))

/-- The Junction delivers the oldest message that can be handed over, to the firmware, into its channel, or to nobody
where the channel is not bound, and its writer goes on. The oldest packet of a class goes as a 9-word message to the
member that dispatch chooses, and the turn moves on. A waiting change of binding takes effect. An engine all of whose
live threads wait on LOCAL channels raises ENG_STALL once, counted, timed and with every thread's snapshot. (R183, R185,
R186, R188, R192, R194) -/
def Obligations.JunctionAndStalls : Prop :=
  (∀ (a b : List JMsg) (j : JMsg) (s t u : State), s.jctRuns = true → s.eng.jct = a ++ j :: b →
    (∀ x ∈ a, s.jctCan x = false) → s.jctCan j = true →
    t = ({ s with eng := { s.eng with jct := a ++ b } } : State).bump R.JCT_MSG_CNT →
    u = (if j.toEng = 255 then
        { t with
          eng := { t.eng with fwInbox := t.eng.fwInbox ++ [j.msg.words] } }
      else t.jctPut j.toEng j.toCh j.msg) →
    exec .junctionDeliver s =
      .next (if (u.thr j.fromEng j.fromThr).st = .blockedWrite ∧ (u.thr j.fromEng j.fromThr).awaits = .junction then
        u.wake j.fromEng j.fromThr else u)) ∧
  (∀ (c : Fin 64) (p : Pkt) (source m e ch : Nat) (rest : List (Pkt × Nat)) (s t : State), s.jctRuns = true →
    s.classQueue c.val = (p, source) :: rest → s.chooseMember c.val p = some m → s.member m = some (e, ch) →
    t = { s.setClassQueue c.val rest with
      eng := { (s.setClassQueue c.val rest).eng with classTurn := mapSet (fun _ => 0) s.eng.classTurn c.val (m + 1) } } →
    exec (.classDispatch c) s = .next (((t.bump (R.JCT_CLASS_PKT_CNT c.val)).bump R.JCT_MSG_CNT).jctPut e ch
      ⟨BitVec.ofNat 64 (p.handle % 2 ^ 32 * 2 ^ 32 + c.val * 2 ^ 26 + source * 2 ^ 23) ::
        (List.range 8).map (fun k => BitVec.ofNat 64 (fld p.sp (64 * k) 64)), 9, some p⟩)) ∧
  (∀ (e c : Nat) (m : Msg) (s : State),
    (s.bindValid e c = true → s.jctPut e c m =
      (s.setChan e c { s.chan e c with msgs := (s.chan e c).msgs ++ [m] }).wakeReaders e c) ∧
    (s.bindValid e c = false → m.pkt = none → s.jctPut e c m = s.bump R.JCT_UNBOUND_CNT) ∧
    (∀ p, s.bindValid e c = false → m.pkt = some p →
      s.jctPut e c m = (s.bump R.JCT_UNBOUND_CNT).dropEarly p (R.ENG_PKT_DROP_CNT e 10) 10 10)) ∧
  (∀ (e : Fin 136) (c : Fin 32) (v : Word) (s : State), (s.chan e.val c.val).rebind = some v →
    exec (.channelRebind e c) s = .next (s.rebind e.val c.val v)) ∧
  (∀ (e : Fin 136) (s t u : State), mapGet (fun _ => true) s.eng.armed e.val = true → s.stalled e.val = true →
    t = s.each (List.range 8) (fun s k => s.wr (R.ENG_STALL_SNAP e.val k) (s.stallSnap e.val k)) →
    u = (({ t with eng := { t.eng with armed := mapSet (fun _ => true) t.eng.armed e.val false } } : State).bump
      (R.ENG_STALL_CNT e.val)).wr (R.ENG_STALL_TIME e.val) t.now →
    exec (.engStall e) s = .next (u.raise (0x400 + e.val) noFunc (((u.liveThreads e.val).map (fun k => 2 ^ k)).sum)
      (((List.range 8).map (fun k => (u.thr e.val k).held.length)).sum)))

/-- BUNDLE_LOAD of a well-formed bundle onto idle engines in service loads each engine, binds the channels, lays out the
classes, measures the bundle into slot 8, raises BUNDLE_LOADED, starts the engines (the model's choice, log entry 98)
and answers how many; a bad bundle, too few engines or a busy one is refused and no engine changes. A function's bundle
is first read from its host, which the load waits for while no tag is free. ENG_RUN sets the bits of a range,
THREAD_RESTART retires the thread and restarts it, answering the packets dropped, ENG_MAP lists logical engines, and
CLASS_CFG writes a class and its members. (R187, R195, R196, R197, R198) -/
def Obligations.EngineCommands : Prop :=
  (∀ (ch : BitVec 13) (seq : BitVec 4) (c : OpenCmd) (r : ReadEnd) (data b : Bytes) (phys : List Nat) (q s t u v w : State),
    q.ready ch seq 0x58 c = true →
    (isFuncCh ch.toNat = false ∨ (q.hostStop ch.toNat = none ∧ q.canRead ch.toNat = true ∧ r = .cpl .ok)) →
    s = (if isFuncCh ch.toNat then q.readNow ch.toNat none (BitVec.ofNat 64 (leAt c.args 0 8)) (leAt c.args 8 4) r else q) →
    b = padTo (leAt c.args 8 4) data →
    (bundleOk b = false → exec (.bundleLoad ch seq r data) q = .next (s.answered ch c 0x1040 0)) ∧
    (bundleOk b = true → s.inService.length < (bundleAt b).engines →
      exec (.bundleLoad ch seq r data) q = .next (s.answered ch c 0x3041 0)) ∧
    (bundleOk b = true → (bundleAt b).engines ≤ s.inService.length → phys = s.inService.take (bundleAt b).engines →
      ((∃ e ∈ phys, s.engIdle e = false) →
        exec (.bundleLoad ch seq r data) q = .next (s.answered ch c 0x3040 0)) ∧
      ((∀ e ∈ phys, s.engIdle e = true) →
        t = s.each (List.range (bundleAt b).engines) (fun s j => s.loadEngine (phys.getD j 0) b
          (slice b (64 + 48 * leAt b ((bundleAt b).placeOff + 2 * j) 2) 48)) →
        u = t.each (List.range (bundleAt b).bindings) (fun s k =>
          s.wr (R.ENG_CH_BIND (phys.getD (leAt b ((bundleAt b).bindOff + 4 * k) 1) 0)
              (leAt b ((bundleAt b).bindOff + 4 * k + 1) 1))
            (BitVec.ofNat 64 (2 ^ 31 + leAt b ((bundleAt b).bindOff + 4 * k + 2) 1 % 4 * 2 ^ 29 +
              leAt b ((bundleAt b).bindOff + 4 * k + 2) 1 / 4 * 2 ^ 26))) →
        v = u.loadClasses b (bundleAt b) phys (bundleAt b).classes 0 0 →
        w = ({ v with
          eng := { v.eng with logical := phys } } : State).extend 8 none none (Config.sha384 (b.take (bundleAt b).length)) →
        exec (.bundleLoad ch seq r data) q =
          .next (((w.raise 0x514 noFunc (bundleAt b).engines 0).each phys (fun s e => s.setRun e true)).answered ch c 0
            (bundleAt b).engines)))) ∧
  (∀ (ch : BitVec 13) (seq : BitVec 4) (c : OpenCmd) (r : ReadEnd) (data : Bytes) (st : Status) (s : State),
    s.ready ch seq 0x58 c = true → isFuncCh ch.toNat = true →
    (s.hostStop ch.toNat = some st → exec (.bundleLoad ch seq r data) s = .next (s.answered ch c st 0)) ∧
    (s.hostStop ch.toNat = none → s.canRead ch.toNat = false → exec (.bundleLoad ch seq r data) s = .next s)) ∧
  (∀ (ch : BitVec 13) (seq : BitVec 4) (c : OpenCmd) (s : State), s.ready ch seq 0x59 c = true → fld c.arg 17 31 = 0 →
    fld c.arg 0 8 + fld c.arg 8 8 ≤ s.eng.logical.length →
    exec (.engRun ch seq) s = .next ((s.each ((s.eng.logical.drop (fld c.arg 0 8)).take (fld c.arg 8 8))
      (fun s e => s.setRun e (bit c.arg 16))).answered ch c 0 0)) ∧
  (∀ (ch : BitVec 13) (seq : BitVec 4) (c : OpenCmd) (e t n : Nat) (s u v : State), s.ready ch seq 0x5A c = true →
    fld c.arg 11 37 = 0 → t = fld c.arg 8 3 → s.eng.logical[fld c.arg 0 8]? = some e → (s.thr e t).st ≠ .unloaded →
    (u, n) = (s.wake e t).retire e t → v = u.updThr e t (fun x => { x with st := .stopped, started := false }) →
    exec (.threadRestart ch seq) s = .next ((if v.engRun e then v.startThread e t else v).answered ch c 0 n)) ∧
  (∀ (ch : BitVec 13) (seq : BitVec 4) (c : OpenCmd) (out : Bytes) (s : State), s.ready ch seq 0x5B c = true →
    out = (List.range 136).flatMap (fun l => leBytes 2 (s.eng.logical.getD l 0xFFFF)) → out.length ≤ outSpace ch.toNat c →
    exec (.engMap ch seq) s = .next (s.answeredOut ch c out)) ∧
  (∀ (ch : BitVec 13) (seq : BitVec 4) (c : OpenCmd) (v : DWord) (n base : Nat) (ms : List DWord) (s : State),
    s.ready ch seq 0x5C c = true → v = BitVec.ofNat 64 (leAt c.args 8 8) → n = fld v 10 11 → base = fld v 0 10 →
    (c.version = 1 → n ≤ 60) → leAt c.args 0 1 ≤ 63 → leAt c.args 1 7 = 0 → v &&& 0x3FFF8000FFE00000 = 0 → n ≤ 1024 →
    16 + 4 * n ≤ c.args.length → ms = (List.range n).map (fun k => BitVec.ofNat 64 (leAt c.args (16 + 4 * k) 4)) →
    (∀ m ∈ ms, m &&& 0x7FFF00E0 = 0) →
    exec (.classCfg ch seq) s = .next (((s.wr (R.JCT_CLASS_CFG (leAt c.args 0 1)) v).each (List.range n) (fun s k =>
      if base + k < 1024 then s.wr (R.JCT_MEMBER (base + k)) (ms.getD k 0) else s)).answered ch c 0 0)) ∧
  (∀ (e : Fin 136) (b : Bool) (s : State), (s.role e.val ≠ 0 → s.setRun e.val b = s) ∧
    (s.engRun e.val = b → s.setRun e.val b = s)) ∧
  (∀ (e t : Nat) (s : State), (s.thr e t).st = .stopped →
    ((s.thr e t).started = true → s.runThread e t = s.setThr e t { s.thr e t with st := .ready }) ∧
    ((s.thr e t).started = false → s.runThread e t = s.startThread e t))

/-- A link leaves DL_Up at HOST_LINK_DOWN, at the loss of its reference and at a settled PME_Turn_Off. A link in no
reset with its reference trains to a speed and width it supports, latches the PF map and releases its functions, raising
HOST_LINK_DEGRADED below its best. CFG_READY is set while the firmware runs. L0p takes a width no wider than the trained
one, from the partner or, while L0P_INIT is 1, of the device. L1, or a substate of it, is entered from L0 or L0p where
ASPM allows it, and left to them. LINK_CFG keeps CFG_READY, and refuses reserved bits and a link that is not there.
(R220, R221, R225, R249, R250, R251, R252, R408, R483, R484) -/
def Obligations.HostLinks : Prop :=
  (∀ (k : Fin 4) (s : State), (s.link k.val).dlUp = true → exec (.hostLinkDown k) s = .next (s.linkDown k.val .detect)) ∧
  (∀ (k : Fin 4) (speed : BitVec 3) (width : BitVec 5) (flit : Bool) (tagBits : Nat) (s t u v : State),
    s.linkThere k.val = true → (s.link k.val).dlUp = false → (s.link k.val).perst = false → (s.link k.val).st ≠ .reset →
    bit s.clk.hostRef (k.val / 2) = true → 1 ≤ speed.toNat → speed.toNat ≤ s.maxSpeed k.val → width.toNat ∈ [1, 2, 4, 8, 16] →
    width.toNat ≤ s.lanes k.val → (speed.toNat = 6 → flit = true) →
    t = (s.latchMap k.val).setLink k.val ⟨.l0, speed, width, width, flit, true, 0, false, min tagBits 14, 0⟩ →
    u = t.each (s.fnsOf k.val ++ (t.fnsOf k.val).filter (fun f => !(f ∈ s.fnsOf k.val))) (fun s f => s.fnRelease f) →
    v = u.raise (0x000 + k.val) noFunc width.toNat speed.toNat →
    exec (.hostLinkUp k speed width flit tagBits) s = .next (if speed.toNat < v.maxSpeed k.val ∨ width.toNat < v.lanes k.val
      then v.raise (0x008 + k.val) noFunc width.toNat speed.toNat else v)) ∧
  (∀ (k : Fin 4) (s : State), s.linkThere k.val = true → ((s.link k.val).perst = true ∨ (s.link k.val).st = .reset) →
    exec (.perstRelease k) s = .next (s.setLink k.val { s.link k.val with perst := false, st :=
      if (s.link k.val).st = HLinkSt.reset ∧ s.inReset = false ∧ s.blockHeld 1 = false then .detect else (s.link k.val).st })) ∧
  (∀ (n : Fin 2) (s : State), bit s.clk.hostRef n.val = true →
    exec (.hostRefLost n) s = .next (({ s with
      clk := { s.clk with hostRef := setBit s.clk.hostRef n.val false } }.raise (0x783 + n.val) noFunc 0 0).each
        [2 * n.val, 2 * n.val + 1] (fun s k => if (s.link k).dlUp then s.linkDown k .detect else s))) ∧
  (∀ (n : Fin 2) (s : State), exec (.hostRefReturn n) s =
    .next { s with clk := { s.clk with hostRef := setBit s.clk.hostRef n.val true } }) ∧
  (∀ (k : Fin 4) (s : State), (s.link k.val).dlUp = true → (s.kite.fw = .running ∨
      (k.val = 0 ∧ (s.kite.fw = .recovery ∨ (s.kite.fw = .booting ∧ s.boot.pushFrom = some 2)))) →
    exec (.cfgReadySet k) s = .next (s.wrf (R.HIU_LINK_CFG k.val) 0 1 1)) ∧
  (∀ (k : Fin 4) (s t : State), (s.link k.val).dlUp = true →
    t = ({ s with hiu := { s.hiu with turnOff := s.hiu.turnOff.filter (· ≠ k.val) ++ [k.val] } } : State).each
      (s.fnsOf k.val) (fun s f => s.stopReads f 0x2060) →
    exec (.pmeTurnOff k) s =
      .next (if t.turnOffDue k.val then (t.emit (.pmeToAck k.val)).linkDown k.val .detect else t)) ∧
  (∀ (k : Fin 4) (width : BitVec 5) (own : Bool) (s : State), (own = true → bit (s.rd (R.HIU_LINK_CFG k.val)) 31 = true) →
    ((s.link k.val).st = .l0 ∨ (s.link k.val).st = .l0p) →
    (s.link k.val).speed = 6 → (s.link k.val).flit = true → width.toNat ∈ [2, 4, 8, 16] →
    width.toNat ≤ (s.link k.val).full.toNat →
    exec (.l0pRequest k width own) s = .next (s.setLink k.val { s.link k.val with
      width := width, st := if width = (s.link k.val).full then .l0 else .l0p })) ∧
  (∀ (k : Fin 4) (sub : Fin 3) (s : State), ((s.link k.val).st = .l0 ∨ (s.link k.val).st = .l0p) →
    s.aspmOn k.val sub.val = true →
    exec (.aspmL1Entry k sub) s = .next ((s.emit (.l1Request k.val)).setLink k.val { s.link k.val with
      st := .l1, l1sub := BitVec.ofNat 2 sub.val })) ∧
  (∀ (k : Fin 4) (s : State), (s.link k.val).st = .l1 →
    exec (.aspmL1Exit k) s = .next (s.setLink k.val { s.link k.val with
      st := if (s.link k.val).width = (s.link k.val).full then .l0 else .l0p, l1sub := 0 })) ∧
  (∀ (ch : BitVec 13) (seq : BitVec 4) (c : OpenCmd) (k : Nat) (s : State), s.ready ch seq 0x62 c = true →
    fld c.arg 34 14 = 0 → c.arg &&& 0x78FFFFFF = 0 → k = fld c.arg 32 2 → s.linkThere k = true →
    exec (.linkCfg ch seq) s = .next ((s.wr (R.HIU_LINK_CFG k) (BitVec.ofNat 64
      ((s.rd (R.HIU_LINK_CFG k)).toNat % 2 + fld c.arg 0 32))).answered ch c 0 0)) ∧
  (∀ (ch : BitVec 13) (seq : BitVec 4) (c : OpenCmd) (s : State), s.ready ch seq 0x62 c = true →
    (fld c.arg 34 14 ≠ 0 ∨ c.arg &&& 0x78FFFFFF ≠ 0 ∨ s.linkThere (fld c.arg 32 2) = false) →
    exec (.linkCfg ch seq) s = .next (s.answered ch c 0x1082 0))

/-- Configuration of a function that answers clears or sets Bus Master Enable, begins an FLR, or changes its power
state. An FLR falls silent and ends, raising FLR_DONE. A completion is taken for the request under its tag, or is late;
a timeout fails the request and holds its tag; a held tag returns to use. An index read ends with the index. An ATS
invalidation drops cached pages and completes. An IDE fault makes a stream Insecure, zeroises its keys and fails some of
its requests; which, and which TLPs of a link with an Insecure stream are discarded, is left open. (R230, R232, R233,
R237, R238, R239, R240, R245, R247, R304, R481) -/
def Obligations.HostFunctions : Prop :=
  (∀ (f : Fin 4104) (s : State), s.cfgAnswers f.val = true →
    exec (.bmeClear f) s = .next (s.bmeClear f.val) ∧ exec (.bmeSet f) s = .next (s.bmeSet f.val) ∧
    exec (.flrInitiate f) s = .next (s.flrStart f.val) ∧ exec (.d3hotEntry f) s = .next (s.d3Enter f.val) ∧
    exec (.d0Return f) s = .next (s.d0Return f.val)) ∧
  (∀ (f : Fin 4104) (s t u : State) (ns ms : Nat), (s.fn f.val).flr = true → (s.fn f.val).portReset = false →
    exec (.flrQuietPoint f) s = .next (s.flrSilent f.val) ∧
    (t = s.flrSilent f.val →
      u = t.each ((s.resetGroup f.val).filter (fun g => (s.fn g).flr && !(s.fn g).portReset))
        (fun s g => s.updFn g (fun h => { h with flr := false })) →
      ns = (u.now - (s.fn f.val).flrAt).toNat → ms = ns / 1000000 + (if ns % 1000000 = 0 then 0 else fld u.fresh 0 1) →
      exec (.flrDone f) s = .next (u.drew.raise 0x013 f.val 0 (min 65535 ms)))) ∧
  (∀ (k : Fin 4) (f : Fin 4104) (tag : Fin 16384) (cpl : CplStatus) (data : Bytes) (t : HTag) (s : State),
    (s.link k.val).dlUp = true →
    (s.outTag k.val tag.val = some t → t.req.func = f.val →
      exec (.completionReceive k f tag cpl data) s =
        .next (s.tlp k.val (fun s => (s.cplTaken t cpl data).turnOffDone k.val))) ∧
    (s.outTag k.val tag.val = some t → t.req.func ≠ f.val →
      exec (.completionReceive k f tag cpl data) s = .next (s.tlp k.val (fun s => s.lateCpl k.val f.val tag.val))) ∧
    (s.outTag k.val tag.val = none →
      exec (.completionReceive k f tag cpl data) s = .next (s.tlp k.val (fun s => s.lateCpl k.val f.val tag.val)))) ∧
  (∀ (k : Nat) (g : State → State) (s : State),
    ((∀ i, i < 4 → mapGet (fun _ => 0) s.hiu.ide (k * 4 + i) ≠ 2) → s.tlp k g = g s) ∧
    ((∃ i, i < 4 ∧ mapGet (fun _ => 0) s.hiu.ide (k * 4 + i) = 2) → s.tlp k g = if bit s.fresh 0 then s.drew else g s.drew)) ∧
  (∀ (k : Fin 4) (tag : Fin 16384) (t : HTag) (s u : State) (held : HTag → HTag), s.outTag k.val tag.val = some t →
    held = (fun x => if x.link = k.val ∧ x.tag = tag.val then { x with
      quarUntil := some (s.now + BitVec.ofNat 64 (s.quarNs t.req.func)), req := { x.req with owner := DmaOwner.gone } } else x) →
    u = { s with hiu := { s.hiu with tags := s.hiu.tags.map held } } →
    exec (.completionTimeout k tag) s = .next (((((u.bump (R.HIU_TIMEOUT_CNT k.val)).aerUncorr t.req.func 14).raise 0x010
      t.req.func tag.val 0x4060).ownerFailed t.req.owner 0x4060).turnOffDone k.val)) ∧
  (∀ (k : Fin 4) (tag : Fin 16384) (t : HTag) (s : State), t ∈ s.hiu.tags → t.link = k.val → t.tag = tag.val →
    t.quarUntil ≠ none → exec (.tagRelease k tag) s = .next (s.dropTag k.val tag.val)) ∧
  (∀ (r : BitVec 20) (cpl : CplStatus) (idx : BitVec 16) (t : HTag) (s : State), s.tagOf (.indexRead r.toNat) = some t →
    exec (.indexReadComplete r cpl idx) s = .next (s.tlp t.link (fun v => ((v.cplTaken t cpl
      (if ctxType (s.ring r.toNat).ctx < 2 then leBytes 2 idx.toNat
       else List.replicate 8 0 ++ leBytes 2 idx.toNat)).ctxPump).turnOffDone t.link))) ∧
  (∀ (k : Fin 4) (f : Fin 4104) (pasid : Option (BitVec 20)) (page : BitVec 52) (count : Nat) (itag : BitVec 5) (s : State)
    (keep : AtcEntry → Bool), (s.link k.val).dlUp = true → s.fnLink f.val = k.val →
    keep = (fun e => decide (¬ (e.func = f.val ∧ e.pasid = pasid ∧ page.toNat ≤ e.page.toNat ∧
      e.page.toNat < page.toNat + count))) →
    exec (.atsInvalidate k f pasid page count itag) s =
      .next (({ s with hiu := { s.hiu with atc := s.hiu.atc.filter keep } }.bump (R.HIU_ATC_INVAL_CNT k.val)).emit
        (.invalidated f.val itag.toNat))) ∧
  (∀ (k stream : Fin 4) (s t : State), mapGet (fun _ => 0) s.hiu.ide (k.val * 4 + stream.val) = 1 →
    t = { s with hiu := { s.hiu with
      ide := mapSet (fun _ => 0) s.hiu.ide (k.val * 4 + stream.val) 2
      ideKey := mapKeep (fun x => x / 16 != k.val * 4 + stream.val) s.hiu.ideKey
      ideGo := mapKeep (fun x => x / 16 != k.val * 4 + stream.val) s.hiu.ideGo } } →
    exec (.ideFault k stream) s = .next (((t.drew.each
      (s.hiu.tags.filter (fun x => x.link == k.val && x.quarUntil.isNone && bit s.fresh (x.tag % 512)))
      (fun s x => (s.dropTag x.link x.tag).ownerFailed x.req.owner 0x4064)).bump (R.HIU_IDE_FAIL_CNT k.val)).raise 0x015
      noFunc (k.val * 4 + stream.val) 0x4064))

/-- A configuration request to a function that answers reads its register, bits the spec leaves to PCIe free, or writes
it; one that does not yet answer gets RRS, one to no function Unsupported Request. Unused offsets read 0 and are
counted. Writing ASSERTED clears INTx and its count. A peer window open for the access reads or writes HBM at its target
and changes no other byte; a shut one refuses. A commit that PEER_WINDOW asks for and that is refused leaves the shadow
as it was. A commit moves every masked window at once, or none, and its commands wait for BUSY; a region of whole 1 MiB
blocks apart from every other is set, after the windows that point into the old one are disabled. (R225, R227, R234,
R241, R242, R243, R397, R400) -/
def Obligations.HostConfigAndWindows : Prop :=
  (∀ (f : Fin 4104) (w : Bool) (reg : CfgReg) (v : Word) (s : State), (s.link (s.fnLink f.val)).dlUp = true →
    (s.exists_ f.val = false → exec (.configRequest f w reg v) s = .next (s.emit (.completion f.val 1 []))) ∧
    (s.exists_ f.val = true → s.cfgAnswers f.val = false →
      exec (.configRequest f w reg v) s = .next (s.emit (.completion f.val 2 []))) ∧
    (s.cfgAnswers f.val = true → exec (.configRequest f true reg v) s =
      .next ((s.emit (.completion f.val 0 [])).cfgWrite f.val reg v)) ∧
    (∀ x known : Nat, s.cfgAnswers f.val = true → (x, known) = s.cfgRead f.val reg →
      exec (.configRequest f false reg v) s = .next (s.drew.emit (.completion f.val 0
        (leBytes 4 ((x &&& known) ||| (fld s.fresh 0 32 ^^^ (fld s.fresh 0 32 &&& known)))))))) ∧
  (∀ (f : Fin 4104) (s : State), s.barOpen f.val = true →
    exec (.barUnusedAccess f true) s = .next (s.bump R.HIU_BAD_ACCESS_CNT) ∧
    exec (.barUnusedAccess f false) s =
      .next ((s.bump R.HIU_BAD_ACCESS_CNT).emit (.completion f.val 0 [0, 0, 0, 0]))) ∧
  (∀ (f : Fin 4104) (v : Word) (s : State), s.barOpen f.val = true →
    (f.val < 8 → bit v 0 = true →
      exec (.fctlIntxStatus f v) s = .next (s.updIntx f.val (fun h => { h with intxAsserted := false, intxCount := 0 }))) ∧
    (f.val < 8 → bit v 0 = false → exec (.fctlIntxStatus f v) s = .next s) ∧
    (8 ≤ f.val → exec (.fctlIntxStatus f v) s = .next (s.bump R.HIU_BAD_ACCESS_CNT))) ∧
  (∀ (f : Fin 8) (off len a : Nat) (data : Bytes) (w : DWord) (s : State), s.barOpen f.val = true → off < 8388608 → 0 < len →
    off % 1048576 % 4096 + len ≤ 4096 → w = s.rd (R.HIU_PEER_WIN_ACTIVE f.val (off / 1048576)) →
    a = fld w 20 17 * 1048576 + off % 1048576 →
    (bit w 63 = true → bit w 61 = true → ∀ p, exec (.peerRequest f true off len data p) s =
      .next (s.hbmPut a (padTo len data))) ∧
    (bit w 63 = true → bit w 62 = true →
      exec (.peerRequest f false off len data false) s = .next (s.emit (.completion f.val 0 (s.hbmRead a len))) ∧
      exec (.peerRequest f false off len data true) s =
        .next ((s.hbmUncorr a 11).emit (.completion f.val 16 (s.hbmRead a len)))) ∧
    (bit w 63 = false ∨ bit w 61 = false → ∀ p, exec (.peerRequest f true off len data p) s =
      .next (s.bump (R.HIU_INBOUND_DISCARD_CNT (s.fnLink f.val)))) ∧
    (bit w 63 = false ∨ bit w 62 = false → ∀ p, exec (.peerRequest f false off len data p) s =
      .next ((s.bump (R.HIU_INBOUND_DISCARD_CNT (s.fnLink f.val))).emit (.completion f.val 1 [])))) ∧
  (∀ (a len x : Nat) (data : Bytes) (s : State), (x < a ∨ a + len ≤ x) →
    (s.hbmPut a (padTo len data)).hbmRead x 1 = s.hbmRead x 1) ∧
  (∀ (v : Word) (s : State), exec (.windowCommit v) s = .next (s.winCommit (fld v 8 3) (fld v 0 8)).1) ∧
  (∀ (p mask : Nat) (ws : List Nat) (s : State), ws = (List.range 8).filter (fun w => mask.testBit w) →
    ((∃ w ∈ ws, s.inRegion p (s.rd (R.HIU_PEER_WIN_SHADOW p w)) = false) →
      s.winCommit p mask = ({ s with hiu := { s.hiu with winRefused := true } }, false)) ∧
    ((∀ w ∈ ws, s.inRegion p (s.rd (R.HIU_PEER_WIN_SHADOW p w)) = true) → ∀ t : State,
      t = s.each ws (fun s w => s.wr (R.HIU_PEER_WIN_ACTIVE p w) (s.rd (R.HIU_PEER_WIN_SHADOW p w))) →
      s.winCommit p mask = (({ t with
        hiu := { t.hiu with winRefused := false, winBusy := true } }.bump R.HIU_WIN_SWITCH_CNT).raise 0x014 p p mask, true))) ∧
  (∀ s : State, s.hiu.winBusy = true →
    exec .windowDrained s = .next ({ s with hiu := { s.hiu with winBusy := false } }.winAnswer)) ∧
  (∀ (ch : BitVec 13) (seq : BitVec 4) (c : OpenCmd) (p w : Nat) (s t u : State) (ok : Bool), s.ready ch seq 0x60 c = true →
    p = fld c.arg 23 3 → w = fld c.arg 20 3 → fld c.arg 26 22 = 0 → (p = ch.toNat ∨ ch.toNat = s.manager) →
    t = s.wr (R.HIU_PEER_WIN_SHADOW p w) (BitVec.ofNat 64 (fld c.arg 17 3 * 2 ^ 61 + fld c.arg 0 17 * 2 ^ 20)) →
    (u, ok) = t.winCommit p (2 ^ w) →
    exec (.peerWindow ch seq) s = .next (if ok then u.markWaiting ch.toNat seq
      else (u.wr (R.HIU_PEER_WIN_SHADOW p w) (s.rd (R.HIU_PEER_WIN_SHADOW p w))).answered ch c 0x2081 0)) ∧
  (∀ (ch : BitVec 13) (seq : BitVec 4) (c : OpenCmd) (b : Bytes) (p base n mask : Nat) (mine : List Nat) (s u : State)
    (set : State → State), s.ready ch seq 0x61 c = true →
    b = padTo 24 c.args → p = leAt b 0 1 → base = leAt b 8 8 → n = leAt b 16 8 → p ≤ 7 → leAt b 1 7 = 0 →
    (n ≠ 0 → base % 1048576 = 0 ∧ n % 1048576 = 0 ∧ 0x800000000 ≤ base ∧ base + n ≤ 0x800000000 + 39 * 1073741824 ∧
      ∀ q, q < 8 → q ≠ p → (s.peerRegion q).2 = 0 ∨ (s.peerRegion q).1 + (s.peerRegion q).2 ≤ base ∨
        base + n ≤ (s.peerRegion q).1) →
    mine = (List.range 8).filter (fun w => bit (s.rd (R.HIU_PEER_WIN_ACTIVE p w)) 63 &&
      s.inRegion p (s.rd (R.HIU_PEER_WIN_ACTIVE p w))) →
    mask = (mine.map (fun w => 2 ^ w)).sum →
    set = (fun v => { v with hiu := { v.hiu with peer := mapSet (fun _ => (0, 0)) v.hiu.peer p (base, n) } }) →
    u = s.each mine (fun v w => v.wrf (R.HIU_PEER_WIN_SHADOW p w) 63 1 0) →
    (s.peerRegion p = (base, n) ∨ mine = [] → exec (.peerRegionSet ch seq) s = .next ((set s).answered ch c 0 0)) ∧
    (s.peerRegion p ≠ (base, n) → mine ≠ [] →
      exec (.peerRegionSet ch seq) s = .next ((set (u.winCommit p mask).1).markWaiting ch.toNat seq)))

/-- A creation whose request passes the checks and whose resources can be granted creates the instance, scrubbed; one
that fails a check is refused with its status, one whose resource runs out with that resource. Each instance command
moves the instance from the states of R260; from any other, and for a function that is not there, it is refused and
counted. A quiesce holds rings and leaves and is answered when nothing is outstanding; at its limit what is left is
aborted. Removal scrubs the instance, and its end returns every resource. SET_TOTALVFS, TABLE_GRANT and INST_INFO act on
arguments in range and refuse the others, and FNM_IND reads and writes allocation records, the latter only of an ABSENT
instance. (R254, R256, R257, R259, R260, R261, R262, R263, R264, R486, R504) -/
def Obligations.InstanceLife : Prop :=
  (∀ (ch : BitVec 13) (seq : BitVec 4) (c : OpenCmd) (b q : Bytes) (f persona : Nat) (s : State), s.ready ch seq 0x10 c = true →
    b = padTo 72 c.args → f = leAt b 0 2 → persona = leAt b 2 1 → q = slice b 8 64 → (∀ x ∈ slice b 3 5, x = 0) → f ≤ 0x1007 →
    requestOk q persona = true → s.hasFunc f = true → persona ≤ 1 → (s.inst f).st = .absent →
    (8 ≤ f → (s.inst ((s.fnPf f).getD f)).st ≠ .absent ∧ (s.inst ((s.fnPf f).getD f)).persona = persona) →
    (∀ (a : Alloc) (t : State), s.draw (Alloc.ofBytes q).rounded = .ok a →
      t = (((s.setInst f { Inst.absent with st := .created, persona := persona, alloc := a }).scrubNodes f).irqReset f).classesOff a →
      exec (.instCreate ch seq) s = .next (((t.bump R.FNM_CREATE_CNT).raise 0x040 f persona 0).answered ch c 0 0)) ∧
    (∀ r : Nat, s.draw (Alloc.ofBytes q).rounded = .error r → exec (.instCreate ch seq) s =
      .next (((s.bump R.FNM_REFUSED_CNT).raise 0x046 f r 0x3070).answered ch c 0x3070 r))) ∧
  (∀ (ch : BitVec 13) (seq : BitVec 4) (c : OpenCmd) (b : Bytes) (f persona : Nat) (pf : Inst) (good : Prop) (s : State)
    (no : Status → Res), s.ready ch seq 0x10 c = true →
    b = padTo 72 c.args → f = leAt b 0 2 → persona = leAt b 2 1 → pf = s.inst ((s.fnPf f).getD f) →
    good = ((∀ x ∈ slice b 3 5, x = 0) ∧ f ≤ 0x1007 ∧ requestOk (slice b 8 64) persona = true ∧ s.hasFunc f = true) →
    no = (fun st => .next (((s.bump R.FNM_REFUSED_CNT).raise 0x046 f 0 st.toNat).answered ch c st 0)) →
    (¬ good → exec (.instCreate ch seq) s = no 0x1082) ∧ (good → 1 < persona → exec (.instCreate ch seq) s = no 0x1070) ∧
    (good → persona ≤ 1 → ((s.inst f).st ≠ .absent ∨ (8 ≤ f ∧ pf.st = .absent)) → exec (.instCreate ch seq) s = no 0x3071) ∧
    (good → persona ≤ 1 → (s.inst f).st = .absent → 8 ≤ f → pf.st ≠ .absent → pf.persona ≠ persona →
      exec (.instCreate ch seq) s = no 0x1070)) ∧
  (∀ r ∈ [(0x11, Instr.instEnable, [InstSt.created]), (0x12, .instQuiesce, [.active]), (0x13, .instResume, [.quiesced]),
      (0x14, .instReset, [.active, .quiesced]), (0x15, .instRemove, [.created, .quiesced, .detached])],
    ∀ (ch : BitVec 13) (seq : BitVec 4) (c : OpenCmd) (s : State), s.ready ch seq r.1 c = true →
    (0x1007 < c.imm → exec (r.2.1 ch seq) s = .next ((s.bump R.FNM_REFUSED_CNT).answered ch c 0x1082 0)) ∧
    (c.imm ≤ 0x1007 → (s.inst c.imm).st ∉ r.2.2 → exec (r.2.1 ch seq) s = .next ((s.bump R.FNM_REFUSED_CNT).answered ch c
      (if r.1 = 0x15 ∧ (s.inst c.imm).st ∈ [.active, .quiescing] then 0x3072 else 0x3073) 0))) ∧
  (∀ (ch : BitVec 13) (seq : BitVec 4) (c : OpenCmd) (f : Nat) (s : State), f = c.imm → f ≤ 0x1007 →
    (s.ready ch seq 0x11 c = true →
      (s.inst f).st = .created → exec (.instEnable ch seq) s = .next ((s.instActive f).answered ch c 0 0)) ∧
    (s.ready ch seq 0x12 c = true → (s.inst f).st = .active → exec (.instQuiesce ch seq) s =
      .next ((((s.updInst f (fun i => { i with
        st := .quiescing, atQuiesce := s.outstandingOf f, aborted := 0
        resetting := false, waiter := some (ch.toNat, seq.toNat) })).holdRings f).stopLeaves f).markWaiting ch.toNat seq)) ∧
    (s.ready ch seq 0x13 c = true → (s.inst f).st = .quiesced → exec (.instResume ch seq) s =
      .next (((s.resumeLeaves f).instActive f).answered ch c 0 0)) ∧
    (s.ready ch seq 0x14 c = true → ((s.inst f).st = .active ∨ (s.inst f).st = .quiesced) → exec (.instReset ch seq) s =
      .next (((((s.updInst f (fun i => { i with
        st := .quiescing, atQuiesce := s.outstandingOf f, aborted := s.outstandingOf f
        resetting := true, waiter := some (ch.toNat, seq.toNat) })).endWork f false).stopLeaves f).irqReset f).markWaiting
        ch.toNat seq)) ∧
    (s.ready ch seq 0x15 c = true →
      (∀ t u v w : State, (s.inst f).st ∈ [.created, .quiesced, .detached] →
        t = s.updInst f (fun i => { i with
          st := .removing, since := s.now, waiter := some (ch.toNat, seq.toNat), savedEnable := [] }) →
        u = ((t.saAbandon f).sinksOff f).endWork f true →
        v = ((u.scrubNodes f).irqReset f).classesOff (u.inst f).alloc →
        w = { v with
          obs := { v.obs with grant := mapKeep (fun k => k / 64 != f) v.obs.grant }
          sce := { v.sce with attach := mapKeep (fun k => k / 1025 != f) v.sce.attach } } →
        exec (.instRemove ch seq) s = .next ((w.updInst f (fun i => { i with
          alloc := { i.alloc with tableGrant := 0 } })).markWaiting ch.toNat seq))) ∧
    (s.ready ch seq 0x18 c = true →
      ((ch.toNat = f ∨ ch.toNat = s.manager) → exec (.instInfo ch seq) s = .next (s.answered ch c 0 (s.instState f))) ∧
      (ch.toNat ≠ f → ch.toNat ≠ s.manager →
        exec (.instInfo ch seq) s = .next ((s.bump R.FNM_REFUSED_CNT).answered ch c 0x2071 0)))) ∧
  (∀ (ch : BitVec 13) (seq : BitVec 4) (c : OpenCmd) (s : State), s.ready ch seq 0x18 c = true → 0x1007 < c.imm →
    exec (.instInfo ch seq) s = .next ((s.bump R.FNM_REFUSED_CNT).answered ch c 0x1082 0)) ∧
  (∀ (f : Fin 4104) (s : State),
    ((s.inst f.val).st = .quiescing → (s.inst f.val).resetting = false → exec (.quiesceTimeout f) s =
      .next (((s.abortOutstanding f.val).bumpN R.FNM_QUIESCE_ABORT_CNT (s.outstandingOf f.val)).updInst f.val
        (fun i => { i with aborted := i.aborted + s.outstandingOf f.val }))) ∧
    (∀ i : Inst, i = s.inst f.val → i.st = .quiescing → s.quiet f.val = true →
      (i.resetting = false → exec (.quiesceComplete f) s = .next (((s.setInst f.val { i with
        st := .quiesced, waiter := none }).raise 0x041 f.val i.atQuiesce (satTo 65535 i.aborted)).finish i.waiter 0 i.aborted)) ∧
      (i.resetting = true → exec (.quiesceComplete f) s = .next ((((s.setInst f.val { i with
        st := .created, resetting := false, waiter := none, savedEnable := [] }).scrubNodes f.val).raise 0x042 f.val 0
          (satTo 65535 i.aborted)).finish i.waiter 0 i.aborted))) ∧
    (∀ (i : Inst) (t : State), i = s.inst f.val → i.st = .removing →
      t = (s.setInst f.val Inst.absent).bump R.FNM_REMOVE_CNT →
      exec (.scrubComplete f) s = .next ((t.raise 0x043 f.val 0
        (satTo 65535 (ceilDiv (s.now - i.since).toNat 1000000))).finish i.waiter 0 0))) ∧
  (∀ (ch : BitVec 13) (seq : BitVec 4) (c : OpenCmd) (s : State),
    (∀ p n : Nat, s.ready ch seq 0x16 c = true → p = fld c.arg 16 3 → n = fld c.arg 0 11 → fld c.arg 11 5 = 0 →
      fld c.arg 19 29 = 0 → n ≤ 1024 → (((List.range 8).filter (· ≠ p)).map s.totalVfs).sum + n ≤ 4096 →
      (s.fn p).vfEnable = false →
      exec (.setTotalvfs ch seq) s = .next ((s.wr (R.FNM_PF_CFG p) (BitVec.ofNat 64 n)).answered ch c 0 0)) ∧
    (∀ p n : Nat, s.ready ch seq 0x16 c = true → p = fld c.arg 16 3 → n = fld c.arg 0 11 →
      (fld c.arg 11 5 ≠ 0 ∨ fld c.arg 19 29 ≠ 0 ∨ 1024 < n ∨ 4096 < (((List.range 8).filter (· ≠ p)).map s.totalVfs).sum + n ∨
        (s.fn p).vfEnable = true) →
      exec (.setTotalvfs ch seq) s = .next ((s.bump R.FNM_REFUSED_CNT).answered ch c 0x1082 0)) ∧
    (∀ f : Nat, s.ready ch seq 0x17 c = true → f = fld c.arg 32 13 → fld c.arg 45 3 = 0 → bit c.arg 0 = false → f ≤ 0x1007 →
      (s.inst f).st ≠ .absent → exec (.tableGrant ch seq) s = .next ((s.updInst f (fun i => { i with
        alloc := { i.alloc with tableGrant := BitVec.ofNat 32 (fld c.arg 0 32) } })).answered ch c 0 0)) ∧
    (∀ f : Nat, s.ready ch seq 0x17 c = true → f = fld c.arg 32 13 →
      (fld c.arg 45 3 ≠ 0 ∨ bit c.arg 0 = true ∨ 0x1007 < f →
        exec (.tableGrant ch seq) s = .next ((s.bump R.FNM_REFUSED_CNT).answered ch c 0x1082 0)) ∧
      (fld c.arg 45 3 = 0 → bit c.arg 0 = false → f ≤ 0x1007 → (s.inst f).st = .absent →
        exec (.tableGrant ch seq) s = .next ((s.bump R.FNM_REFUSED_CNT).answered ch c 0x3073 0)))) ∧
  (∀ (v : Word) (f : Nat) (s t : State), s.blockHeld 2 = false → f = fld v 0 13 →
    t = s.wr R.FNM_IND_CTL ((v &&& 0xC0001FFF).setWidth 64) →
    (fld v 30 2 = 1 → f ≤ 0x1007 → exec (.fnmIndRead v) s = .next ((t.each (List.range 16) (fun s k =>
      s.wr (R.FNM_IND_DATA k) (BitVec.ofNat 64 (leAt (t.allocBytes f) (4 * k) 4)))).wr R.FNM_IND_STATUS 0x80000000)) ∧
    (fld v 30 2 = 1 → 0x1007 < f → exec (.fnmIndRead v) s = .next (t.wr R.FNM_IND_STATUS 0xC0000000)) ∧
    (∀ b : Bytes, fld v 30 2 = 2 → f ≤ 0x1007 → (t.inst f).st = .absent →
      b = (List.range 16).flatMap (fun k => leBytes 4 (t.rd (R.FNM_IND_DATA k)).toNat) →
      exec (.fnmIndWrite v) s = .next ((t.updInst f (fun i => { i with
        alloc := Alloc.ofBytes b, persona := leAt b 13 1 })).wr R.FNM_IND_STATUS 0x80000000)) ∧
    (fld v 30 2 = 2 → (0x1007 < f ∨ (t.inst f).st ≠ .absent) →
      exec (.fnmIndWrite v) s = .next (t.wr R.FNM_IND_STATUS 0xC0000000)))

/-- A doorbell of an owned ring that takes it is accepted, or marks a submission or receive ring that is HELD; one with
reserved bits, of a foreign ring, an absent one or one that takes none is discarded and counted. A fetch of the ring
whose turn it is reads descriptors in one request, takes as many as it may, each advancing C and counted, and writes C
once; a read that fails takes none (the model's choice, log entry 95). NOP completes with success (on a ring of no
submission queue pair), SEND and SEND_PACKED send their frames, BUF adds a buffer. A delivered packet is written into
the oldest buffer and completed, waits where there is none, or is dropped where no entry or no live ring takes it or its
cells are uncorrectable. A coalescing timeout notifies. (R302, R304, R306, R307, R308, R311, R312, R313, R316, R317,
R321, R322) -/
def Obligations.RingTraffic : Prop :=
  (∀ (f : Fin 4104) (v : DWord) (r : Nat) (k : Ring) (s : State), s.barOpen f.val = true → (s.inst f.val).st ≠ .absent →
    r = fld v 0 20 → k = s.ring r →
    (v &&& 0xFFFF0000FFF00000 ≠ 0 → exec (.doorbell f v) s =
      .next (((s.bump R.RING_DB_BAD_CNT).raise 0x104 f.val r 0).ctxPump)) ∧
    (v &&& 0xFFFF0000FFF00000 = 0 → s.ownsRing f.val r = false → exec (.doorbell f v) s =
      .next (((s.bump R.FNM_FOREIGN_DB_CNT).raise 0x045 f.val r 0).ctxPump)) ∧
    (v &&& 0xFFFF0000FFF00000 = 0 → s.ownsRing f.val r = true →
      (k.st = .absent → exec (.doorbell f v) s = .next (((s.bump R.RING_DB_BAD_CNT).raise 0x104 f.val r 1).ctxPump)) ∧
      (k.st ∈ [.bmLost, .destroying, .frozen] →
        exec (.doorbell f v) s = .next (((s.bump R.RING_DB_BAD_CNT).raise 0x104 f.val r 2).ctxPump)) ∧
      (∀ t : State, k.st ∈ [.active, .held] → t = s.setRing r { k with hint := BitVec.ofNat 16 (fld v 32 16) } →
        ((2 ≤ ctxType k.ctx ∨ (k.st = .active ∧ (s.inst f.val).st = .active)) →
          exec (.doorbell f v) s = .next ((t.dbAccept r).ctxPump)) ∧
        (ctxType k.ctx < 2 → (k.st = .held ∨ (s.inst f.val).st ≠ .active) →
          exec (.doorbell f v) s = .next (((t.updRing r (fun k => { k with marked := true })).updFn f.val
            (fun h => { h with dbHeld := h.dbHeld + 1 })).ctxPump))))) ∧
  (∀ (f : Fin 4104) (v : DWord) (s : State), s.barOpen f.val = true → (s.inst f.val).st = .absent →
    exec (.doorbell f v) s = .next ((s.bump R.FNM_FOREIGN_DB_CNT).ctxPump)) ∧
  (∀ (r : BitVec 20) (e : ReadEnd) (descs got : List (BitVec 512)) (k : Ring) (left n : Nat) (s t u v : State),
    s.fetchTurn = some (r.toNat, left) → k = s.ring r.toNat → s.canRead k.func = true →
    got = descs.take (min left (min k.fill (k.size - k.c.toNat % k.size))) → got ≠ [] →
    t = (s.useCtx r.toNat).1.readNow k.func (s.ringPasid k) (BitVec.ofNat 64 (ctxBase k.ctx + k.c.toNat % k.size * 64))
      (64 * got.length) e →
    (readStatus e ≠ none → exec (.descriptorFetch r descs e) s = .next (t.readAfter k.func e)) ∧
    (readStatus e = none → (u, n) = State.fetchAll r.toNat got t →
      v = (match u.qpOfSq r.toNat with | some (i, _) => u.beginDone i (u.opFuel i) | none => u) →
      ∀ w : State, w = { v with
        rings := { v.rings with
          drrAt := r.toNat
          drrLeft := if n < got.length then 0 else left - n } } →
      exec (.descriptorFetch r descs e) s = .next ((if 0 < n then w.writeC r.toNat else w).ctxPump))) ∧
  (∀ (r : Nat) (d : BitVec 512) (rest : List (BitVec 512)) (s t u : State) (q : Nat), q = ctxCq (s.ring r).ctx →
    (s.fetches r d = false → State.fetchAll r (d :: rest) s = (s, 0)) ∧
    (t = (if (s.ring q).free ≤ s.cqOut q then s.updRing q (fun k => { k with reserved := k.reserved + 1 }) else s) →
      u = (t.bump R.RING_DESC_CNT).updRing r (fun k => { k with
        c := k.c + 1
        entries := k.entries + 1 }) →
      s.fetches r d = true →
      State.fetchAll r (d :: rest) s =
        ((State.fetchAll r rest (u.fetched r d)).1, (State.fetchAll r rest (u.fetched r d)).2 + 1))) ∧
  (∀ (r : BitVec 20) (s : State), 0 < (s.ring r.toNat).unnotified → bit (s.ring r.toNat).ctx 50 = true →
    (s.ring r.toNat).st ≠ .absent → exec (.coalesceTimeout r) s = .next (s.notify r.toNat)) ∧
  (∀ (r : BitVec 20) (no : Nat) (o : RingOp) (k : Ring) (s : State), k = s.ring r.toNat →
    (s.opRuns r.toNat no 0 false o = true → s.qpOfSq r.toNat = none → exec (.nopDescriptor r no) s =
      .next (s.endOp r.toNat o.no (if (s.qpOfRq r.toNat).any (fun e => e.2.st == .error) then 0x50A0 else 0) 0 [])) ∧
    (s.opRuns r.toNat no 0x1001 false o = true →
      exec (.send r no) s = .next (s.sendFrames k r.toNat o [padTo (descLen o.desc) o.data])) ∧
    (s.opRuns r.toNat no 0x1002 false o = true →
      (∀ fs, unpack (fld o.desc 192 16) (padTo (descLen o.desc) o.data) = .ok fs →
        exec (.sendPacked r no) s = .next (s.sendFrames k r.toNat o fs)) ∧
      (∀ st, unpack (fld o.desc 192 16) (padTo (descLen o.desc) o.data) = .error st →
        exec (.sendPacked r no) s = .next (s.endOp r.toNat o.no st 0 o.txBytes))) ∧
    (s.opRuns r.toNat no 0x2001 false o = true → (∀ e, s.qpOfRq r.toNat = some e → e.2.st ≠ .error) →
      exec (.buf r no) s = .next ((s.setRing r.toNat { k with
        ops := k.ops.filter (fun x => x.no != o.no), buffers := k.buffers ++ [o.desc] }).rxServe r.toNat)) ∧
    (∀ e, s.opRuns r.toNat no 0x2001 false o = true → s.qpOfRq r.toNat = some e → e.2.st = .error →
      exec (.buf r no) s = .next (s.endOp r.toNat o.no 0x50A0 0 []))) ∧
  (∀ (n : Fin 16) (bad : Bool) (a b : List (Nat × Pkt)) (p : Pkt) (s t : State), s.rings.rxIn = a ++ (n.val, p) :: b →
    (∀ e ∈ a, e.1 ≠ n.val) → t = { s with rings := { s.rings with rxIn := a ++ b } } →
    (s.blockHeld 3 = false → exec (.rxDeliver n bad) s = .next (t.rxOne n.val p bad)) ∧
    (s.blockHeld 3 = true → exec (.rxDeliver n bad) s = .next (t.heldDropLate 3 p))) ∧
  (∀ (n r : Nat) (p : Pkt) (d : BitVec 512) (rest : List (BitVec 512)) (k : Ring) (m n' : Nat) (st : Option Status) (s t u : State), k = s.ring r →
    (s.rxRing p = some r → s.rxOne n p true = s.cellUncorr p) ∧
    (s.rxRing p = none →
      ∀ bad, s.rxOne n p bad = (s.dropLate p R.RING_RX_UNBOUND_CNT 3 1).raise (0x120 + n) noFunc (spGet p.sp SP.LEAF_QUEUE) 0) ∧
    (s.rxRing p = some r → s.rxLive r = false → s.rxOne n p false = s.rxNoBuf n r p) ∧
    (s.rxRing p = some r → s.rxLive r = true → k.buffers = [] →
      s.rxOne n p false = { s with rings := { s.rings with rxWait := s.rings.rxWait ++ [(n, r, p)] } }) ∧
    (s.rxRing p = some r → s.rxLive r = true → k.buffers = d :: rest → (∀ e ∈ s.rings.rxWait, e.2.1 ≠ r) →
      m = min (spGet p.sp SP.PKT_LEN) (descLen d) →
      (t, n', st) = (s.setRing r { k with buffers := rest }).hostPut k.func (s.ringPasid k) (BitVec.ofNat 64 (descA d)) (padTo m p.bytes) →
      u = t.complete r d (st.getD (if m < spGet p.sp SP.PKT_LEN then 0x4090 else 0)) n'
        (rxBytes k p (decide (m < spGet p.sp SP.PKT_LEN))) →
      s.rxOne n p false = (u.trace 4 p.sp p.bytes 0 0xFF 0 0).endPkt p none)) ∧
  (∀ (ring : BitVec 20) (a b : List (Nat × Nat × Pkt)) (n : Nat) (p : Pkt) (s t : State),
    s.rings.rxWait = a ++ (n, ring.toNat, p) :: b → (∀ e ∈ a, e.2.1 ≠ ring.toNat) →
    t = { s with rings := { s.rings with rxWait := a ++ b } } →
    exec (.rxNobufTimeout ring) s = .next (t.rxNoBuf n ring.toNat p))

/-- RING_CREATE checks the whole context and answers the first fault, or holds the ring, a receive group's base writing
its delivery entry. RING_DESTROY ends the operations and is answered when the last completion is committed; a completion
ring in use stays. RING_RESTART resumes a BM_LOST ring of a function that may send. Both refuse an ID out of range, one
the sender does not own, and one of no ring. RING_ABORT ends the operation, the buffer, or marks a waiting descriptor's
tag, or finds none. LEV_RING_BIND binds or unbinds an event ring. RING_IND reads a context, a record or a delivery entry
and writes a delivery entry. (R238, R265, R294, R295, R296, R311, R319, R320) -/
def Obligations.RingCommands : Prop :=
  (∀ (ch : BitVec 13) (seq : BitVec 4) (c : OpenCmd) (b : Bytes) (x : BitVec 512) (r : Nat) (s t : State),
    s.ready ch seq 0x20 c = true → b = padTo 64 c.args → x = bytesBv 512 b → r = fld x 0 20 →
    (∀ st, s.ctxCheck ch.toNat b = .error st → exec (.ringCreate ch seq) s = .next (s.answered ch c st 0)) ∧
    (∀ f, s.ctxCheck ch.toNat b = .ok f →
      t = s.setRing r { Ring.absent with ctx := x, func := f, st := s.ringLive f, nextOp := (s.ring r).nextOp } →
      exec (.ringCreate ch seq) s = .next ((if isGroupBase x r then
        t.setDeliver (ctxLeaf x) (BitVec.ofNat 32 (2 ^ 31 + ctxSpread x * 2 ^ 24 + r)) else t).answered ch c 0 r))) ∧
  (∀ (ch : Nat) (b : Bytes) (s : State),
    (ctxArgsOk b = false → s.ctxCheck ch b = .error 0x1082) ∧
    (ctxArgsOk b = true → ctxShapeOk (bytesBv 512 b) = false → s.ctxCheck ch b = .error 0x1094) ∧
    (ctxArgsOk b = true → ctxShapeOk (bytesBv 512 b) = true → s.ringFor ch (fld (bytesBv 512 b) 0 20) = none →
      s.ctxCheck ch b = .error 0x2071) ∧
    (∀ (f t r cq : Nat) (x : BitVec 512) (known : Prop), x = bytesBv 512 b → r = fld x 0 20 → t = ctxType x → cq = ctxCq x →
      ctxArgsOk b = true → ctxShapeOk x = true → s.ringFor ch r = some f →
      known = ((t < 2 → s.ownsRing f cq = true) ∧ (2 ≤ t → ctxVector x < s.vectors f) ∧ (t = 1 → s.ownsLeaf f (ctxLeaf x) = true)) →
      (¬ known → s.ctxCheck ch b = .error 0x2071) ∧
      (known → t < 2 → ((s.ring cq).st = .absent ∨ ctxType (s.ring cq).ctx ≠ 2 ∨ (s.ring cq).func ≠ f) →
        s.ctxCheck ch b = .error 0x1094) ∧
      (known → (t < 2 → (s.ring cq).st ≠ .absent ∧ ctxType (s.ring cq).ctx = 2 ∧ (s.ring cq).func = f) →
        s.ctxCheck ch b = if (s.ring r).st ≠ .absent then .error 0x3092 else .ok f))) ∧
  (∀ (ch : BitVec 13) (seq : BitVec 4) (c : OpenCmd) (r : Nat) (s : State), c.imm < 1048576 → r = c.imm →
    (s.ringFor ch.toNat r).isSome = true → (s.ring r).st ≠ .absent →
    (s.ready ch seq 0x21 c = true →
      ((s.ring r).st ∈ [.frozen, .destroying] ∨ (2 ≤ ctxType (s.ring r).ctx ∧ s.cqInUse r = true) →
        exec (.ringDestroy ch seq) s = .next (s.answered ch c 0x3093 0)) ∧
      ((s.ring r).st ∉ [.frozen, .destroying] → (2 ≤ ctxType (s.ring r).ctx → s.cqInUse r = false) →
        exec (.ringDestroy ch seq) s = .next ((((s.clearDeliver r).updRing r (fun k => { k with
          st := .destroying, waiter := some (ch.toNat, seq.toNat) })).abortAll r 0x5090).markWaiting ch.toNat seq))) ∧
    (s.ready ch seq 0x22 c = true →
      ((s.ring r).st ≠ .bmLost → exec (.ringRestart ch seq) s = .next (s.answered ch c 0 0)) ∧
      ((s.ring r).st = .bmLost → (s.fn (s.ring r).func).bme = false →
        exec (.ringRestart ch seq) s = .next (s.answered ch c 0x2060 0)) ∧
      (∀ t : State, (s.ring r).st = .bmLost → (s.fn (s.ring r).func).bme = true →
        t = (s.setRing r { s.ring r with st := .active, marked := false }).askIndex r →
        exec (.ringRestart ch seq) s = .next ((t.drainBacklog r).answered ch c 0 0)))) ∧
  (∀ e ∈ [(0x21, Instr.ringDestroy), (0x22, .ringRestart)], ∀ (ch : BitVec 13) (seq : BitVec 4) (c : OpenCmd) (s : State),
    s.ready ch seq e.1 c = true →
    (1048576 ≤ c.imm → exec (e.2 ch seq) s = .next (s.answered ch c 0x1082 0)) ∧
    (c.imm < 1048576 → s.ringFor ch.toNat c.imm = none → exec (e.2 ch seq) s = .next (s.answered ch c 0x2071 0)) ∧
    (c.imm < 1048576 → s.ringFor ch.toNat c.imm ≠ none → (s.ring c.imm).st = .absent →
      exec (e.2 ch seq) s = .next (s.answered ch c 0x3091 0))) ∧
  (∀ (ch : BitVec 13) (seq : BitVec 4) (c : OpenCmd) (r tag : Nat) (tags : List (BitVec 16)) (k : Ring) (s : State),
    s.ready ch seq 0x23 c = true → c.imm < 68719476736 → r = c.imm % 1048576 → tag = c.imm / 1048576 → k = s.ring r →
    (s.ringFor ch.toNat r).isSome = true → k.st ≠ .absent →
    (∀ (a b : List RingOp) (o : RingOp), k.ops = a ++ o :: b → (∀ x ∈ a, descTag x.desc ≠ tag) → descTag o.desc = tag →
      exec (.ringAbort ch seq tags) s = .next (((s.bump R.RING_ABORT_CNT).abortOp r o 0x5090).answered ch c 0 0)) ∧
    (∀ (a b : List (BitVec 512)) (d : BitVec 512), (∀ x ∈ k.ops, descTag x.desc ≠ tag) → k.buffers ++ k.lent = a ++ d :: b →
      (∀ x ∈ a, descTag x ≠ tag) → descTag d = tag →
      exec (.ringAbort ch seq tags) s = .next (((s.bump R.RING_ABORT_CNT).abortBuf r d 0x5090).answered ch c 0 0)) ∧
    ((∀ x ∈ k.ops, descTag x.desc ≠ tag) → (∀ x ∈ k.buffers ++ k.lent, descTag x ≠ tag) →
      (∀ st, ctxType k.ctx < 2 → 0 < k.fill → s.hostStop k.func = some st →
        exec (.ringAbort ch seq tags) s = .next (s.answered ch c st 0)) ∧
      (ctxType k.ctx < 2 → (k.fill = 0 ∨ s.hostStop k.func = none) → BitVec.ofNat 16 tag ∈ tags.take k.fill → exec (.ringAbort ch seq tags) s =
        .next (((s.bump R.RING_ABORT_CNT).setRing r { k with
          abortTags := k.abortTags.filter (· ≠ BitVec.ofNat 16 tag) ++ [BitVec.ofNat 16 tag] }).answered ch c 0 1)) ∧
      ((2 ≤ ctxType k.ctx ∨ ((k.fill = 0 ∨ s.hostStop k.func = none) ∧ BitVec.ofNat 16 tag ∉ tags.take k.fill)) → exec (.ringAbort ch seq tags) s =
        .next ((s.bump R.RING_ABORT_MISSED_CNT).answered ch c 0x3090 0)))) ∧
  (∀ (r : BitVec 20) (s : State), (s.ring r.toNat).st = .destroying → (s.ring r.toNat).outstanding = 0 →
    exec (.ringDestroyDone r) s = .next (((s.ringGone r.toNat).ctxPump).finish (s.ring r.toNat).waiter 0 0)) ∧
  (∀ (ch : BitVec 13) (seq : BitVec 4) (c : OpenCmd) (i r : Nat) (s : State) (bound : Option Nat → State),
    s.ready ch seq 0x24 c = true → c.imm < 16777216 → i = fld c.arg 20 3 → r = fld c.arg 0 20 → i ≤ 4 →
    bound = (fun v => { s with rtbl := { s.rtbl with levRing := mapSet (fun _ => none) s.rtbl.levRing i v } }) →
    (bit c.arg 23 = true → exec (.levRingBind ch seq) s = .next ((bound none).answered ch c 0 0)) ∧
    (bit c.arg 23 = false → (s.ring r).st ≠ .absent → ctxType (s.ring r).ctx = 3 →
      exec (.levRingBind ch seq) s = .next ((bound (some r)).answered ch c 0 0)) ∧
    (bit c.arg 23 = false → (s.ring r).st = .absent → exec (.levRingBind ch seq) s = .next (s.answered ch c 0x3091 0)) ∧
    (bit c.arg 23 = false → (s.ring r).st ≠ .absent → ctxType (s.ring r).ctx ≠ 3 →
      exec (.levRingBind ch seq) s = .next (s.answered ch c 0x1082 0))) ∧
  (∀ (ch : BitVec 13) (seq : BitVec 4) (c : OpenCmd) (s : State), s.ready ch seq 0x24 c = true →
    (16777216 ≤ c.imm ∨ 4 < fld c.arg 20 3) → exec (.levRingBind ch seq) s = .next (s.answered ch c 0x1082 0)) ∧
  (∀ (v : Word) (s t : State), s.blockHeld 3 = false → t = s.wr R.RING_IND_CTL ((v &&& 0xF00FFFFF).setWidth 64) →
    (∀ b, fld v 30 2 = 1 → t.ringObject (fld v 28 2) (fld v 0 20) = some b →
      exec (.ringIndRead v) s = .next ((t.each (List.range (b.length / 4)) (fun s k =>
        s.wr (R.RING_IND_DATA k) (BitVec.ofNat 64 (leAt b (4 * k) 4)))).wr R.RING_IND_STATUS 0x80000000)) ∧
    (fld v 30 2 = 1 → t.ringObject (fld v 28 2) (fld v 0 20) = none →
      exec (.ringIndRead v) s = .next (t.wr R.RING_IND_STATUS 0xC0000000)) ∧
    (fld v 30 2 = 2 → fld v 28 2 = 2 → fld v 0 20 < 262144 →
      exec (.ringIndWrite v) s = .next ((t.setDeliver (fld v 0 20)
        ((t.rd (R.RING_IND_DATA 0)).setWidth 32 &&& 0x870FFFFF)).wr R.RING_IND_STATUS 0x80000000)) ∧
    (fld v 30 2 = 2 → (fld v 28 2 ≠ 2 ∨ 262144 ≤ fld v 0 20) →
      exec (.ringIndWrite v) s = .next (t.wr R.RING_IND_STATUS 0xC0000000)))

/-- Begun in RTS, a SEND, SEND_IMM or WRITE_IMM joins the work with the next SEND_SEQ, a WRITE and a READ without; each
with as many PSNs as packets. CMP_SWAP and FETCH_ADD join it, and end with RDMA_MISALIGNED where the remote VA is not
8-byte aligned. REG_MR takes a free entry, which one is a free value, under its next generation and completes with the
key, or with MR_TABLE_FULL. INVAL_MR clears VALID, ends with MR_NOT_OWNED for another function's or domain's key, and
leaves a key of another generation. A NOP of the ring joins the work and is done. In ERROR each completes with
QP_FLUSHED, and one whose status is decided, or whose function makes no host request, joins with that status. A REG_MR
LENGTH outside Table 14-5 gives RING_BAD_LENGTH: that is the model's reading (log entry 65). (R331, R333, R334, R335,
R336, R339, R350) -/
def Obligations.RdmaOperations : Prop :=
  (∀ (r : BitVec 20) (no i : Nat) (o : RingOp) (q : Qp) (s t : State), t = s.rdmaBegun r.toNat no i →
    (∀ (op : Nat) (row : Instr),
      (op, row) ∈ [(0x3001, .rdmaSend r no), (0x3002, .rdmaSendImm r no), (0x3004, .rdmaWriteImm r no)] →
      s.rdmaRuns r.toNat no op i o q = true →
      ∃ first, exec row s = .next ((t.updQp i (fun q => { q with sendSeq := q.sendSeq + 1 })).joins i
        { ROp.asked no o first with count := q.packets (descLen o.desc), seq := q.sendSeq })) ∧
    (∀ (op : Nat) (row : Instr), (op, row) ∈ [(0x3003, .rdmaWrite r no), (0x3005, .rdmaRead r no)] →
      s.rdmaRuns r.toNat no op i o q = true →
      ∃ first, exec row s =
        .next (t.joins i { ROp.asked no o first with count := q.packets (descLen o.desc) })) ∧
    (∀ (op kind : Nat) (row : Instr), (op, kind, row) ∈ [(0x3006, 7, .cmpSwap r no), (0x3007, 8, .fetchAdd r no)] →
      s.rdmaRuns r.toNat no op i o q = true →
      (descB o.desc % 8 = 0 → ∃ first, exec row s = .next (t.joins i { ROp.asked no o first with kind := kind })) ∧
      (descB o.desc % 8 ≠ 0 → ∃ first, exec row s =
        .next (t.joins i { ROp.asked no o first with kind := 0x12, done := true, status := 0x10A0 }))) ∧
    (s.rdmaRuns r.toNat no 0 i o q = true → ∃ first, exec (.nopDescriptor r no) s =
      .next (t.joins i { ROp.asked no o first with kind := 0x12, done := true }))) ∧
  (∀ (r : BitVec 20) (no i len : Nat) (o : RingOp) (q : Qp) (s t : State),
    s.rdmaRuns r.toNat no 0x3010 i o q = true → t = s.rdmaBegun r.toNat no i → len = fld o.desc 256 64 →
    (1 ≤ len → len ≤ 2 ^ 40 → (∃ k, k < 1048576 ∧ (s.mr k).valid = false) →
      ∃ first k gen, k < 1048576 ∧ (s.mr k).valid = false ∧ gen = (if (s.mr k).gen = 255 then 1 else (s.mr k).gen + 1) ∧
      exec (.regMr r no) s = .next ((t.drew.setMr k ⟨BitVec.ofNat 64 (descA o.desc), BitVec.ofNat 64 len, BitVec.ofNat 32 (fld o.desc 352 32), q.func, true,
        BitVec.ofNat 8 (fld o.desc 320 8), gen, BitVec.ofNat 20 (fld (s.ring r.toNat).ctx 288 20)⟩).joins i
          { ROp.asked no o first with kind := 0x10, done := true, rkey := BitVec.ofNat 32 (k * 256 + gen.toNat) })) ∧
    (1 ≤ len → len ≤ 2 ^ 40 → (∀ k, k < 1048576 → (s.mr k).valid = true) → ∃ first, exec (.regMr r no) s =
      .next (t.joins i { ROp.asked no o first with kind := 0x10, done := true, status := 0x30A0 })) ∧
    (len = 0 ∨ 2 ^ 40 < len → ∃ first, exec (.regMr r no) s =
      .next (t.joins i { ROp.asked no o first with kind := 0x10, done := true, status := 0x1092 }))) ∧
  (∀ (r : BitVec 20) (no i key : Nat) (o : RingOp) (q : Qp) (s t : State) (m : Mr),
    s.rdmaRuns r.toNat no 0x3011 i o q = true → t = s.rdmaBegun r.toNat no i → key = fld o.desc 192 32 → m = s.mr (key / 256) →
    (m.valid = true → m.gen.toNat = key % 256 → m.func = q.func → m.pd = q.pd → ∃ first, exec (.invalMr r no) s =
      .next ((t.setMr (key / 256) { m with valid := false }).joins i
        { ROp.asked no o first with kind := 0x11, done := true })) ∧
    (m.valid = true → m.gen.toNat = key % 256 → (m.func ≠ q.func ∨ m.pd ≠ q.pd) → ∃ first, exec (.invalMr r no) s =
      .next (t.joins i { ROp.asked no o first with kind := 0x11, done := true, status := 0x20A1 })) ∧
    (m.valid = false ∨ m.gen.toNat ≠ key % 256 → ∃ first, exec (.invalMr r no) s =
      .next (t.joins i { ROp.asked no o first with kind := 0x11, done := true }))) ∧
  (∀ (r : BitVec 20) (no op i : Nat) (row : Instr) (o : RingOp) (q : Qp) (s : State),
    (op, row) ∈ [(0, .nopDescriptor r no), (0x3001, .rdmaSend r no), (0x3002, .rdmaSendImm r no), (0x3003, .rdmaWrite r no), (0x3004, .rdmaWriteImm r no),
      (0x3005, .rdmaRead r no), (0x3006, .cmpSwap r no), (0x3007, .fetchAdd r no), (0x3010, .regMr r no),
      (0x3011, .invalMr r no)] →
    s.opReady r.toNat no op = some o → s.qpOfSq r.toNat = some (i, q) →
    (q.st = .error → exec row s = .next (s.endUnrun r.toNat no 0x50A0)) ∧
    (∀ st, q.st = .rts → (o.verdict = some st ∨ (o.verdict = none ∧ (s.rdmaBegun r.toNat no i).hostStop q.func.toNat = some st)) →
      ∃ first, exec row s = .next ((s.rdmaBegun r.toNat no i).joins i { ROp.asked no o first with
        kind := 0x12, done := true, status := st }))) ∧
  (∀ (q : Qp) (o : ROp), o.kind ≤ 4 → (q.finished o = true ↔ o.sent = o.count ∧
    o.count ≤ q.dist q.unackPsn.toNat o.first.toNat ∧ q.dist q.unackPsn.toNat o.first.toNat < q.psnMod / 2))

/-- QP_CREATE takes an index under its next generation, RETRY 0x77, and answers the handle; bad arguments, unfit rings,
and no quota or index left (FN_NO_RESOURCE, r 7) are answered instead. QP_MODIFY makes each transition of Table 14-2
with the bytes it names, writes the context back, and answers; bytes out of range are GCS_BAD_ARG, any other transition
is QP_BAD_TRANSITION, another function's queue pair FN_NOT_OWNED. QP_DESTROY completes what is outstanding, frees the
trackers, writes the context back and keeps the generation. RTE_IND_READ puts the bytes of an object into the data
registers. The error names for handles of no queue pair are the model's choice (log entry 66). (R324, R325, R326, R328,
R329) -/
def Obligations.QueuePairs : Prop :=
  (∀ (ch : BitVec 13) (seq : BitVec 4) (c : OpenCmd) (b : Bytes) (f sq rq : Nat) (flags : Byte) (s : State),
    s.ready ch seq 0x68 c = true → b = padTo 32 c.args → f = leAt b 0 2 → sq = leAt b 12 4 → rq = leAt b 16 4 →
    flags = BitVec.ofNat 8 (leAt b 2 1) →
    (s.qpArgsOk ch.toNat b = false → exec (.qpCreate ch seq) s = .next (s.answered ch c 0x1082 0)) ∧
    (s.qpArgsOk ch.toNat b = true →
      (∀ st, s.qpRing f sq 0 = some st → exec (.qpCreate ch seq) s = .next (s.answered ch c st 0)) ∧
      (∀ st, s.qpRing f sq 0 = none → rq ≠ 0xFFFFF → s.qpRing f rq 1 = some st →
        exec (.qpCreate ch seq) s = .next (s.answered ch c st 0)) ∧
      (s.qpRing f sq 0 = none → (rq = 0xFFFFF ∨ s.qpRing f rq 1 = none) →
        ((s.inst f).alloc.qpQuota ≤ (s.qpsOf f).length ∨ s.newQpIndex (bit flags 0) = none →
          exec (.qpCreate ch seq) s = .next (s.answered ch c 0x3070 7)) ∧
        (∀ (i : Nat) (gen : Byte) (q : Qp) (t u : State) (room : Bool), (s.qpsOf f).length < (s.inst f).alloc.qpQuota →
          s.newQpIndex (bit flags 0) = some i → gen = (if (s.qp i).gen = 255 then 1 else (s.qp i).gen + 1) →
          q = { Qp.absent with
            gen := gen, st := .reset, func := BitVec.ofNat 13 f, qpcAddr := BitVec.ofNat 64 (leAt b 20 8)
            flags := flags, paths := BitVec.ofNat 8 (leAt b 3 1), retry := 0x77, pd := BitVec.ofNat 32 (leAt b 4 4)
            partition := BitVec.ofNat 32 (leAt b 8 4), sqRing := sq, rqRing := rq } →
          s.drew.qpcRoom = (t, room) → u = t.setQp i q →
          exec (.qpCreate ch seq) s =
            .next ((if room = true then u.setQpcCache (i :: u.rte.cached.filter (· ≠ i)) else u).answered ch c 0
              (gen.toNat * 2 ^ 18 + i)))))) ∧
  (∀ (ch : BitVec 13) (seq : BitVec 4) (c : OpenCmd) (b : Bytes) (h : Nat) (s : State),
    s.ready ch seq 0x69 c = true → b = padTo 52 c.args → h = leAt b 0 4 →
    (67108864 ≤ h ∨ 4 < leAt b 4 1 → exec (.qpModify ch seq) s = .next (s.answered ch c 0x1082 0)) ∧
    (h < 67108864 → leAt b 4 1 ≤ 4 →
      (s.qpNamed ch.toNat h = none → exec (.qpModify ch seq) s = .next (s.answered ch c 0x30A1 0)) ∧
      (∀ i, s.qpNamed ch.toNat h = some (i, false) → exec (.qpModify ch seq) s = .next (s.answered ch c 0x2071 0)) ∧
      (∀ (i : Nat) (q : Qp) (t : State), s.qpNamed ch.toNat h = some (i, true) → t = s.useQpc i → q = t.qp i →
        (q.st = .reset → leAt b 4 1 = 1 → 1 ≤ leAt b 5 1 → leAt b 5 1 ≤ 5 → exec (.qpModify ch seq) s =
          .next (((t.setQp i { q with st := .init, mtu := BitVec.ofNat 8 (leAt b 5 1) }).writeBack i).answered ch c 0 0)) ∧
        (q.st = .init → leAt b 4 1 = 2 → 1 ≤ leAt b 5 1 → leAt b 5 1 ≤ 5 → leAt b 8 4 < 67108864 →
          (q.multipath = true ∨ leAt b 12 4 < 16777216) → addrOk q.v6 (leAt b 20 16) = true → addrOk q.v6 (leAt b 36 16) = true →
          exec (.qpModify ch seq) s = .next (((t.setQp i { q with
            st := .rtr, mtu := BitVec.ofNat 8 (leAt b 5 1), remoteQp := BitVec.ofNat 32 (leAt b 8 4)
            expectPsn := BitVec.ofNat 32 (leAt b 12 4), localAddr := BitVec.ofNat 128 (leAt b 20 16)
            remoteAddr := BitVec.ofNat 128 (leAt b 36 16) }).writeBack i).answered ch c 0 0)) ∧
        (q.st = .rtr → leAt b 4 1 = 3 → leAt b 7 1 < 64 → (q.multipath = true ∨ leAt b 16 4 < 16777216) →
          exec (.qpModify ch seq) s = .next (((t.setQp i { q with
            st := .rts, retry := BitVec.ofNat 8 (leAt b 6 1), dscp := BitVec.ofNat 8 (leAt b 7 1)
            nextPsn := BitVec.ofNat 32 (leAt b 16 4), unackPsn := BitVec.ofNat 32 (leAt b 16 4) }).writeBack i).answered ch c 0 0)) ∧
        ((q.st = .reset ∧ leAt b 4 1 = 1 ∧ (leAt b 5 1 = 0 ∨ 5 < leAt b 5 1)) ∨
            (q.st = .init ∧ leAt b 4 1 = 2 ∧ (leAt b 5 1 = 0 ∨ 5 < leAt b 5 1 ∨ 67108864 ≤ leAt b 8 4 ∨
              (q.multipath = false ∧ 16777216 ≤ leAt b 12 4) ∨ addrOk q.v6 (leAt b 20 16) = false ∨
              addrOk q.v6 (leAt b 36 16) = false)) ∨
            (q.st = .rtr ∧ leAt b 4 1 = 3 ∧ (64 ≤ leAt b 7 1 ∨ (q.multipath = false ∧ 16777216 ≤ leAt b 16 4))) →
          exec (.qpModify ch seq) s = .next (t.answered ch c 0x1082 0)) ∧
        (q.st ∈ [.init, .rtr, .rts] → leAt b 4 1 = 4 → ∃ code, exec (.qpModify ch seq) s =
          .next ((((t.drew.qpFail i none 0x50A0 0).qpErrorEvent i code).writeBack i).answered ch c 0 0)) ∧
        (q.st = .error → leAt b 4 1 = 0 → t.qpBusy i = false → exec (.qpModify ch seq) s =
          .next ((((t.freeTrackers i).setQp i q.cleared).writeBack i).answered ch c 0 0)) ∧
        (q.st = .error → leAt b 4 1 = 0 → t.qpBusy i = true → exec (.qpModify ch seq) s = .next (t.answered ch c 0x30A1 0)) ∧
        ((q.st, leAt b 4 1) ∉ [(QpSt.reset, 1), (.init, 2), (.rtr, 3), (.init, 4), (.rtr, 4), (.rts, 4), (.error, 0)] →
          exec (.qpModify ch seq) s = .next (t.answered ch c 0x30A1 0))))) ∧
  (∀ (ch : BitVec 13) (seq : BitVec 4) (c : OpenCmd) (s : State), s.ready ch seq 0x6A c = true → 67108864 ≤ c.imm →
    exec (.qpDestroy ch seq) s = .next (s.answered ch c 0x1082 0)) ∧
  (∀ (ch : BitVec 13) (seq : BitVec 4) (c : OpenCmd) (s : State), s.ready ch seq 0x6A c = true → c.imm < 67108864 →
    ((∀ i, s.qpNamed ch.toNat c.imm ≠ some (i, true)) → exec (.qpDestroy ch seq) s = .next (s.answered ch c 0x2071 0)) ∧
    (∀ (i : Nat) (t u : State), s.qpNamed ch.toNat c.imm = some (i, true) →
      t = (((s.useQpc i).qpFail i none 0x50A0 0).freeTrackers i).writeBack i →
      u = t.setQpcCache (t.rte.cached.filter (· ≠ i)) →
      exec (.qpDestroy ch seq) s = .next ((u.setQp i { Qp.absent with gen := (u.qp i).gen }).answered ch c 0 0))) ∧
  (∀ (v : Word) (s t : State), s.blockHeld 12 = false → t = s.wr R.RTE_IND_CTL ((v &&& 0xF81FFFFF).setWidth 64) →
    (∀ b, fld v 30 2 = 1 → t.rteObject (fld v 27 3) (fld v 0 21) = some b →
      exec (.rteIndRead v) s = .next ((t.each (List.range (b.length / 4)) (fun s k =>
        s.wr (R.RTE_IND_DATA k) (BitVec.ofNat 64 (leAt b (4 * k) 4)))).wr R.RTE_IND_STATUS 0x80000000)) ∧
    ((fld v 30 2 = 2 ∨ (fld v 30 2 = 1 ∧ t.rteObject (fld v 27 3) (fld v 0 21) = none)) →
      exec (.rteIndRead v) s = .next (t.wr R.RTE_IND_STATUS 0xC0000000)))

/-- The packet longest at the RTE is dropped with its reason, taken to the traffic manager (DestQP 1), answered as
stale, dropped for an absent queue pair, left in the Lay-by, or worked on where its context is cached; one for a held
block is dropped. Once the last read of a context has come its packets are worked off in order; a read that fails drops
them. A packet 50 us in the Lay-by is dropped with reason 7. The acknowledgement timer acknowledges; the retransmission
timer retries or ends the queue pair at RETRY_LIMIT; a path is released; a receiver-not-ready wait ends; RATE rises by a
quarter; an aged tracker is freed, its message's completion failed or its READ counted from 0. The first failing check
of R332 names the violation, and a wrong partition drops. (R327, R332, R340, R341, R345, R346, R347, R348, R349, R351,
R352, R355) -/
def Obligations.RdmaTraffic : Prop :=
  (∀ (e : ReadEnd) (mem : Bytes) (p : Pkt) (rest : List Pkt) (s t : State) (fin : State → State), s.rte.input = p :: rest →
    t = { s with rte := { s.rte with input := rest } } →
    fin = (fun u => u.beginFetches.rtePump u.beginFetches.rte.waitTx.length) →
    (s.blockHeld 12 = true → exec (.rtePacketReceive mem e) s = .next (t.heldDropLate 12 p)) ∧
    (s.blockHeld 12 = false →
      (rteGsi p = some 1 → bit (s.rd R.RTE_GSI_CFG) 31 = true → exec (.rtePacketReceive mem e) s =
        .next (fin (t.toTm { p with sp := spSet p.sp SP.LEAF_QUEUE (s.rdf R.RTE_GSI_CFG 0 18) }))) ∧
      (rteGsi p = some 0 ∨ (rteGsi p = some 1 ∧ bit (s.rd R.RTE_GSI_CFG) 31 = false) →
        exec (.rtePacketReceive mem e) s = .next (fin (t.rteDrop p 2))) ∧
      (rteGsi p = none →
        (∀ why, rteParse p = .error why → exec (.rtePacketReceive mem e) s = .next (fin (t.rteDrop p why))) ∧
        (∀ r, rteParse p = .ok r →
          ((s.qp r.index).gen.toNat ≠ r.gen →
            exec (.rtePacketReceive mem e) s = .next (fin (t.stale p r (spGet p.sp SP.L4_TYPE == 6)))) ∧
          ((s.qp r.index).gen.toNat = r.gen → ((s.qp r.index).st = .absent ∨
              (s.qp r.index).multipath ≠ (spGet p.sp SP.L4_TYPE == 6)) →
            exec (.rtePacketReceive mem e) s = .next (fin (t.rteDrop p 4))) ∧
          ((s.qp r.index).gen.toNat = r.gen → (s.qp r.index).st ≠ .absent →
            (s.qp r.index).multipath = (spGet p.sp SP.L4_TYPE == 6) →
            (r.index ∈ s.rte.cached →
              exec (.rtePacketReceive mem e) s = .next (fin ((t.useQpc r.index).rteProcess r.index p r e mem))) ∧
            (r.index ∉ s.rte.cached → exec (.rtePacketReceive mem e) s = .next (fin (t.toLayby r.index p)))))))) ∧
  (∀ (i : Fin 262144) (p : Pkt) (r : RPkt) (e : ReadEnd) (mem : Bytes) (s : State) (q : Qp), q = s.qp i.val →
    (q.st ∉ [.rtr, .rts] → s.rteProcess i.val p r e mem = s.rteDrop p 4) ∧
    (q.st ∈ [.rtr, .rts] → s.hostStop q.func.toNat = none → q.multipath = true → r.partition ≠ q.partition.toNat % 2 ^ 24 →
      s.rteProcess i.val p r e mem = (s.rteDrop p 3).raise 0x603 q.func.toNat i.val 0)) ∧
  (∀ (s : State) (q : Qp) (key va total right : Nat) (m : Mr), m = s.mr (key / 256) →
    (m.valid = false → s.mrCheck q key va total right = some 1) ∧
    (m.valid = true → m.gen.toNat ≠ key % 256 → s.mrCheck q key va total right = some 2) ∧
    (m.valid = true → m.gen.toNat = key % 256 → (m.func ≠ q.func ∨ m.pd ≠ q.pd) → s.mrCheck q key va total right = some 3) ∧
    (m.valid = true → m.gen.toNat = key % 256 → m.func = q.func → m.pd = q.pd →
      (bit m.access right = false → s.mrCheck q key va total right = some 4) ∧
      (bit m.access right = true → (s.mrCheck q key va total right = none ↔
        m.base.toNat ≤ va ∧ va + total ≤ m.base.toNat + m.len.toNat)))) ∧
  (∀ (i : Fin 262144) (cpl : CplStatus) (mems : List (ReadEnd × Bytes)) (s : State),
    (s.tagOf (.context i.val) = none → exec (.contextFetchComplete i cpl mems) s = .next (s.contextHere i.val mems)) ∧
    (∀ x, s.tagOf (.context i.val) = some x → exec (.contextFetchComplete i cpl mems) s =
      .next (s.tlp x.link (fun s => ((s.cplTaken x cpl []).contextHere i.val mems).turnOffDone x.link)))) ∧
  (∀ (i : Nat) (mems : List (ReadEnd × Bytes)) (s t u : State),
    ((i ∉ s.rte.fetching ∨ s.reads (.context i) = true) → s.contextHere i mems = s) ∧
    (i ∈ s.rte.fetching → s.reads (.context i) = false → t = (s.clearLayby i).endFetch i →
      u = ((if (t.qp i).st = .absent then t else t.setQpcCache (i :: t.rte.cached.filter (· ≠ i))).runLayby i (s.laybyOf i) mems).beginFetches →
      s.contextHere i mems = u.rtePump u.rte.waitTx.length)) ∧
  (∀ (i : Nat) (st : Status) (s : State), i ∈ s.rte.fetching → s.ownerFailed (.context i) st = (s.fetchFailed i).beginFetches) ∧
  (∀ (i : Fin 262144) (a b : List LaybyPkt) (l : LaybyPkt) (s t : State), s.rte.layby = a ++ l :: b →
    (∀ x ∈ a, x.qp ≠ i.val) → l.qp = i.val → t = { s with rte := { s.rte with layby := a ++ b } }.rteDrop l.pkt 7 →
    (i.val ∈ t.rte.fetching → exec (.laybyTimeout i) s = .next (t.setOverran i.val (t.overran i.val + 1))) ∧
    (i.val ∉ t.rte.fetching → exec (.laybyTimeout i) s = .next (t.raise 0x604 (t.qp i.val).func.toNat i.val 1))) ∧
  (∀ (i : Fin 262144) (s : State) (q : Qp), q = s.qp i.val →
    (q.st ∈ [.rtr, .rts] → q.unacked ≠ 0 → exec (.ackTimer i) s = .next (s.sendAck i.val 0)) ∧
    (∀ (t : State) (u : Qp), q.st = .rts → q.timerOn = true → q.rnrPsn = none →
      u = { q with ops := q.ops.map (fun o => if 0 < o.sent then { o with retries := o.retries + 1 } else o) } →
      t = (s.bump R.RTE_TIMEOUT_CNT).setQp i.val u →
      (q.retryCount.toNat = fld q.retry 0 4 → exec (.retransmitTimeout i) s = .next (t.qpFatal i.val 0x40A0 0)) ∧
      (q.retryCount.toNat ≠ fld q.retry 0 4 → exec (.retransmitTimeout i) s =
        .next (((t.setQp i.val { u with retryCount := q.retryCount + 1, timerStart := t.now }).resend i.val).suspend i.val
          u.lostPaths))) ∧
    (∀ path : Fin 64, exec (.pathResume i path) s =
      .next (s.setQp i.val { q with pathSuspend := setBit q.pathSuspend path.val false })) ∧
    (q.rnrPsn.isSome = true → exec (.rnrWaitExpire i) s = .next (((s.setQp i.val { q with
      rnrPsn := none, timerOn := q.unackPsn != q.nextPsn, timerStart := s.now }).resend i.val).pumpQp i.val pumpFuel)) ∧
    (q.rate ≠ 0 → ∃ n, (n = q.rate.toNat * 5 / 4 ∨ n = q.rate.toNat * 5 / 4 + 1) ∧ exec (.rateIncrease i) s =
      .next (s.drew.setQp i.val { q with rate := BitVec.ofNat 24 (if 12800000 < n then 0 else n) }))) ∧
  (∀ (k : Fin 65536) (tr : Tracker) (s t : State), s.tracker k.val = some tr →
    t = ((s.setTracker k.val none).bump R.RTE_TRACKER_AGED_CNT).raise 0x607 (s.qp tr.qp).func.toNat tr.qp
      (tr.first.toNat % 65536) →
    (∀ (a b : List RMsg) (m : RMsg), tr.read = false → (s.qp tr.qp).msgs = a ++ m :: b → m.first = tr.first → 0 < m.total →
      m.whole = false → (∀ x ∈ a, ¬ (x.first = tr.first ∧ 0 < x.total ∧ x.whole = false)) →
      exec (.trackerAged k) s = .next (t.msgWhole tr.qp { m with status := 0x40A5 })) ∧
    (tr.read = false → (∀ x ∈ (s.qp tr.qp).msgs, ¬ (x.first = tr.first ∧ 0 < x.total ∧ x.whole = false)) →
      exec (.trackerAged k) s = .next t) ∧
    (tr.read = true → exec (.trackerAged k) s = .next (t.setQp tr.qp { s.qp tr.qp with
      ops := (s.qp tr.qp).ops.map (fun o => if o.kind = 5 ∧ o.first = tr.first then { o with got := 0 } else o) })))

/-- Setting CC.EN makes the controller READY, FATAL for an invalid value, or leaves it DISABLED until the instance is
ACTIVE; clearing it aborts its commands and resets it; CC.SHN in READY begins a shutdown that flushes every path and
ends when no command is outstanding; an internal error makes READY FATAL. A doorbell inside its queue moves the tail or
the head; any other is counted and reported. While the controller is READY and its instance ACTIVE, a command is fetched
from the queue whose turn it is; without a free slot it waits, counted once; it gets Invalid Command Opcode when it is
not supported. A read that fails fetches nothing (the model's choice, log entry 95). CREATE_IO_SQ, CREATE_IO_CQ and the
deletions check their arguments in order; a completion queue in use stays. In a page of no controller, and between
doorbells and registers, offsets hold nothing. AQA, ASQ and ACQ outlive a disable: that is presumed from NVM Express
(log entry 71). (R358, R359, R360, R361, R372) -/
def Obligations.StorageControllers : Prop :=
  (∀ (f : Fin 4104) (v : Word) (s : State) (c : Ctrl), s.barOpen f.val = true → s.isStorage f.val = true → c = s.ctrl f.val →
    (∀ t : State, bit c.cc 0 = false → bit v 0 = true → t = s.setCtrl f.val { c with cc := v } →
      (c.enableOk v = false →
        exec (.ccEnable f v) s = .next (t.updCtrl f.val (fun c => { c with st := .fatal, cfs := true }))) ∧
      (c.enableOk v = true → (s.inst f.val).st = .active →
        exec (.ccEnable f v) s = .next (t.ctrlReady f.val)) ∧
      (c.enableOk v = true → (s.inst f.val).st ≠ .active →
        exec (.ccEnable f v) s = .next (t.updCtrl f.val (fun c => { c with enWaits := true })))) ∧
    (bit c.cc 0 = true → exec (.ccDisable f) s =
      .next ((s.ctrlReset f.val).updCtrl f.val (fun x => { x with aqa := c.aqa, asq := c.asq, acq := c.acq }))) ∧
    (c.st = .ready → bit v 0 = true → (fld v 14 2 = 1 ∨ fld v 14 2 = 2) → exec (.shutdownNotify f v) s =
      .next ((s.setCtrl f.val { c with cc := v, st := .shutting }).each (s.ctrlPaths f.val) (fun s k => s.ownCmd k 0 0 0)))) ∧
  (∀ (f : Fin 4104) (v : Word) (off : BitVec 14) (row : Instr) (s : State), s.barOpen f.val = true →
    (s.isStorage f.val = false → row ∈ [.ccEnable f v, .ccDisable f, .shutdownNotify f v, .nvmeDoorbell f off v] →
      exec row s = .next (s.bump R.HIU_BAD_ACCESS_CNT)) ∧
    (s.isStorage f.val = true → 0x3007 < off.toNat → off.toNat < 0x3C00 →
      exec (.nvmeDoorbell f off v) s = .next (s.bump R.HIU_BAD_ACCESS_CNT))) ∧
  (∀ (f : Fin 4104) (s : State) (c : Ctrl), c = s.ctrl f.val →
    (c.st = .shutting → (∀ x ∈ s.sce.cmds, x.func = f.val → x.sq = 0 ∧ x.op = 0x0C) →
      exec (.shutdownComplete f) s = .next (s.setCtrl f.val { c with st := .shutdown })) ∧
    (c.st = .ready → exec (.ctrlFatal f) s =
      .next ((s.setCtrl f.val { c with st := .fatal, cfs := true }).raise 0x681 f.val (f.val + 1) 0)) ∧
    (c.st ≠ .ready → exec (.ctrlFatal f) s = .next s)) ∧
  (∀ (f : Fin 4104) (y : Fin 1025) (off : BitVec 14) (v : Word) (s : State) (k : NvQueue), s.barOpen f.val = true →
    s.isStorage f.val = true →
    (off.toNat = 0x1000 + 8 * y.val → k = s.nvSq f.val y.val →
      (k.live = true → v.toNat < k.size → exec (.nvmeDoorbell f off v) s =
        .next (s.setNvSq f.val y.val { k with tail := v.toNat })) ∧
      (k.live = true → k.size ≤ v.toNat → exec (.nvmeDoorbell f off v) s = .next (s.badNvDb f.val 1)) ∧
      (k.live = false → exec (.nvmeDoorbell f off v) s = .next (s.badNvDb f.val 0))) ∧
    (off.toNat = 0x1004 + 8 * y.val → k = s.nvCq f.val y.val →
      (k.live = true → v.toNat < k.size → exec (.nvmeDoorbell f off v) s =
        .next ((s.setNvCq f.val y.val { k with head := v.toNat }).nvDrain f.val y.val k.waiting.length)) ∧
      (k.live = true → k.size ≤ v.toNat → exec (.nvmeDoorbell f off v) s = .next (s.badNvDb f.val 1)) ∧
      (k.live = false → exec (.nvmeDoorbell f off v) s = .next (s.badNvDb f.val 0)))) ∧
  (∀ (f : Fin 4104) (sq : Fin 1025) (e : ReadEnd) (sqe : BitVec 512) (s r : State) (k : NvQueue) (left : Option Nat), k = s.nvSq f.val sq.val →
    s.sqTurn f.val = some (sq.val, left) → (s.ctrl f.val).st = .ready → (s.inst f.val).st = .active → s.canRead f.val = true →
    r = s.readNow f.val none (k.base + BitVec.ofNat 64 (64 * k.head)) 64 e →
    (s.sce.cmds.length < 262144 → readStatus e ≠ none →
      exec (.nvmeCommandFetch f sq sqe e) s = .next (r.readAfter f.val e)) ∧
    (262144 ≤ s.sce.cmds.length → (s.ctrl f.val).slotWait = false → exec (.nvmeCommandFetch f sq sqe e) s =
      .next (((s.bump R.SCE_SLOT_WAIT_CNT).raise 0x688 f.val s.sce.cmds.length 0).updCtrl f.val
        (fun c => { c with slotWait := true }))) ∧
    (262144 ≤ s.sce.cmds.length → (s.ctrl f.val).slotWait = true → exec (.nvmeCommandFetch f sq sqe e) s = .next s) ∧
    (∀ (slot : Nat) (t u : State), s.sce.cmds.length < 262144 → readStatus e = none →
      slot = r.newSlot →
      t = ((r.drew.sqTake f.val sq.val left).if_
          (s.ctrl f.val).psEntry.isSome (fun u => u.bump R.SCE_PS_HOLD_CNT)).if_ ((s.ctrl f.val).ps == 2)
            (fun u => u.updCtrl f.val (fun c => { c with ps := c.lastOper })) →
      u = { t with sce := { t.sce with cmds := t.sce.cmds ++ [⟨slot, f.val, sq.val, sqe, [], [], [], none, false⟩] } } →
      (nvSupported (sq.val != 0) (fld sqe 0 8) = true → fld sqe 8 2 = 0 → exec (.nvmeCommandFetch f sq sqe e) s = .next u) ∧
      (nvSupported (sq.val != 0) (fld sqe 0 8) = false ∨ fld sqe 8 2 ≠ 0 →
        exec (.nvmeCommandFetch f sq sqe e) s = .next (u.nvFail slot 0x001)))) ∧
  (∀ (slot : Fin 262144) (c : NCmd) (q n : Nat) (s : State), q = c.dw 10 % 65536 → n = c.dw 10 / 65536 →
    (s.nvRuns slot.val false 0x05 c = true → exec (.createIoCq slot) s = .next (
      if s.qidOk c.func q = false ∨ (s.nvCq c.func q).live = true then s.nvFail c.slot 0x101
      else if n = 0 ∨ 16383 < n then s.nvFail c.slot 0x102
      else if c.dw 11 % 2 = 0 then s.nvFail c.slot 0x002
      else if s.vectors c.func ≤ c.dw 11 / 65536 then s.nvFail c.slot 0x108
      else (s.setNvCq c.func q { NvQueue.absent with
        live := true, base := BitVec.ofNat 64 (fld c.sqe 192 64), size := n + 1, vector := c.dw 11 / 65536
        ien := c.dw 11 / 2 % 2 == 1 }).nvEnd c.slot 0 0)) ∧
    (s.nvRuns slot.val false 0x01 c = true → exec (.createIoSq slot) s = .next (
      if s.qidOk c.func q = false ∨ (s.nvSq c.func q).live = true then s.nvFail c.slot 0x101
      else if n = 0 ∨ 16383 < n then s.nvFail c.slot 0x102
      else if s.qidOk c.func (c.dw 11 / 65536) = false then s.nvFail c.slot 0x101
      else if (s.nvCq c.func (c.dw 11 / 65536)).live = false then s.nvFail c.slot 0x100
      else if c.dw 11 % 2 = 0 then s.nvFail c.slot 0x002
      else (s.setNvSq c.func q { NvQueue.absent with
        live := true, base := BitVec.ofNat 64 (fld c.sqe 192 64), size := n + 1, cq := c.dw 11 / 65536 }).nvEnd c.slot 0 0)) ∧
    (s.nvRuns slot.val false 0x00 c = true →
      (s.qidOk c.func q = false ∨ (s.nvSq c.func q).live = false → exec (.deleteIoSq slot) s = .next (s.nvFail c.slot 0x101)) ∧
      (s.qidOk c.func q = true → (s.nvSq c.func q).live = true → exec (.deleteIoSq slot) s = .next ((State.setNvSq
        (s.each (s.sce.cmds.filter (fun x => x.func == c.func && x.sq == q)) (fun s x =>
          (s.each x.pieces (fun s p => s.sendAbort p)).nvFail x.slot 0x008)) c.func q NvQueue.absent).nvEnd c.slot 0 0))) ∧
    (s.nvRuns slot.val false 0x04 c = true →
      (s.qidOk c.func q = false ∨ (s.nvCq c.func q).live = false → exec (.deleteIoCq slot) s = .next (s.nvFail c.slot 0x101)) ∧
      (s.qidOk c.func q = true → (s.nvCq c.func q).live = true →
        (∃ e ∈ s.sce.sq, e.1 / 2048 = c.func ∧ e.1 % 2048 ≠ 0 ∧ e.2.live = true ∧ e.2.cq = q) →
        exec (.deleteIoCq slot) s = .next (s.nvFail c.slot 0x10C)) ∧
      (s.qidOk c.func q = true → (s.nvCq c.func q).live = true →
        (∀ e ∈ s.sce.sq, e.1 / 2048 = c.func → e.1 % 2048 ≠ 0 → e.2.live = true → e.2.cq ≠ q) →
        exec (.deleteIoCq slot) s = .next ((s.setNvCq c.func q NvQueue.absent).nvEnd c.slot 0 0))))

/-- GET_LOG_PAGE and IDENTIFY write the bytes of a supported page through the data pointer and complete. ABORT ends a
command not sent, aborts one sent at its target and waits, and reports one that is gone; a fifth fails. SET_FEATURES
stores a value and completes, forwarding the write cache; power management begins entry at once and completes when no
I/O command is outstanding; GET_FEATURES returns the old state until then. ASYNC_EVENT_REQUEST reports a kept event or
waits; a fifth fails. NVME_CTRL_CFG sets PS1_MBPS. NVME_NS_ATTACH attaches and detaches an entry and reports the change.
BACKEND_CONNECT opens a connection and waits, or closes it. Arguments out of range are refused. SCE_IND_READ shows the
controller record; the bytes of the other records, whose layout the spec does not give, are free. How many queues an
allocation of none reports is free. (R363, R364, R371, R373, R374) -/
def Obligations.StorageAdmin : Prop :=
  (∀ (slot : Fin 262144) (ptrs : List (BitVec 128)) (e : ReadEnd) (c : NCmd) (s : State),
    (s.nvRuns slot.val false 0x02 c = true →
      (s.logPage c.func (c.dw 10 % 256) = none → exec (.getLogPage slot ptrs e) s = .next (s.nvFail c.slot 0x109)) ∧
      (∀ (b : Bytes) (t : State), s.logPage c.func (c.dw 10 % 256) = some (b, t) → exec (.getLogPage slot ptrs e) s =
        .next (t.nvOut c ptrs e (slice b (c.dw 12 + c.dw 13 * 2 ^ 32) (4 * (c.dw 10 / 65536 + c.dw 11 % 65536 * 65536 + 1)))))) ∧
    (s.nvRuns slot.val false 0x06 c = true →
      (c.dw 10 % 256 = 0 → exec (.identify slot ptrs e) s =
        .next ((s.identNs c.func c.nsid).2.nvOut c ptrs e (s.identNs c.func c.nsid).1)) ∧
      (c.dw 10 % 256 = 1 → exec (.identify slot ptrs e) s = .next ((s.identCtrl c.func).2.nvOut c ptrs e (s.identCtrl c.func).1)) ∧
      (c.dw 10 % 256 = 2 → exec (.identify slot ptrs e) s = .next (s.nvOut c ptrs e
        (padTo 4096 (((s.nsids c.func).filter (fun n => decide (c.nsid < n))).map (fun n => leBytes 4 n)).flatten))) ∧
      (c.dw 10 % 256 = 3 → s.attached c.func c.nsid = none → exec (.identify slot ptrs e) s = .next (s.nvFail c.slot 0x00B)) ∧
      (c.dw 10 % 256 = 3 → s.attached c.func c.nsid ≠ none → exec (.identify slot ptrs e) s =
        .next ((s.freeBytes 4096).2.nvOut c ptrs e (s.freeBytes 4096).1)) ∧
      (3 < c.dw 10 % 256 → exec (.identify slot ptrs e) s = .next (s.nvFail c.slot 0x002))) ∧
    (∀ (b : Bytes), (s.hostStop c.func ≠ none → s.nvOut c ptrs e b = s.nvFail c.slot 0x004) ∧
      (s.hostStop c.func = none → (ptrs = [] ∨ s.canRead c.func = true) →
        (∀ st, dptrRanges c.sqe (s.ctrl c.func).page b.length ptrs = .error st → s.nvOut c ptrs e b = s.nvFail c.slot st) ∧
        (∀ (r : List (Nat × Nat)) (t : State), dptrRanges c.sqe (s.ctrl c.func).page b.length ptrs = .ok r →
          t = s.nvLists c ptrs e → (ptrs = [] ∨ readStatus e = none) →
          s.nvOut c ptrs e b = if (t.scatter c.func r b).2 = true then (t.scatter c.func r b).1.nvEnd c.slot 0 0
            else (t.scatter c.func r b).1.nvFail c.slot 0x004)))) ∧
  (∀ (slot : Fin 262144) (c : NCmd) (s : State), s.nvRuns slot.val false 0x08 c = true →
    (4 ≤ s.nvWaiting c.func 8 → exec (.nvmeAbort slot) s = .next (s.nvFail c.slot 0x103)) ∧
    (s.nvWaiting c.func 8 < 4 → ∀ is : NCmd → Bool,
      is = (fun x => x.func == c.func && x.sq == c.dw 10 % 65536 && x.cid == c.dw 10 / 65536 && x.slot != c.slot) →
      (s.sce.cmds.find? is = none → exec (.nvmeAbort slot) s = .next (s.nvEnd c.slot 0 1)) ∧
      (∀ x, s.sce.cmds.find? is = some x →
        (x.pieces = [] → exec (.nvmeAbort slot) s = .next ((s.nvFail x.slot 0x007).nvEnd c.slot 0 0)) ∧
        (x.pieces ≠ [] → exec (.nvmeAbort slot) s = .next (((s.each x.pieces (fun s p => s.sendAbort p)).updCmd x.slot
          (fun x => { x with aborter := some c.slot })).nvWait c.slot))))) ∧
  (∀ (slot : Fin 262144) (c : NCmd) (id : Nat) (x : Ctrl) (s : State), id = c.dw 10 % 256 → x = s.ctrl c.func →
    (s.nvRuns slot.val false 0x09 c = true →
      (id ≠ 2 → id ∉ featureIds → exec (.setFeatures slot) s = .next (s.nvFail c.slot 0x002)) ∧
      (∀ (key : Nat) (t : State), id ∈ featureIds → key = (if id = 9 then 9 + c.dw 11 % 65536 * 256 else id) →
        t = s.setCtrl c.func { x with features := mapSet (fun _ => 0) x.features key (BitVec.ofNat 32 (c.dw 11)) } →
        (id ≠ 7 → exec (.setFeatures slot) s = .next ((if id = 6 then
          t.each (t.ctrlPaths c.func) (fun s k => s.ownCmd k 0x09 6 (c.dw 11)) else t).nvEnd c.slot 0 0)) ∧
        (id = 7 → 1 ≤ (s.inst c.func).alloc.nvmeIoq → exec (.setFeatures slot) s =
          .next (t.drew.nvEnd c.slot 0 (((s.inst c.func).alloc.nvmeIoq - 1) * 65537))) ∧
        (id = 7 → (s.inst c.func).alloc.nvmeIoq = 0 → ∃ n, exec (.setFeatures slot) s = .next (t.drew.nvEnd c.slot 0 n))) ∧
      (id = 2 → x.psEntry ≠ none → exec (.setFeaturesPowerManagement slot) s = .next s) ∧
      (id = 2 → x.psEntry = none → 2 < c.dw 11 % 32 →
        exec (.setFeaturesPowerManagement slot) s = .next (s.nvFail c.slot 0x002)) ∧
      (id = 2 → x.psEntry = none → c.dw 11 % 32 ≤ 2 → exec (.setFeaturesPowerManagement slot) s =
        .next (((s.setCtrl c.func { x with psEntry := some (BitVec.ofNat 2 (c.dw 11)) }).nvWait c.slot).psCheck c.func))) ∧
    (s.nvRuns slot.val false 0x0A c = true →
      (id = 2 → exec (.getFeatures slot) s = .next (s.nvEnd c.slot 0 x.ps.toNat)) ∧
      (id ∈ featureIds → id ≠ 7 → exec (.getFeatures slot) s = .next (s.nvEnd c.slot 0
        (mapGet (fun _ => 0) x.features (if id = 9 then 9 + c.dw 11 % 65536 * 256 else id)).toNat)) ∧
      (id ≠ 2 → id ∉ featureIds → exec (.getFeatures slot) s = .next (s.nvFail c.slot 0x002)) ∧
      (id = 7 → 1 ≤ (s.inst c.func).alloc.nvmeIoq → exec (.getFeatures slot) s = .next (s.drew.nvEnd c.slot 0
        (((s.inst c.func).alloc.nvmeIoq - 1) * 65537))) ∧
      (id = 7 → (s.inst c.func).alloc.nvmeIoq = 0 → ∃ n, exec (.getFeatures slot) s = .next (s.drew.nvEnd c.slot 0 n))) ∧
    (s.nvRuns slot.val false 0x0C c = true →
      (4 ≤ s.nvWaiting c.func 0x0C → exec (.asyncEventRequest slot) s = .next (s.nvFail c.slot 0x105)) ∧
      (s.nvWaiting c.func 0x0C < 4 → x.events = [] → exec (.asyncEventRequest slot) s = .next (s.nvWait c.slot)) ∧
      (∀ w rest, s.nvWaiting c.func 0x0C < 4 → x.events = w :: rest → exec (.asyncEventRequest slot) s =
        .next ((s.setCtrl c.func { x with events := rest }).nvEnd c.slot 0 w.toNat)))) ∧
  (∀ (ch : BitVec 13) (seq : BitVec 4) (c : OpenCmd) (f : Nat) (s : State), s.ready ch seq 0x6B c = true →
    f = leAt (padTo 8 c.args) 0 2 →
    (8192 ≤ f ∨ leAt (padTo 8 c.args) 2 2 ≠ 0 ∨ s.isStorage f = false →
      exec (.nvmeCtrlCfg ch seq) s = .next (s.answered ch c 0x1082 0)) ∧
    (f < 8192 → leAt (padTo 8 c.args) 2 2 = 0 → s.isStorage f = true → (f ≠ ch.toNat → ch.toNat ≠ s.manager → exec (.nvmeCtrlCfg ch seq) s = .next (s.answered ch c 0x2071 0))) ∧
    (f < 8192 → leAt (padTo 8 c.args) 2 2 = 0 → s.isStorage f = true → f = ch.toNat ∨ ch.toNat = s.manager → exec (.nvmeCtrlCfg ch seq) s = .next ((s.setCtrl f { s.ctrl f with
      ps1Mbps := BitVec.ofNat 32 (leAt (padTo 8 c.args) 4 4) }).answered ch c 0 0))) ∧
  (∀ (ch : BitVec 13) (seq : BitVec 4) (c : OpenCmd) (b : Bytes) (n f id : Nat) (s : State), s.ready ch seq 0x6C c = true →
    b = padTo 20 c.args → n = leAt b 0 4 → f = leAt b 4 2 → id = leAt b 6 2 → n < 65536 → 1 ≤ id → id ≤ 1024 →
    leAt b 8 1 < 4 → leAt b 9 1 = 0 → leAt b 14 2 = 0 → s.isStorage f = true → leAt b 10 2 < 4096 →
    (leAt b 12 2 < 4096 ∨ leAt b 12 2 = 0xFFFF) →
    ((leAt b 8 1 % 2 = 0 ∧ s.attached f id ≠ none) ∨ (leAt b 8 1 % 2 = 1 ∧ s.attached f id ≠ some n) →
      exec (.nvmeNsAttach ch seq) s = .next (s.answered ch c 0x1082 0)) ∧
    (leAt b 8 1 % 2 = 0 → s.attached f id = none → exec (.nvmeNsAttach ch seq) s =
      .next ((((s.setNsEntry n ⟨true, decide (2 ≤ leAt b 8 1), leAt b 10 2, leAt b 12 2, BitVec.ofNat 32 (leAt b 16 4), false⟩)
        |>.setAttached f id (n + 1)).nsChanged f id).answered ch c 0 0)) ∧
    (∀ t : State, leAt b 8 1 % 2 = 1 → s.attached f id = some n → t = s.setAttached f id 0 →
      exec (.nvmeNsAttach ch seq) s = .next (((if (∀ e ∈ t.sce.attach, e.2 ≠ n + 1) then t.setNsEntry n NsEntry.empty
        else t).nsChanged f id).answered ch c 0 0))) ∧
  (∀ (ch : BitVec 13) (seq : BitVec 4) (c : OpenCmd) (b : Bytes) (s : State), s.ready ch seq 0x6C c = true → b = padTo 20 c.args →
    (65536 ≤ leAt b 0 4 ∨ leAt b 6 2 = 0 ∨ 1024 < leAt b 6 2 ∨ 4 ≤ leAt b 8 1 ∨ leAt b 9 1 ≠ 0 ∨ leAt b 14 2 ≠ 0 ∨
      s.isStorage (leAt b 4 2) = false ∨ 4096 ≤ leAt b 10 2 ∨ (4096 ≤ leAt b 12 2 ∧ leAt b 12 2 ≠ 0xFFFF)) →
    exec (.nvmeNsAttach ch seq) s = .next (s.answered ch c 0x1082 0)) ∧
  (∀ (ch : BitVec 13) (seq : BitVec 4) (c : OpenCmd) (b : Bytes) (k : Nat) (s : State), s.ready ch seq 0x6D c = true →
    b = padTo 568 c.args → k = leAt b 0 2 →
    (backendArgsOk b = false → exec (.backendConnect ch seq) s = .next (s.answered ch c 0x1082 0)) ∧
    (backendArgsOk b = true → leAt b 3 1 / 16 % 2 = 0 → (s.conn k).opened = false →
      ∃ x : Conn, x.opened = true ∧ x.up = false ∧ x.rdma = (leAt b 2 1 == 1) ∧ x.flags = BitVec.ofNat 8 (leAt b 3 1) ∧
        x.queues = leAt b 4 2 ∧ x.depth = leAt b 6 2 ∧ x.localAddr = BitVec.ofNat 128 (leAt b 8 16) ∧
        x.remoteAddr = BitVec.ofNat 128 (leAt b 24 16) ∧ x.port = leAt b 40 2 ∧ x.mss = leAt b 42 2 ∧ x.leaf = leAt b 44 4 ∧
        x.qpBase = leAt b 48 4 ∧ x.sa = leAt b 52 4 ∧ x.subnqn = slice b 56 256 ∧ x.hostnqn = slice b 312 256 ∧
        x.waiter = some (ch.toNat, seq.toNat) ∧
        exec (.backendConnect ch seq) s = .next (((s.drew.setConn k x).connect k).markWaiting ch.toNat seq)) ∧
    (backendArgsOk b = true → leAt b 3 1 / 16 % 2 = 0 → (s.conn k).opened = true →
      exec (.backendConnect ch seq) s = .next (s.answered ch c 0x1082 0)) ∧
    (backendArgsOk b = true → leAt b 3 1 / 16 % 2 = 1 →
      ∃ w st, exec (.backendConnect ch seq) s =
        .next (((((if (s.conn k).up = true then s.connDown k 3 else s).drew).setConn k Conn.closed).finish w st 0).answered ch c 0 0))) ∧
  (∀ (v : Word) (s t : State), s.blockHeld 13 = false → fld v 30 2 = 1 →
    t = s.wr R.SCE_IND_CTL ((v &&& 0xF0FFFFFF).setWidth 64) →
    (fld v 28 2 = 0 → fld v 0 24 < 4104 → exec (.sceIndRead v) s =
      .next ((t.each (List.range 16) (fun u k => u.wr (R.SCE_IND_DATA k)
        (BitVec.ofNat 64 (leAt (t.ctrlRecord (fld v 0 24)) (4 * k) 4)))).wr R.SCE_IND_STATUS 0x80000000)) ∧
    (∀ lim, (fld v 28 2, lim) ∈ [(0, 4104), (1, 65536), (2, 4096), (3, 4104 * 2048)] →
      (lim ≤ fld v 0 24 → exec (.sceIndRead v) s = .next (t.wr R.SCE_IND_STATUS 0xC0000000)) ∧
      (∀ (b : Bytes) (u : State), fld v 28 2 ≠ 0 → fld v 0 24 < lim → (b, u) = t.freeBytes 256 → exec (.sceIndRead v) s =
        .next ((u.each (List.range (b.length / 4)) (fun u k => u.wr (R.SCE_IND_DATA k) (BitVec.ofNat 64 (leAt b (4 * k) 4)))).wr
          R.SCE_IND_STATUS 0x80000000))))

/-- A namespace command without a namespace, writing a read-only one, or without a path fails; with one, a Flush, Read,
Write, Write Zeroes and deallocate go to the back end, a write after its data is read. A transfer above 2 MiB fails. A
completed piece moves its data or logs the failure, and the command completes with its last piece, with the status of
the failing piece of lowest LBA. A connection comes up, is refused for its target, goes down (commands resent or
failed), reconnects, and is down after 7 retransmission timeouts. A namespace is lost after CTRL_LOSS_S; a back-end
timeout aborts. A segment is dropped with its reason, a gap in the stream by a free window, or taken, its
ready-to-transfer answered. The status codes are presumed from NVM Express (log entry 70). (R362, R363, R366, R367,
R369, R370, R371, R375) -/
def Obligations.StorageIo : Prop :=
  (∀ (slot : Fin 262144) (ptrs : List (BitVec 128)) (r : ReadEnd) (data : Bytes) (c : NCmd) (op : Nat) (writes : Bool)
    (row : Instr) (s : State), (op, writes, row) ∈ [(0x00, false, .nvmeFlush slot), (0x01, true, .nvmeWrite slot ptrs r data),
      (0x02, false, .nvmeRead slot ptrs r), (0x08, true, .writeZeroes slot), (0x09, true, .datasetManagement slot ptrs r data)] →
    s.nvRuns slot.val true op c = true →
    (s.attached c.func c.nsid = none → exec row s = .next (s.nvFail c.slot 0x00B)) ∧
    (∀ (n : Nat) (e : NsEntry), s.attached c.func c.nsid = some n → e = s.nsEntry n →
      (writes = true → e.readOnly = true → exec row s = .next (s.nvFail c.slot 0x020)) ∧
      ((writes = true → e.readOnly = false) → s.nsPath e = none →
        exec row s = .next (if e.lost = true then s.nvFail c.slot 0x082 else s.nvEnd c.slot 0x022 0)))) ∧
  (∀ (slot : Fin 262144) (ptrs : List (BitVec 128)) (r : ReadEnd) (data : Bytes) (c : NCmd) (n k blocks len : Nat) (e : NsEntry)
    (s : State), s.attached c.func c.nsid = some n → e = s.nsEntry n → s.nsPath e = some k →
    blocks = c.dw 12 % 65536 + 1 → len = blocks * (s.conn k).blockBytes →
    (s.nvRuns slot.val true 0x00 c = true → exec (.nvmeFlush slot) s = .next (s.toBackend c e k 0)) ∧
    (s.nvRuns slot.val true 0x08 c = true → e.readOnly = false →
      exec (.writeZeroes slot) s = .next (s.toBackend c e k blocks)) ∧
    (s.nvRuns slot.val true 0x02 c = true →
      (2097152 < len → exec (.nvmeRead slot ptrs r) s = .next (s.nvFail c.slot 0x002)) ∧
      (len ≤ 2097152 → exec (.nvmeRead slot ptrs r) s = .next (s.nvRanges c len ptrs r (fun u l =>
        u.toBackend { c with ranges := l } e k blocks)))) ∧
    (s.nvRuns slot.val true 0x01 c = true → e.readOnly = false →
      (2097152 < len → exec (.nvmeWrite slot ptrs r data) s = .next (s.nvFail c.slot 0x002)) ∧
      (len ≤ 2097152 → exec (.nvmeWrite slot ptrs r data) s = .next (s.nvTake c len ptrs r data
        (fun u c => u.toBackend c e k blocks)))) ∧
    (s.nvRuns slot.val true 0x09 c = true → e.readOnly = false →
      (c.dw 11 % 8 = 4 → exec (.datasetManagement slot ptrs r data) s =
        .next (s.nvTake c (16 * (c.dw 10 % 256 + 1)) ptrs r data (fun u c => u.toBackend c e k 0))) ∧
      (c.dw 11 % 8 ≠ 4 → exec (.datasetManagement slot ptrs r data) s = .next (s.nvFail c.slot 0x002)))) ∧
  (∀ (s u : State) (c : NCmd) (len : Nat) (ptrs : List (BitVec 128)) (e : ReadEnd) (data : Bytes)
    (g : State → List (Nat × Nat) → State) (h : State → NCmd → State),
    (s.hostStop c.func ≠ none → s.nvRanges c len ptrs e g = s.nvFail c.slot 0x004 ∧
      s.nvTake c len ptrs e data h = s.nvFail c.slot 0x004) ∧
    (s.hostStop c.func = none → s.canRead c.func = false → s.nvTake c len ptrs e data h = s ∧
      (ptrs ≠ [] → s.nvRanges c len ptrs e g = s)) ∧
    (s.hostStop c.func = none →
      (∀ st, dptrRanges c.sqe (s.ctrl c.func).page len ptrs = .error st →
        (ptrs = [] ∨ s.canRead c.func = true → s.nvRanges c len ptrs e g = s.nvFail c.slot st) ∧
        (s.canRead c.func = true → s.nvTake c len ptrs e data h = s.nvFail c.slot st)) ∧
      (∀ r, dptrRanges c.sqe (s.ctrl c.func).page len ptrs = .ok r →
        (ptrs = [] → s.nvRanges c len ptrs e g = g s r) ∧
        (ptrs ≠ [] → s.canRead c.func = true → s.nvRanges c len ptrs e g = if readStatus e = none then g (s.nvLists c ptrs e) r
          else ((s.nvLists c ptrs e).nvFail c.slot 0x004).readAfter c.func e) ∧
        (s.canRead c.func = true → u = (s.nvLists c ptrs (.cpl .ok)).readRanges c.func e r →
          s.nvTake c len ptrs e data h = if readStatus e = none then h u { c with data := padTo len data, ranges := r }
            else (u.nvFail c.slot 0x004).readAfter c.func e)))) ∧
  (∀ (slot : Fin 262144) (c : NCmd) (i off len : Nat) (p : NPiece) (status : BitVec 12) (data : Bytes) (s t : State),
    s.cmd slot.val = some c → c.pieces[i]? = some p → p.result = none →
    (off, len) = pieceSpan c p (s.conn p.conn).blockBytes →
    t = s.setPiece slot.val i (fun p => { p with result := some (status.setWidth 16) }) →
    (status ≠ 0 → exec (.backendCompletion slot i status data) s =
      .next ((t.backFail c status.toNat).nvSettle slot.val)) ∧
    (∀ (u : State) (whole : Bool), status = 0 → c.op = 2 → (u, whole) = t.scatter c.func (rangesFrom c.ranges off) (padTo len data) →
      exec (.backendCompletion slot i status data) s = .next ((if whole then (u.bumpN R.SCE_READ_BYTE_CNT len).updCtrl c.func
          (fun x => { x with readBytes := x.readBytes + BitVec.ofNat 64 len })
        else u.setPiece slot.val i (fun p => { p with result := some 0x004 })).nvSettle slot.val)) ∧
    (status = 0 → c.op = 1 → exec (.backendCompletion slot i status data) s =
      .next (((t.bumpN R.SCE_WRITE_BYTE_CNT len).updCtrl c.func
        (fun x => { x with writeBytes := x.writeBytes + BitVec.ofNat 64 len })).nvSettle slot.val)) ∧
    (status = 0 → c.op ≠ 1 → c.op ≠ 2 → exec (.backendCompletion slot i status data) s = .next (t.nvSettle slot.val))) ∧
  (∀ (slot : Nat) (c : NCmd) (s : State), s.cmd slot = some c → c.pieces ≠ [] →
    ((∀ p ∈ c.pieces, p.result = some 0) → s.nvSettle slot = s.nvEnd slot 0 0) ∧
    (∀ (a b : List NPiece) (p : NPiece) (st : Status), c.pieces = a ++ p :: b → (∀ x ∈ a, x.result = some 0) →
      p.result = some st → st ≠ 0 → (∀ x ∈ b, x.result ≠ none) → s.nvSettle slot = s.nvEnd slot st.toNat 0) ∧
    ((∃ p ∈ c.pieces, p.result = none) → s.nvSettle slot = s)) ∧
  (∀ (k : Fin 4096) (why : Fin 4) (s : State), (s.conn k.val).up = true →
    exec (.backendDown k why) s = .next (s.connDown k.val why.val)) ∧
  (∀ (k why : Nat) (s t u : State) (moved : List Nat),
    t = (s.updConn k (fun c => { c with up := false, connecting := false, unacked := [], timeouts := 0 })).raise 0x683 noFunc k why →
    (u, moved) = t.sce.cmds.foldl (fun (a : State × List Nat) c => ((a.1.failOver k c).1,
      if (a.1.failOver k c).2 then a.2 ++ [((a.1.failOver k c).1.attached c.func c.nsid).getD 0] else a.2)) (t, []) →
    s.connDown k why = (u.bumpN R.SCE_FAILOVER_CNT moved.length).each moved.eraseDups
      (fun s n => s.raise 0x684 noFunc n (moved.filter (· == n)).length)) ∧
  (∀ (k other : Nat) (c : NCmd) (e : NsEntry) (s t : State) (lost : NPiece → Prop) (ps : List NPiece),
    e = s.nsEntry ((s.attached c.func c.nsid).getD 0) → other = (if e.primary = k then e.secondary else e.primary) →
    lost = (fun p => p.conn = k ∧ p.result = none) →
    ((∀ p ∈ c.pieces, ¬ lost p) → s.failOver k c = (s, false)) ∧
    ((∃ p ∈ c.pieces, lost p) → (s.conn other).up = true → other ≠ 0xFFFF → (∀ p ∈ c.pieces, lost p → p.resent = false) →
      ps = c.pieces.map (fun p => if p.conn = k ∧ p.result = none then { p with conn := other, resent := true } else p) →
      t = s.updCmd c.slot (fun x => { x with pieces := ps }) →
      s.failOver k c = (t.each (ps.filter (fun p => p.conn == other && p.resent && p.result.isNone))
        (fun s p => s.sendPiece c e p), true)) ∧
    ((∃ p ∈ c.pieces, lost p) → ((s.conn other).up = false ∨ other = 0xFFFF ∨ ∃ p ∈ c.pieces, lost p ∧ p.resent = true) →
      s.failOver k c = ((s.updCmd c.slot (fun x => { x with pieces := x.pieces.map (fun p =>
        if p.conn = k ∧ p.result = none then { p with result := some 0x022 } else p) })).nvSettle c.slot, false))) ∧
  (∀ (k : Fin 4096) (status : BitVec 12) (mdts block unit : Nat) (bounds : List Nat) (vwc : Bool) (c : Conn) (s : State),
    c = s.conn k.val → c.opened = true → c.up = false → c.connecting = true →
    (∀ st, (status ≠ 0 ∧ st = BitVec.ofNat 16 (0x6000 + status.toNat)) ∨
        (status = 0 ∧ (mdts < 65536 ∨ (block ≠ 512 ∧ block ≠ 4096)) ∧ st = 0x30B0) →
      (c.waiter.isSome = true → exec (.backendUp k status mdts block unit bounds vwc) s =
        .next ((s.setConn k.val Conn.closed).finish c.waiter st 0)) ∧
      (c.waiter = none → exec (.backendUp k status mdts block unit bounds vwc) s =
        .next (s.setConn k.val { c with connecting := false }))) ∧
    (∀ t : State, status = 0 → 65536 ≤ mdts → (block = 512 ∨ block = 4096) →
      t = s.setConn k.val { c with
        up := true, connecting := false, timeouts := 0, mdtsBytes := mdts, blockBytes := block, unitBytes := min 65536 unit
        bounds := bounds, vwc := vwc, waiter := none } →
      exec (.backendUp k status mdts block unit bounds vwc) s = .next ((State.raise { t with sce := { t.sce with
        ns := t.sce.ns.map (fun e => if e.2.primary = k.val ∨ e.2.secondary = k.val then (e.1, { e.2 with lost := false }) else e) } }
        0x682 noFunc k.val 0).finish c.waiter 0 0))) ∧
  (∀ (k : Fin 4096) (s : State) (c : Conn), c = s.conn k.val →
    (c.opened = true → c.up = false → exec (.reconnectTimer k) s = .next (s.connect k.val)) ∧
    (c.up = true → c.rdma = false → c.unacked ≠ [] → 6 ≤ c.timeouts →
      exec (.tcpRetransmitTimeout k) s = .next (s.connDown k.val 0)) ∧
    (c.up = true → c.rdma = false → c.unacked ≠ [] → c.timeouts < 6 → exec (.tcpRetransmitTimeout k) s =
      .next ((s.drew.setConn k.val { c with timeouts := c.timeouts + 1 }).sceOut c (tcpFrame c 0x10
        (c.sndNxt - BitVec.ofNat 32 c.unacked.length).toNat c.rcvNxt.toNat s.fresh (c.unacked.take (max 1 c.mss)))))) ∧
  (∀ (n : Fin 65536) (s : State) (e : NsEntry), e = s.nsEntry n.val → e.used = true → s.nsPath e = none →
    exec (.ctrlLossTimeout n) s = .next (s.setNsEntry n.val { e with lost := true })) ∧
  (∀ (slot : Fin 262144) (c : NCmd) (s t : State), s.cmd slot.val = some c → (∃ p ∈ c.pieces, p.result = none) →
    t = ((s.each c.pieces (fun s p => s.sendAbort p)).bump R.SCE_TIMEOUT_CNT) →
    exec (.ioTimeout slot) s = .next (((t.raise 0x685 c.func ((t.attached c.func c.nsid).getD 0) c.cid).updCmd c.slot (fun x =>
      { x with pieces := x.pieces.map (fun p => if p.result = none then { p with result := some 0x022 } else p) })).nvSettle
        c.slot)) ∧
  (∀ (seg : SegSeen) (slot : Option (Fin 262144)) (p : Pkt) (rest : List Pkt) (s t : State), s.sce.input = p :: rest →
    t = { s with sce := { s.sce with input := rest } } →
    (s.blockHeld 13 = true → exec (.scePacketReceive seg slot) s = .next (t.heldDropLate 13 p)) ∧
    (s.blockHeld 13 = false →
      (s.connOf p = none → exec (.scePacketReceive seg slot) s = .next (t.dropLate p (R.SCE_DROP_CNT 0) 13 0)) ∧
      (∀ k, s.connOf p = some k → (s.conn k).up = false → (s.conn k).connecting = false →
        exec (.scePacketReceive seg slot) s = .next (t.dropLate p (R.SCE_DROP_CNT 6) 13 6)) ∧
      (∀ (k l4 : Nat) (sq ack : Word) (syn : Bool), s.connOf p = some k → (s.conn k).up = true ∨ (s.conn k).connecting = true →
        l4 = spGet p.sp SP.L4_OFF → sq = BitVec.ofNat 32 (beAt p.bytes (l4 + 4) 4) → ack = BitVec.ofNat 32 (beAt p.bytes (l4 + 8) 4) →
        syn = (beAt p.bytes (l4 + 13) 1 / 2 % 2 == 1) →
        (syn = true → exec (.scePacketReceive seg slot) s =
          .next ((t.setConn k { s.conn k with rcvNxt := sq + 1 }).endPkt p none)) ∧
        (∀ (c : Conn) (len d acked : Nat) (u : State) (gone : Bool), syn = false → c = s.conn k →
          len = (if spGet p.sp SP.L3_TYPE = 2 then
              spGet p.sp SP.L3_OFF + 40 + beAt p.bytes (spGet p.sp SP.L3_OFF + 4) 2
            else spGet p.sp SP.L3_OFF + beAt p.bytes (spGet p.sp SP.L3_OFF + 2) 2) - l4 - beAt p.bytes (l4 + 12) 1 / 16 * 4 →
          d = (sq - c.rcvNxt).toNat → acked = (ack - (c.sndNxt - BitVec.ofNat 32 c.unacked.length)).toNat →
          u = t.setConn k { c with
            rcvNxt := if d = 0 ∨ 2147483648 ≤ d then sq + BitVec.ofNat 32 len else c.rcvNxt
            unacked := if acked ≤ c.unacked.length then c.unacked.drop acked else c.unacked
            timeouts := if 0 < acked ∧ acked ≤ c.unacked.length then 0 else c.timeouts } →
          gone = (match slot with | some x => (s.cmd x.val).isNone | none => false) →
          (2147483648 ≤ d → (2147483648 ≤ (sq + BitVec.ofNat 32 len - c.rcvNxt).toNat ∨
              (sq + BitVec.ofNat 32 len = c.rcvNxt ∧ 0 < len)) →
            exec (.scePacketReceive seg slot) s = .next (t.dropLate p (R.SCE_DROP_CNT 4) 13 4)) ∧
          (0 < d → d < 2147483648 → fld s.fresh 0 30 < d →
            exec (.scePacketReceive seg slot) s = .next (t.drew.dropLate p (R.SCE_DROP_CNT 1) 13 1)) ∧
          (((d < 2147483648 ∧ d ≤ fld s.fresh 0 30) ∨ (2147483648 ≤ d ∧
              (sq + BitVec.ofNat 32 len - c.rcvNxt).toNat < 2147483648 ∧ ¬ (sq + BitVec.ofNat 32 len = c.rcvNxt ∧ 0 < len))) →
            (seg = .badDigest → exec (.scePacketReceive seg slot) s = .next (u.dropLate p (R.SCE_DROP_CNT 2) 13 2)) ∧
            (seg = .malformed → exec (.scePacketReceive seg slot) s = .next (u.dropLate p (R.SCE_DROP_CNT 3) 13 3)) ∧
            (gone = true → (seg = .good ∨ ∃ i off n, seg = .r2t i off n) →
              exec (.scePacketReceive seg slot) s = .next (u.dropLate p (R.SCE_DROP_CNT 5) 13 5)) ∧
            (gone = false → seg = .good → exec (.scePacketReceive seg slot) s = .next (u.endPkt p none)) ∧
            (∀ i off n, gone = false → seg = .r2t i off n →
              (∀ (y : Fin 262144) (x : NCmd) (pc : NPiece), slot = some y → (u.endPkt p none).cmd y.val = some x →
                x.pieces[i]? = some pc →
                exec (.scePacketReceive seg slot) s = .next ((u.endPkt p none).sendH2C x pc off n)) ∧
              (slot = none → exec (.scePacketReceive seg slot) s = .next (u.endPkt p none))))))))

/-- SA_ADD refuses bad fields, another owner's index and an installed one, then installs the record, at once or waiting
for the port's frame boundary, which makes it current. SA_DELETE clears VALID and waits until the packets begun have
left. A number just committed is not accepted again; a higher one is. A faulty core leaves service once. Compression,
decompression and CRCs count and complete, an output beyond DEST_LEN leaving free bytes, a failed write giving its
status. CIPH_IND_READ with OP 1 shows the record with KEY 0. The patrol scrubber counts a corrected lane, handles an
uncorrectable word as its owner gives, and moves on; a packet buffer row is counted by bank. A spilled packet is staged
where cells remain. A held block, an off scrubber, or nothing waiting leave the state. (R377, R378, R379, R380, R384,
R387, R388, R394, R400, R402) -/
def Obligations.CipherAndBuffers : Prop :=
  (∀ (ch : BitVec 13) (seq : BitVec 4) (c : OpenCmd) (b : Bytes) (k : Nat) (a : SaRec) (s : State),
    s.ready ch seq 0x6E c = true → b = padTo 256 c.args → k = leAt b 0 4 → a = saOf b ((s.saOwner k).getD ch.toNat) →
    (saFieldsOk b = false → exec (.saAdd ch seq) s = .next (s.answered ch c 0x10C0 0)) ∧
    (saFieldsOk b = true →
      (s.maySa ch.toNat k a.proto = false → exec (.saAdd ch seq) s = .next (s.answered ch c 0x2071 0)) ∧
      (s.maySa ch.toNat k a.proto = true →
        ((s.sa k).valid = true → leAt b 12 1 % 2 = 0 → exec (.saAdd ch seq) s = .next (s.answered ch c 0x30C0 0)) ∧
        ((s.sa k).valid = false ∨ leAt b 12 1 % 2 = 1 →
          (leAt b 12 1 / 2 % 2 = 0 → exec (.saAdd ch seq) s = .next ((s.setSa k a).answered ch c 0 0)) ∧
          (∀ t : State, leAt b 12 1 / 2 % 2 = 1 → t = (s.setSa k a).setTxNext a.port k → exec (.saAdd ch seq) s =
            .next ({ t with ciph := { t.ciph with
              switchWait := t.ciph.switchWait ++ [(a.port, ch.toNat, seq.toNat)] } }.markWaiting ch.toNat seq)))))) ∧
  (∀ (p : Fin 8) (s : State), s.txNext p.val = 0xFFFFF → exec (.macsecTxSwitch p) s = .next s) ∧
  (∀ (p : Fin 8) (s t : State), s.txNext p.val ≠ 0xFFFFF →
    t = ({ s.setTxNext p.val 0xFFFFF with ciph := { (s.setTxNext p.val 0xFFFFF).ciph with
      txCurrent := mapSet (fun _ => 0xFFFFF) s.ciph.txCurrent p.val (s.txNext p.val)
      switchWait := s.ciph.switchWait.filter (fun w => w.1 != p.val) } }).raise (0x710 + p.val) noFunc (s.txNext p.val)
        (fld (s.sa (s.txNext p.val)).spi 0 2) →
    exec (.macsecTxSwitch p) s =
      .next (t.each (s.ciph.switchWait.filter (fun w => w.1 == p.val)) (fun s w => s.finish (some w.2) 0 0))) ∧
  (∀ (ch : BitVec 13) (seq : BitVec 4) (c : OpenCmd) (s : State), s.ready ch seq 0x6F c = true → 1048576 ≤ c.imm →
    exec (.saDelete ch seq) s = .next (s.answered ch c 0x1082 0)) ∧
  (∀ (ch : BitVec 13) (seq : BitVec 4) (c : OpenCmd) (k : Nat) (a : SaRec) (s t : State), s.ready ch seq 0x6F c = true →
    k = c.imm → k < 1048576 → a = s.sa k →
    (s.maySa ch.toNat k (if a.valid = true then a.proto else 1) = false →
      exec (.saDelete ch seq) s = .next (s.answered ch c 0x2071 0)) ∧
    (s.maySa ch.toNat k (if a.valid = true then a.proto else 1) = true →
      t = s.setSa k { a with control := setBit a.control 31 false } → exec (.saDelete ch seq) s =
        .next ({ t with ciph := { t.ciph with deleting := t.ciph.deleting ++ [SaWait.mk k (some (ch.toNat, seq.toNat))] } }.markWaiting
          ch.toNat seq))) ∧
  (∀ (k : Fin 1048576) (s : State), exec (.saDeleteDone k) s =
    .next (State.each { s with ciph := { s.ciph with deleting := s.ciph.deleting.filter (fun w => w.sa != k.val) } }
      (s.ciph.deleting.filter (fun w => w.sa == k.val)) (fun s w => s.finish w.waiter 0 0))) ∧
  (∀ (a : SaRec) (n m : Nat), n < 2 ^ 64 → m < 2 ^ 64 →
    (a.window ≠ 0 → (a.commit n).accepts n = false) ∧ (max a.seq.toNat n < m → (a.commit n).accepts m = true) ∧
    ((a.commit n).seq.toNat = max a.seq.toNat n)) ∧
  (∀ (core : Fin 20) (s : State),
    (bit s.ciph.cores core.val = false → exec (.coreFault core) s = .next s) ∧
    (bit s.ciph.cores core.val = true → exec (.coreFault core) s =
      .next ({ s with ciph := { s.ciph with cores := setBit s.ciph.cores core.val false } }.raise 0x706 noFunc core.val
        (bitsSet (setBit s.ciph.cores core.val false) 20).length))) ∧
  (∀ (r : BitVec 20) (no op : Nat) (row : Instr) (o : RingOp) (src out : Bytes) (s : State),
    (op, row) ∈ [(1, .deflateCompress r no), (3, .zstdCompress r no)] → s.opRuns r.toNat no (0x5000 + op) true o = true →
    src = padTo (descLen o.desc) o.data →
    out = Config.compress op (if fld o.desc 224 8 = 0 then 6 else fld o.desc 224 8) (fld o.desc 232 8) src →
    (fld o.desc 192 32 < out.length → ∃ crc, exec row s = .next ((s.dsShort (s.ring r.toNat) o).dsEnd r.toNat o 0x30C8 0 crc)) ∧
    (out.length ≤ fld o.desc 192 32 → ∃ crc, (bit o.desc 240 = true → crc = (crc32c src).toNat) ∧ exec row s =
      .next ((s.drew.hostPut (s.ring r.toNat).func (s.ringPasid (s.ring r.toNat)) (BitVec.ofNat 64 (descB o.desc)) out).1.dsEnd r.toNat o
        ((s.drew.hostPut (s.ring r.toNat).func (s.ringPasid (s.ring r.toNat)) (BitVec.ofNat 64 (descB o.desc)) out).2.2.getD 0)
        (s.drew.hostPut (s.ring r.toNat).func (s.ringPasid (s.ring r.toNat)) (BitVec.ofNat 64 (descB o.desc)) out).2.1 crc))) ∧
  (∀ (r : BitVec 20) (no op : Nat) (row : Instr) (o : RingOp) (res : Config.Inflate) (s : State),
    (op, row) ∈ [(2, .deflateDecompress r no), (4, .zstdDecompress r no)] → s.opRuns r.toNat no (0x5000 + op) true o = true →
    res = Config.decompress op (fld o.desc 232 8) (padTo (descLen o.desc) o.data) →
    (res = .bad → ∃ crc, exec row s = .next (s.drew.dsEnd r.toNat o 0x10C8 0 crc)) ∧
    (res = .unsupported → ∃ crc, exec row s = .next (s.drew.dsEnd r.toNat o 0x10C9 0 crc)) ∧
    (∀ out, res = .data out → fld o.desc 192 32 < out.length → ∃ crc, exec row s = .next ((s.dsShort (s.ring r.toNat) o).dsEnd r.toNat o 0x30C8 0 crc)) ∧
    (∀ out, res = .data out → out.length ≤ fld o.desc 192 32 → ∃ crc, exec row s =
      .next ((s.drew.hostPut (s.ring r.toNat).func (s.ringPasid (s.ring r.toNat)) (BitVec.ofNat 64 (descB o.desc)) out).1.dsEnd r.toNat o
        ((s.drew.hostPut (s.ring r.toNat).func (s.ringPasid (s.ring r.toNat)) (BitVec.ofNat 64 (descB o.desc)) out).2.2.getD 0)
        (s.drew.hostPut (s.ring r.toNat).func (s.ringPasid (s.ring r.toNat)) (BitVec.ofNat 64 (descB o.desc)) out).2.1 crc))) ∧
  (∀ (r : BitVec 20) (no : Nat) (o : RingOp) (s : State),
    (s.opRuns r.toNat no 0x5010 false o = true → exec (.crc32c r no) s = .next (s.dsEnd r.toNat o 0 0
      (crcFrom 0x82F63B78 (BitVec.ofNat 32 (fld o.desc 256 32)) (padTo (descLen o.desc) o.data)).toNat)) ∧
    (s.opRuns r.toNat no 0x5011 false o = true → exec (.crc32Ieee r no) s = .next (s.dsEnd r.toNat o 0 0
      (crcFrom 0xEDB88320 (BitVec.ofNat 32 (fld o.desc 256 32)) (padTo (descLen o.desc) o.data)).toNat))) ∧
  (∀ (v : Word) (s : State), s.blockHeld 14 = true ∨ fld v 30 2 ≠ 1 → exec (.ciphIndRead v) s = .next s) ∧
  (∀ (v : Word) (s : State), s.blockHeld 14 = false → fld v 30 2 = 1 → exec (.ciphIndRead v) s =
    .next (((s.wr R.CIPH_IND_CTL ((v &&& 0xC00FFFFF).setWidth 64)).each (List.range 16) (fun t k =>
      t.wr (R.CIPH_IND_DATA k) (BitVec.ofNat 64 (leAt (s.sa (fld v 0 20)).record (4 * k) 4)))).wr R.CIPH_IND_STATUS 0x80000000)) ∧
  (∀ (err : HbmErr) (lane : Fin 64) (raced : Bool) (s : State), (bit (s.rd R.HBMC_PATROL_CFG) 31 = false ∧ s.hbm.patrol = 0) ∨ s.blockHeld 16 = true →
    exec (.scrubRead err lane raced) s = .next s) ∧
  (∀ (lane : Fin 64) (raced : Bool) (s : State), bit (s.rd R.HBMC_PATROL_CFG) 31 = true ∨ s.hbm.patrol ≠ 0 → s.blockHeld 16 = false →
    (exec (.scrubRead .clean lane raced) s = .next s.patrolNext) ∧
    (exec (.scrubRead .corrected lane raced) s = .next (s.laneCorr s.hbm.patrol.toNat lane.val).patrolNext) ∧
    (exec (.scrubRead .uncorrectable lane raced) s = .next
      (s.patrolBad s.hbm.patrol.toNat ((s.hbmOwner s.hbm.patrol.toNat).getD 0)).patrolNext)) ∧
  (∀ (err : HbmErr) (cell : Fin 524288) (bank : Fin 32) (s : State), s.blockHeld 15 = true ∨ bank.val / 4 ≠ cell.val % 8 →
    exec (.pbufScrub err cell bank) s = .next s) ∧
  (∀ (cell : Fin 524288) (bank : Fin 32) (s : State), s.blockHeld 15 = false → bank.val / 4 = cell.val % 8 →
    (exec (.pbufScrub .clean cell bank) s = .next s) ∧
    (exec (.pbufScrub .corrected cell bank) s = .next ((s.bump R.PBUF_ECC_CORR_CNT).bump (R.PBUF_BANK_CORR_CNT bank.val))) ∧
    (exec (.pbufScrub .uncorrectable cell bank) s =
      .next ((s.bump R.PBUF_ECC_UNCORR_CNT).raise 0x740 noFunc cell.val bank.val))) ∧
  (∀ (q : Fin 262144) (pos : Fin 4) (s : State), (∀ e, (s.leafQ q.val)[pos.val]? = some e → e.pkt.place ≠ 1 ∨
      s.stageCells < s.hbm.stageUsed + e.pkt.cells ∨ s.blockHeld 15 = true) → exec (.stageComplete q pos) s = .next s) ∧
  (∀ (q : Fin 262144) (pos : Fin 4) (e : QPkt) (s t : State), (s.leafQ q.val)[pos.val]? = some e → e.pkt.place = 1 →
    s.hbm.stageUsed + e.pkt.cells ≤ s.stageCells → s.blockHeld 15 = false →
    t = { s with hbm := { s.hbm with stageUsed := s.hbm.stageUsed + e.pkt.cells } }.bump R.PBUF_STAGE_CNT →
    exec (.stageComplete q pos) s = .next (t.setLeafQ q.val ((s.leafQ q.val).set pos.val { e with
      pkt := { e.pkt with place := 2 } })))

/-- WARM_RST_N in BOOT or RUNNING takes the device to WARM_HELD with its cause, keeping fuses, flashes, HBM bytes,
Milepost time, the field map and queue pair generations, clearing rings, functions, TM and parser; a keyed request does
the same, and PERST_N of link 0 with PERST_FULL. PERST_N otherwise takes a link in DL_Up down and any other into port
reset; one that is absent or asserted leaves the state. WARM_RELEASE enters BOOT once LOCK is 1. A cold reset keeps
fuses, flashes, field map, record log and checkpoint, and clears every register. COLD_RELEASE samples the straps once
the supplies are valid; board-test mode only starts the recorder. PLL_LOCK starts the clocks and, from a cold reset,
Milepost time at 0; PLL_LOCK_TIMEOUT counts; a lost lock is a warm reset with the clocks stopped. A clock within 2 % is
recorded, another counted and raised, the third in a row being a lost lock. A block reset sets its bit, clears the
block, keeps the other blocks' registers, flushes its crossings and raises BLOCK_RESET with their words; the release
clears the bit and raises its event. All valid rails make the supplies valid; their fall is a cold reset. (R250, R405,
R406, R407, R409, R410, R416, R418, R428, R493, R494) -/
def Obligations.ClocksAndResets : Prop :=
  (∀ (s t : State) (cause : Nat), s.inReset = false → t = s.warmReset cause → cause < 16 →
    t.clk.dev = .warmHeld ∧ t.clk.warmCause.toNat = cause ∧ t.boot.fuse = s.boot.fuse ∧ t.boot.flash0 = s.boot.flash0 ∧
    t.boot.flash1 = s.boot.flash1 ∧ t.hbm.byte = s.hbm.byte ∧ t.line.now = s.line.now ∧ t.tether.mapFlash = s.tether.mapFlash ∧
    t.rte.qp = keepGens s.rte.qp ∧ t.kite = { KiteState.reset with fwGen := s.kite.fwGen } ∧ t.rings = .reset ∧ t.fnm = .reset ∧
    t.tm = .reset ∧ t.parse = .reset ∧ t.pending = s.pending) ∧
  (∀ s : State, exec .warmReset s = .next (s.warmReset 1) ∧ (s.inReset = true → s.warmReset 1 = s)) ∧
  (∀ (v : Word) (s : State),
    (fld v 16 16 = 0x5752 → bit v 0 = true → exec (.clkrstResetReq v) s = .next (s.warmReset 3)) ∧
    (fld v 16 16 ≠ 0x5752 ∨ bit v 0 = false → exec (.clkrstResetReq v) s = .next s)) ∧
  (∀ (k : Fin 4) (s t : State), s.linkThere k.val = true → (s.link k.val).perst = false →
    t = s.setLink k.val { s.link k.val with perst := true } →
    (s.hiu.perstFull = true → k.val = 0 → exec (.perstAssert k) s = .next ((t.raiseNow 0x00C 0 1).warmReset 2)) ∧
    (s.hiu.perstFull = false ∨ k.val ≠ 0 → (s.link k.val).dlUp = true →
      exec (.perstAssert k) s = .next ((t.raise (0x00C + k.val) noFunc 0 0).linkDown k.val .reset)) ∧
    (s.hiu.perstFull = false ∨ k.val ≠ 0 → (s.link k.val).dlUp = false →
      exec (.perstAssert k) s = .next (((t.raise (0x00C + k.val) noFunc 0 0).setLink k.val
        { (t.raise (0x00C + k.val) noFunc 0 0).link k.val with st := .reset }).portReset k.val))) ∧
  (∀ (k : Fin 4) (s : State), s.linkThere k.val = false ∨ (s.link k.val).perst = true → exec (.perstAssert k) s = .next s) ∧
  (∀ s : State, s.clk.dev ≠ .warmHeld ∨ s.clk.lock = false → exec .warmRelease s = .next s) ∧
  (∀ s : State, s.clk.dev = .warmHeld → s.clk.lock = true → ∃ code, (s.clk.warmCause ≠ 5 → s.clk.warmCause ≠ 6 →
      code = satTo 65535 ((s.now - s.rd R.CLKRST_LAST_WARM_TIME).toNat / 1000)) ∧
    exec .warmRelease s = .next (State.raise { s with
      clk := { s.clk with dev := .boot }
      tether := { s.tether with startRuns := true }
      free := if s.clk.warmCause = 5 ∨ s.clk.warmCause = 6 then s.free + 1 else s.free } 0x785 noFunc s.clk.warmCause.toNat code)) ∧
  (∀ (s t : State) (cause : Nat), t = s.coldReset cause → cause < 16 →
    t.clk.dev = .coldHeld ∧ t.clk.coldCause.toNat = cause ∧ t.clk.lock = false ∧ t.clk.running = 0 ∧ t.regs = [] ∧
    t.boot.fuse = s.boot.fuse ∧ t.boot.flash0 = s.boot.flash0 ∧ t.boot.flash1 = s.boot.flash1 ∧
    t.tether.mapFlash = s.tether.mapFlash ∧ t.obs.log = s.obs.log ∧ t.obs.ckpt = s.obs.ckpt ∧ t.hbm = .reset ∧ t.line = .reset ∧
    t.kite = .reset ∧ t.rte = .reset ∧ t.tether.tripN = true ∧ t.tether.faultN = true ∧ t.pending = s.pending) ∧
  (∀ s : State, exec .coldReset s = .next ({ s with clk := { s.clk with sysRstN := false } }.coldReset 1)) ∧
  (∀ (straps : BitVec 12) (s : State), s.clk.dev ≠ .coldHeld → exec (.coldRelease straps) s = .next s) ∧
  (∀ (straps : BitVec 12) (s t : State), s.clk.dev = .coldHeld → s.clk.suppliesValid = true → bit straps 9 = true →
    t = { s with
      clk := { s.clk with sysRstN := true, dev := .tetherStart }
      hiu := { s.hiu with
        hostSplit := BitVec.ofNat 2 (fld straps 0 2), perstFull := bit straps 2, mgrSel := BitVec.ofNat 3 (fld straps 3 3) }
      boot := { s.boot with strapOrder := BitVec.ofNat 3 (fld straps 6 3) }
      tether := { s.tether with boardTest := true } } →
    exec (.coldRelease straps) s = .next ((t.recorderLoad.coldStart).wrf R.TETHER_STATE 29 3 2)) ∧
  (∀ (straps : BitVec 12) (s : State), s.clk.dev = .coldHeld →
    (s.clk.suppliesValid = false → exec (.coldRelease straps) s = .next { s with clk := { s.clk with sysRstN := true } }) ∧
    (s.clk.suppliesValid = true → bit straps 9 = false → exec (.coldRelease straps) s = .next { s with
      clk := { s.clk with sysRstN := true, dev := .tetherStart }
      hiu := { s.hiu with
        hostSplit := BitVec.ofNat 2 (fld straps 0 2), perstFull := bit straps 2, mgrSel := BitVec.ofNat 3 (fld straps 3 3) }
      boot := { s.boot with strapOrder := BitVec.ofNat 3 (fld straps 6 3) }
      tether := { s.tether with boardTest := false } })) ∧
  (∀ (us : BitVec 16) (s t : State), s.clk.lock = false → s.tether.trip = none →
    t = { s with clk := { s.clk with lock := true, lockUs := us, running := 0x3F, streak := [], unlockObj := none } } →
    (s.clk.dev = .pllLock → s.clk.unlockObj = none → exec (.pllLock us) s = .next { t with
      clk := { t.clk with dev := .boot }
      line := { t.line with now := 0, slew := 0 }
      tether := { t.tether with startRuns := true } }) ∧
    (s.clk.dev = .warmHeld → s.clk.unlockObj = none → exec (.pllLock us) s = .next t) ∧
    (∀ o, s.clk.dev = .warmHeld → s.clk.unlockObj = some o → exec (.pllLock us) s = .next (t.raise 0x780 noFunc o us.toNat)) ∧
    (∀ o u, s.clk.dev = .pllLock → s.clk.unlockObj = some o → u = t.raise 0x780 noFunc o us.toNat →
      exec (.pllLock us) s = .next { u with
        clk := { u.clk with dev := .boot }
        line := { u.line with now := 0, slew := 0 }
        tether := { u.tether with startRuns := true } })) ∧
  (∀ (us : BitVec 16) (s : State), s.clk.lock = true ∨ s.tether.trip.isSome = true ∨ (s.clk.dev ≠ .pllLock ∧ s.clk.dev ≠ .warmHeld) →
    exec (.pllLock us) s = .next s) ∧
  (∀ s : State,
    (s.clk.dev ≠ .pllLock ∨ s.clk.lock = true → exec .pllLockTimeout s = .next s) ∧
    (s.clk.lock = false → exec .pllUnlock s = .next s) ∧
    (s.clk.dev = .pllLock → s.clk.lock = false → exec .pllLockTimeout s = .next (s.bump R.CLKRST_UNLOCK_CNT)) ∧
    (s.clk.lock = true → exec .pllUnlock s = .next (s.lockLost 0 5)) ∧
    (s.clk.lock = true → s.inReset = false → ((s.lockLost 0 5).clk.dev = .warmHeld ∧ (s.lockLost 0 5).clk.lock = false ∧
      (s.lockLost 0 5).clk.running = 0))) ∧
  (∀ (counts : List Word) (s : State), s.clk.lock = false → exec (.clockMeasure counts) s = .next s) ∧
  (∀ (counts : List Word) (s : State), s.clk.lock = true → exec (.clockMeasure counts) s =
    .next (s.each (List.range 6) (fun s k => if bit s.clk.running k = true then s.clockMeasured k (counts.getD k 0).toNat else s))) ∧
  (∀ (k m : Nat) (s : State), k < 6 → ((m : Int) - (nominalKhz.getD k 0 : Int)).natAbs * 50 ≤ nominalKhz.getD k 0 →
    s.clockMeasured k m = { s.wr (R.CLKRST_FREQ_MEAS k) (BitVec.ofNat 64 m) with
      clk := { s.clk with streak := mapSet (fun _ => 0) s.clk.streak k 0 } }) ∧
  (∀ (k m n : Nat) (s t : State), k < 6 → m < 8388608 → nominalKhz.getD k 0 < ((m : Int) - (nominalKhz.getD k 0 : Int)).natAbs * 50 →
    t = ((s.wr (R.CLKRST_FREQ_MEAS k) (BitVec.ofNat 64 m)).bump R.CLKRST_DEVIATION_CNT).raise 0x781 noFunc k
      (BitVec.ofInt 16 (((m : Int) - (nominalKhz.getD k 0 : Int)) * 1000 / (nominalKhz.getD k 0 : Int))).toNat →
    n = mapGet (fun _ => 0) t.clk.streak k + 1 →
    (n < 3 → s.clockMeasured k m = { t with clk := { t.clk with streak := mapSet (fun _ => 0) t.clk.streak k n } }) ∧
    (3 ≤ n → s.clockMeasured k m =
      State.lockLost { t with clk := { t.clk with streak := mapSet (fun _ => 0) t.clk.streak k 0 } } 1 6)) ∧
  (∀ (b : Fin 29) (s : State), blockCan b.val = false ∨ s.blockHeld b.val = true → exec (.blockReset b) s = .next s) ∧
  (∀ (b : Fin 29) (s t : State), blockCan b.val = true → s.blockHeld b.val = false →
    t = (State.wrf { s with clk := { s.clk with
      blockDrops := mapSet (fun _ => 0) s.clk.blockDrops b.val (s.rd (R.CLKRST_BLOCK_DROP_CNT b.val)) } }
        R.CLKRST_BLOCK_RESET b.val 1 1).blockClear b.val →
    exec (.blockReset b) s = .next (((((State.if_ { t with regs := mapKeep (blockKeeps b.val) t.regs } (b.val == 5)
      State.lanesReset).crossingsReset b.val).bumpN (R.CLKRST_FLUSH_CNT b.val) (s.wordsInto b.val)).raise 0x786 noFunc b.val
      (satTo 65535 (s.wordsInto b.val))))) ∧
  (∀ (b : Fin 29) (s : State), s.blockHeld b.val = false → exec (.blockResetRelease b) s = .next s) ∧
  (∀ (b : Fin 29) (s t : State), s.blockHeld b.val = true →
    t = (State.wrf { s with clk := { s.clk with blockDrops := mapDel s.clk.blockDrops b.val } } R.CLKRST_BLOCK_RESET b.val 1 0).raise
      0x787 noFunc b.val (satTo 65535 (s.rd (R.CLKRST_BLOCK_DROP_CNT b.val) -
        mapGet (fun _ => 0) s.clk.blockDrops b.val).toNat) →
    exec (.blockResetRelease b) s = .next (if b.val = 19 then t.recorderLoad else t)) ∧
  (∀ (n : Nat) (s : State),
    (s.clk.dev = .coldHeld → s.clk.suppliesValid = false → exec (.powerUp n) s =
      .next { s with clk := { s.clk with suppliesValid := decide (8 ≤ n), coldCause := 0 } }) ∧
    (s.clk.dev ≠ .coldHeld ∨ s.clk.suppliesValid = true → exec (.powerUp n) s = .next s) ∧
    (n = 0 → exec (.powerDown n) s = .next ({ s with clk := { s.clk with suppliesValid := false } }.coldReset 0)) ∧
    (1 ≤ n → n < 8 → exec (.powerDown n) s =
      .next ({ s.drainLog with clk := { s.drainLog.clk with suppliesValid := false } }.coldReset 0)) ∧
    (8 ≤ n → exec (.powerDown n) s = .next s))

/-- SELF_TEST from TETHER_START goes on to PLL_LOCK with a healthy control core and at least three healthy instances,
else it stays in SELF_TEST with the fault output on, assigning engine roles and cipher cores. A temperature level rises
at once to the highest threshold reached, TRIP beginning the trip, and falls by one after a cool time; a rail beyond its
limits trips, and recovery is a cold reset. A trip stands once, with its output low and the die held. A ping is posted
when none is unanswered; an unanswered one, the start watchdog and an unconfirmed trial end in a warm reset of the
Tether's. A trial tick confirms or counts down. A mark enters the field map once, or is lost when it is full. A hung
watched block is reset and released, the third hang in an hour resets the die. Each second adds one operating second and
one second to each histogram; a checkpoint holds the counters, or its failure is shown; records reach flash in order;
merged ones are summed up each hour; the manager clears, others are denied. Where a command's condition does not hold,
the state stays. (R422, R423, R424, R425, R427, R428, R430, R432, R437, R438, R471, R474) -/
def Obligations.TetherAndRecorder : Prop :=
  (∀ (res : SelfTest) (s : State), s.clk.dev ≠ .tetherStart ∨ s.tether.boardTest = true → exec (.selfTest res) s = .next s) ∧
  (∀ (res : SelfTest) (s : State) (n : Nat), s.clk.dev = .tetherStart → s.tether.boardTest = false →
    n = (s.cwayPlan (res.insts.map (fun i => i.val))).healthy →
    ∃ t : State, exec (.selfTest res) s = .next t ∧
      (res.ctlCore = true ∨ n < 3 → t.clk.dev = .selfTest ∧ t.tether.faultN = false) ∧
      (res.ctlCore = false → 3 ≤ n → t.clk.dev = .pllLock ∧ t.tether.faultN = s.tether.faultN) ∧
      t.eng.role = (s.engineAssign (res.engines.map (fun e => e.val))).1.eng.role ∧
      t.ciph.cores = res.cores.foldl (fun (v : BitVec 20) c => setBit v c.val false) 0xFFFFF ∧
      t.boot.fuse = s.boot.fuse ∧ t.tether.mapFlash = s.tether.mapFlash) ∧
  (∀ (temps : List (BitVec 16)) (cool : Bool) (s u v : State) (hot : Int) (at_ old up new : Nat),
    u = s.each (List.range 19) (fun u i => u.wr (R.TETHER_TEMP i) ((temps.getD i 0).setWidth 64)) → hot = u.hottest 0 19 →
    at_ = ((List.range 19).find? (fun i => sInt16 (u.rdf (R.TETHER_TEMP i) 0 16) == hot)).getD 0 →
    old = u.rdf R.TETHER_THERM_STATUS 30 2 →
    up = (if (u.rdf R.TETHER_THERM_CFG 24 8 : Int) * 16 ≤ hot then 3 else if (u.rdf R.TETHER_THERM_CFG 16 8 : Int) * 16 ≤ hot then 2
      else if (u.rdf R.TETHER_THERM_CFG 8 8 : Int) * 16 ≤ hot then 1 else 0) →
    new = (if old < up then up else if 0 < old ∧ old < 3 ∧ cool = true ∧
      hot ≤ ((u.levelC old : Int) - u.rdf R.TETHER_THERM_CFG 0 8) * 16 then old - 1 else old) →
    v = State.wrf (State.wr (State.if_ { u with
      tether := { u.tether with
        secDie := maxOpt u.tether.secDie (u.hottest 0 16)
        secHbm := maxOpt u.tether.secHbm (u.hottest 16 3) } } (old == 2) (fun x => x.bumpN R.TETHER_THROTTLE_CNT x.withheld))
      R.TETHER_THERM_STATUS (BitVec.ofNat 64 (at' new 30 + at' at_ 24 + (BitVec.ofInt 16 hot).toNat)))
      R.TETHER_STATE 24 1 (b2n (new == 2)) →
    exec (.tempSample temps cool) s = .next (if old < new then
        if new = 3 then v.tripStart false at_ (BitVec.ofInt 32 hot) (wholeC hot)
        else v.raise (if new = 1 then 0x790 else 0x791) noFunc at_ (wholeC hot)
      else if new < old then v.raise 0x792 noFunc new (wholeC hot) else v)) ∧
  (∀ (s : State) (supply : Bool) (object code : Nat) (reading : Word),
    (s.tether.trip.isSome = true ∨ s.clk.dev = .coldHeld → s.tripStart supply object reading code = s) ∧
    (s.tether.trip = none → s.clk.dev ≠ .coldHeld →
      (s.tripStart supply object reading code).tether.trip = some ⟨supply, object, reading, s.now⟩ ∧
      (s.tripStart supply object reading code).tether.tripN = false ∧
      (s.tripStart supply object reading code).clk.dev = s.clk.dev ∧
      (s.tripStart supply object reading code).inReset = true)) ∧
  (∀ (mv : List (BitVec 16)) (ma : List Nat) (s t : State),
    t = s.each (List.range 8) (fun u r => State.if_ { u.wr (R.TETHER_RAIL_MV r) (BitVec.ofNat 64 (mv.getD r 0).toNat) with
      tether := { u.tether with
        railWarn := mapSet (fun _ => false) u.tether.railWarn r (!railWithin r (mv.getD r 0).toNat (s.rdf R.TETHER_RAIL_CFG 0 8)) } }
      (!railWithin r (mv.getD r 0).toNat (s.rdf R.TETHER_RAIL_CFG 0 8) && !u.railWarned r)
      (fun v => v.raise 0x794 noFunc r (railDev r (mv.getD r 0).toNat))) →
    exec (.supplySample mv ma) s =
      .next (t.powerCompute (((List.range 8).map (fun r => (mv.getD r 0).toNat * ma.getD r 0 / 1000)).sum))) ∧
  (∀ (r : Fin 8) (mv : BitVec 16) (s : State) (pct n : Nat), pct = s.rdf R.TETHER_RAIL_CFG 8 8 → n = railMv.getD r.val 0 →
    (n * (100 - pct) ≤ mv.toNat * 100 → mv.toNat * 100 ≤ n * (100 + 2 * pct) → exec (.supplyTrip r mv) s = .next s) ∧
    (mv.toNat * 100 < n * (100 - pct) ∨ n * (100 + 2 * pct) < mv.toNat * 100 → exec (.supplyTrip r mv) s =
      .next ((s.wr (R.TETHER_RAIL_MV r.val) (BitVec.ofNat 64 mv.toNat)).tripStart true r.val (mv.setWidth 32)
        (railDev r.val mv.toNat)))) ∧
  (∀ s : State, s.tether.trip = none → exec .tripRecovery s = .next s) ∧
  (∀ (s : State) (tr : Trip), s.tether.trip = some tr →
    (tr.supply = true → exec .tripRecovery s = .next (if railWithin tr.object (s.rdf (R.TETHER_RAIL_MV tr.object) 0 16)
      (s.rdf R.TETHER_RAIL_CFG 0 8) = true then s.coldReset 2 else s)) ∧
    (tr.supply = false → exec .tripRecovery s = .next
      (if s.hottest 0 19 ≤ ((s.rdf R.TETHER_THERM_CFG 24 8 : Int) - 20) * 16 then s.coldReset 2 else s))) ∧
  (∀ s : State, ∃ obj, exec .tetherRestart s = .next ((s.bump R.TETHER_RESTART_CNT).drew.raise 0x79E noFunc obj 0xFFFF)) ∧
  (∀ s : State, s.kite.fw ∉ [.running, .maintenance] ∨ s.tether.ping.isSome = true ∨ (s.page tetherCh).cmd.isSome = true ∨
    (List.range 16).find? (fun i => !bit (s.page tetherCh).seqOpen i) = none → exec .watchdogPing s = .next s) ∧
  (∀ (s : State) (q : Nat), s.kite.fw ∈ [.running, .maintenance] → s.tether.ping = none → (s.page tetherCh).cmd = none →
    (List.range 16).find? (fun i => !bit (s.page tetherCh).seqOpen i) = some q → exec .watchdogPing s =
      .next (State.klPost { s with tether := { s.tether with ping := some s.now } } tetherCh
        (BitVec.ofNat 64 (2 ^ 52 + q * 2 ^ 48)) false)) ∧
  (∀ s : State,
    (s.inReset = true ∨ s.tether.ping = none → exec .fwHang s = .next s) ∧
    (s.inReset = true ∨ s.tether.startRuns = false ∨ s.kite.fw = .recovery → exec .startWatchdogExpire s = .next s) ∧
    (s.inReset = true ∨ s.trialArmed = false ∨ bit (s.rd R.BOOT_TRIAL) 30 = true → exec .trialExpired s = .next s) ∧
    (s.clk.dev = .warmHeld ∨ s.trialArmed = false → exec .trialTick s = .next s)) ∧
  (∀ s u : State, s.inReset = false → u = State.bump (State.trialShow { s with
      tether := { s.tether with trialMs := 0 } } 0 2 0) R.TETHER_TRIAL_EXPIRE_CNT →
    (s.tether.ping.isSome = true → exec .fwHang s = .next (((s.bump R.TETHER_FW_HANG_CNT).raiseNow 0x796 s.kite.fwGen.toNat
      0).tetherReset 4)) ∧
    (s.tether.startRuns = true → s.kite.fw ≠ .recovery → exec .startWatchdogExpire s =
      .next (((s.bump R.TETHER_FW_HANG_CNT).raiseNow 0x796 s.kite.fwGen.toNat 1).tetherReset 4)) ∧
    (s.trialArmed = true → bit (s.rd R.BOOT_TRIAL) 30 = false → exec .trialExpired s =
      .next ((u.raiseNow 0x797 (u.rdf R.TETHER_TRIAL 0 10) 0).warmReset 4))) ∧
  (∀ s : State, s.clk.dev ≠ .warmHeld → s.trialArmed = true →
    (bit (s.rd R.BOOT_TRIAL) 30 = true → exec .trialTick s = .next (s.trialShow 2 1 0)) ∧
    (bit (s.rd R.BOOT_TRIAL) 30 = false → exec .trialTick s = .next (State.trialShow { s with
      tether := { s.tether with trialMs := s.tether.trialMs - 1 } } 1 (s.rdf R.TETHER_TRIAL 28 2) (s.tether.trialMs - 1)))) ∧
  (∀ s : State, s.tether.marks = [] → exec .fieldMapWrite s = .next s) ∧
  (∀ (s : State) (m : DWord) (rest : List DWord), s.tether.marks = m :: rest →
    ((∃ e ∈ s.tether.mapFlash, fld e.2 60 4 = fld m 60 4 ∧ fld e.2 0 34 = fld m 0 34) →
      exec .fieldMapWrite s = .next { s with tether := { s.tether with marks := rest } }) ∧
    ((∀ e ∈ s.tether.mapFlash, fld e.2 60 4 = fld m 60 4 → fld e.2 0 34 ≠ fld m 0 34) →
      ((∀ i < 1024, mapGet (fun _ => (0 : DWord)) s.tether.mapFlash i ≠ 0) → exec .fieldMapWrite s = .next ((State.bump
        { s with tether := { s.tether with marks := rest } } R.TETHER_MAP_LOST_CNT).raise 0x79D noFunc 1024 (fld m 60 4))) ∧
      (∀ i, (List.range 1024).find? (fun i => mapGet (fun _ => (0 : DWord)) s.tether.mapFlash i == 0) = some i →
        ∃ t : State, exec .fieldMapWrite s = .next t ∧ t.tether.marks = rest ∧
          t.tether.mapFlash = mapSet (fun _ => 0) s.tether.mapFlash i m ∧ t.tether.mapSeq = s.tether.mapSeq + 1))) ∧
  (∀ (b : Fin 29) (s : State), b.val ∉ watchedBlocks ∨ s.blockHeld b.val = true ∨ s.inReset = true ∨ s.clocked b.val = false →
    exec (.blockHang b) s = .next s) ∧
  (∀ (b : Fin 29) (s t : State) (hangs : List (Nat × Nat)) (mine : Nat), b.val ∈ watchedBlocks → s.blockHeld b.val = false →
    s.inReset = false → s.clocked b.val = true →
    hangs = (b.val, s.opSeconds) :: s.tether.hangTimes.filter (fun e => decide (s.opSeconds < e.2 + 3600)) →
    mine = (hangs.filter (fun e => e.1 == b.val)).length →
    t = { s.bump (R.TETHER_HANG_CNT b.val) with tether := { s.tether with hangTimes := hangs } } →
    (hangs.length < 3 → exec (.blockHang b) s = .next { (t.raise 0x79E noFunc b.val mine).blockReset b.val with
      tether := { ((t.raise 0x79E noFunc b.val mine).blockReset b.val).tether with
        hungHeld := ((t.raise 0x79E noFunc b.val mine).blockReset b.val).tether.hungHeld ++ [b.val] } }) ∧
    (3 ≤ hangs.length → exec (.blockHang b) s = .next ((t.raiseNow 0x79E b.val mine).tetherReset 7))) ∧
  (∀ (b : Fin 29) (s : State), exec (.blockHangRelease b) s = .next (if b.val ∈ s.tether.hungHeld then
    State.blockRelease { s with tether := { s.tether with hungHeld := s.tether.hungHeld.filter (· ≠ b.val) } } b.val else s)) ∧
  (∀ (p a l1 l2 d i : Nat) (s : State), s.clk.dev = .coldHeld ∨ s.tether.boardTest = true →
    exec (.recorderSample p a l1 l2 d i) s = .next s) ∧
  (∀ (p a l1 l2 d i : Nat) (s : State), s.clk.dev ≠ .coldHeld → s.tether.boardTest = false →
    ∃ t : State, exec (.recorderSample p a l1 l2 d i) s = .next t ∧
      t.rd R.MLST_OP_SECONDS = s.rd R.MLST_OP_SECONDS + 1 ∧ t.obs.log = s.obs.log ∧ t.tether.secDie = none ∧
      (∀ h b, (h, b) ∈ [(2, min 31 (p / 60)), (3, min 31 (a / 200000000)), (4, min 31 (l1 / 50000000000)),
          (5, min 31 (l2 / 50000000000)), (6, min 31 (d / 120000000000)), (7, min 31 (i / 32)),
          (0, tempBin (s.tether.secDie.getD (s.hottest 0 16))), (1, tempBin (s.tether.secHbm.getD (s.hottest 16 3)))] →
        t.rd (R.MLST_HIST h b) = s.rd (R.MLST_HIST h b) + 1)) ∧
  (∀ (ok : Bool) (s : State), s.clk.dev = .coldHeld → exec (.checkpoint ok) s = .next s) ∧
  (∀ (s : State) (n : Nat), s.clk.dev ≠ .coldHeld → n = (match s.obs.ckpt with | some c => c.seq + 1 | none => 0) →
    exec (.checkpoint true) s = .next { s with obs := { s.obs with
      ckpt := some ⟨n, mapKeep ckptReg s.regs, (s.rd R.MLST_NEXT_SEQ).toNat⟩ } } ∧
    ∃ code, exec (.checkpoint false) s = .next (s.drew.flashErr (0x20000 + n % 64 * 65536) code)) ∧
  (∀ (ok : Bool) (s : State),
    (s.obs.queue = [] → exec (.recordWrite ok) s = .next s) ∧
    (∀ r rest, s.obs.queue = r :: rest → exec (.recordWrite ok) s =
      .next (State.logPut { s with obs := { s.obs with queue := rest } } r ok))) ∧
  (∀ s : State, exec .hourEnd s = .next (State.each { s with obs := { s.obs with pendCnt := [], hourCnt := [] } } s.obs.pendCnt
    (fun s e => (s.record e.1 7 2 e.2 0 ((if 2048 ≤ e.1 then e.1 - 2048 else e.1) + at' (e.2 % 4294967296) 32)).raise 0x7E3 noFunc
      (if 2048 ≤ e.1 then e.1 - 2048 else e.1) (satTo 65535 e.2)))) ∧
  (∀ (ch : BitVec 13) (seq : BitVec 4) (c : OpenCmd) (s : State), s.ready ch seq 0x82 c = true →
    (ch.toNat ≠ s.manager ∨ s.kite.fw ≠ .running → exec (.recorderClear ch seq) s = .next (s.answered ch c 0x2080 0)) ∧
    (ch.toNat = s.manager → s.kite.fw = .running → 3 < leAt c.args 0 1 ∨ leAt c.args 1 3 ≠ 0 →
      exec (.recorderClear ch seq) s = .next (s.answered ch c 0x1082 0)) ∧
    (ch.toNat = s.manager → s.kite.fw = .running → leAt c.args 0 1 ≤ 3 → leAt c.args 1 3 = 0 → ∃ t : State,
      exec (.recorderClear ch seq) s = .next (t.answered ch c 0 0) ∧ t.rd R.MLST_CLEAR_CNT = s.rd R.MLST_CLEAR_CNT + 1 ∧
      (leAt c.args 0 1 % 2 = 1 → ∀ a, 0x210800 ≤ a → a < 0x211000 → t.rd a = 0)))

/-- From ABSENT and out of reset Trailhead starts; with no boot flash answering it records BOOT_FLASH_ERROR and enters
RECOVERY on list 6, and waits for a push on list 0; a wait that ends goes on with the list. A keyed restart makes the
firmware ABSENT, keeping measurements, log, fuses and flash. Releasing cores 1 to 3 after the handover gives STARTING.
An extend is refused into a locked slot and joins any other. IMAGE_WRITE puts bytes in the staging buffer. IMAGE_COMMIT
passes the checks, finds the slot not busy and waits; its end makes a CANDIDATE (slot G CONFIRMED), or BOOT_FLASH_ERROR.
IMAGE_CONFIRM confirms a running CANDIDATE. FW_ACTIVATE answers and holds the restart or handover for after it; a pushed
image that is refused is answered so and the list goes on. The ledger and the measurements are read. A PLDM update
stages, verifies, applies and activates, or is answered as refused. Bad arguments, a running update or commit and a
missing CANDIDATE have the statuses of Table 20-14. Where a command's condition does not hold, the state stays. (R440,
R441, R446, R447, R449, R450, R451, R452, R453, R454, R457) -/
def Obligations.BootAndImages : Prop :=
  (∀ (a : BitVec 2) (s : State), s.kite.fw ≠ .absent ∨ s.inReset = true → exec (.trailheadStart a) s = .next s) ∧
  (∀ s : State, s.kite.fw ≠ .booting ∨ s.boot.pushFrom = none ∨ s.boot.pushBegun = true → exec .pushWaitExpire s = .next s) ∧
  (∀ (a : BitVec 2) (s : State), s.kite.fw = .absent → s.inReset = false → exec (.trailheadStart a) s = .next (s.trailhead a) ∧
    (s.boot.fuse.orderOverride = true → s.boot.fuse.order = 6 → a = 0 →
      (s.trailhead a).kite.fw = .recovery ∧ (s.trailhead a).boot.pushFrom = none ∧
      (s.trailhead a).rdf R.BOOT_STATUS 28 4 = 2 ∧ (s.trailhead a).rd (R.BOOT_SRC_RESULT 0) = 0xF0E00001 ∧
      (s.trailhead a).rd R.BOOT_ORDER_USED = 14) ∧
    (s.boot.fuse.orderOverride = true → s.boot.fuse.order = 0 → a = 0 →
      (s.trailhead a).kite.fw = .booting ∧ (s.trailhead a).boot.pushFrom = some 2 ∧ (s.trailhead a).boot.sourcesLeft = [3] ∧
      (s.trailhead a).rd (R.BOOT_SRC_RESULT 1) = 0xF0E00001)) ∧
  (∀ (s : State) (f : Nat), s.kite.fw = .booting → s.boot.pushFrom = some f → s.boot.pushBegun = false →
    exec .pushWaitExpire s = .next ({ s with boot := { s.boot with pushFrom := none } }.trySources s.boot.sourcesLeft) ∧
    (s.boot.sourcesLeft = [] → ∃ t : State, exec .pushWaitExpire s = .next t ∧ t.kite.fw = .recovery ∧ t.rdf R.BOOT_STATUS 28 4 = 2) ∧
    (s.boot.sourcesLeft = [3] → ∃ t : State, exec .pushWaitExpire s = .next t ∧ t.kite.fw = .booting ∧ t.boot.pushFrom = some 3)) ∧
  (∀ (v : Word) (s : State),
    (s.bootWrites = true → fld v 16 16 = 0x4343 → bit v 0 = true → exec (.controlComplexRestart v) s = .next s.ccRestart) ∧
    (s.bootWrites = false ∨ fld v 16 16 ≠ 0x4343 ∨ bit v 0 = false → exec (.controlComplexRestart v) s = .next s) ∧
    (s.bootWrites = false → exec (.coreRelease v) s = .next s) ∧
    (s.bootWrites = false ∨ bit v 31 = false → exec (.measurementExtend v) s = .next s) ∧
    s.ccRestart.kite.fw = .absent ∧ s.ccRestart.kite.opened = [] ∧ s.ccRestart.kite.rspQ = [] ∧
    s.ccRestart.boot.meas = s.boot.meas ∧ s.ccRestart.boot.log = s.boot.log ∧ s.ccRestart.boot.fuse = s.boot.fuse ∧
    s.ccRestart.boot.flash0 = s.boot.flash0 ∧ s.ccRestart.tether.startRuns = true ∧ s.ccRestart.boot.running = none) ∧
  (∀ (v : Word) (s t : State), s.bootWrites = true →
    t = s.wrf R.BOOT_CTL_RELEASE 1 3 (s.rdf R.BOOT_CTL_RELEASE 1 3 ||| fld v 1 3) →
    (s.kite.fw = .booting → t.rdf R.BOOT_STATUS 28 4 = 3 → t.rdf R.BOOT_CTL_RELEASE 1 3 = 7 →
      exec (.coreRelease v) s = .next { t with kite := { t.kite with fw := .starting } }) ∧
    (s.kite.fw ≠ .booting ∨ t.rdf R.BOOT_STATUS 28 4 ≠ 3 ∨ t.rdf R.BOOT_CTL_RELEASE 1 3 ≠ 7 → exec (.coreRelease v) s = .next t)) ∧
  (∀ (v : Word) (s : State), s.bootWrites = true → bit v 31 = true →
    (bit (s.rd R.BOOT_MEAS_LOCK) 0 = true → fld v 0 4 ∈ lockedSlots →
      exec (.measurementExtend v) s = .next (s.bump R.BOOT_EXT_REFUSED_CNT)) ∧
    (bit (s.rd R.BOOT_MEAS_LOCK) 0 = false ∨ fld v 0 4 ∉ lockedSlots → ∃ (t : State) (d : BitVec 384),
      exec (.measurementExtend v) s = .next t ∧
      d = bytesBv 384 ((List.range 12).flatMap (fun k => leBytes 4 (s.rd (R.BOOT_EXT_DATA k)).toNat)) ∧
      t.boot.meas = mapSet (fun _ => 0) s.boot.meas (fld v 0 4)
        (Config.sha384 (bvBytes (mapGet (fun _ => (0 : BitVec 384)) s.boot.meas (fld v 0 4)) ++ bvBytes d)) ∧
      t.boot.fuse = s.boot.fuse)) ∧
  (∀ (ch : BitVec 13) (seq : BitVec 4) (c : OpenCmd) (s : State) (off len : Nat), s.ready ch seq 0x70 c = true →
    off = leAt c.args 0 4 → len = leAt c.args 4 4 →
    (off % 4 ≠ 0 ∨ len < 4 ∨ 65488 < len ∨ leAt c.args 8 8 ≠ 0 ∨ slotSize < off + len ∨ c.args.length < 16 + len ∨ (ch.toNat = sbCh ∧ 976 < len) →
      exec (.imageWrite ch seq) s = .next (s.answered ch c 0x1082 0)) ∧
    (off % 4 = 0 → 4 ≤ len → len ≤ 65488 → leAt c.args 8 8 = 0 → off + len ≤ slotSize → 16 + len ≤ c.args.length → (ch.toNat = sbCh → len ≤ 976) →
      (s.boot.pldm = true → exec (.imageWrite ch seq) s = .next (s.answered ch c 0x30E0 0)) ∧
      (∀ t : State, s.boot.pldm = false → t = s.hbmPut (0x2CC000000 + off) (slice c.args 16 len) →
        (s.boot.pushFrom = none → exec (.imageWrite ch seq) s = .next (t.answered ch c 0 (off + len))) ∧
        (s.boot.pushFrom.isSome = true → exec (.imageWrite ch seq) s = .next (State.answered
          { t with boot := { t.boot with pushBegun := true } } ch c 0 (off + len)))))) ∧
  (∀ (ch : BitVec 13) (seq : BitVec 4) (c : OpenCmd) (s t : State), s.ready ch seq 0x71 c = true → t = s.ledgerFind →
    (2 < c.imm → exec (.imageCommit ch seq) s = .next (s.answered ch c 0x1082 0)) ∧
    (c.imm ≤ 2 → s.boot.pldm = true ∨ s.boot.commit.isSome = true →
      exec (.imageCommit ch seq) s = .next (s.answered ch c 0x30E0 0)) ∧
    (c.imm ≤ 2 → s.boot.pldm = false → s.boot.commit = none →
      (∀ st, (t.imageCheck 3).1 = some st → exec (.imageCommit ch seq) s = .next (t.answered ch c st 0)) ∧
      ((t.imageCheck 3).1 = none → t.slotBusy c.imm = true → exec (.imageCommit ch seq) s = .next (t.answered ch c 0x30E0 0)) ∧
      ((t.imageCheck 3).1 = none → t.slotBusy c.imm = false → ∃ u : State,
        exec (.imageCommit ch seq) s = .next (u.markWaiting ch.toNat seq) ∧ u.boot.fuse = s.boot.fuse ∧
        u.boot.commit = some ⟨c.imm, some (ch.toNat, seq.toNat), s.now⟩))) ∧
  (∀ (s t : State) (k : Commit), s.boot.commit = some k → k.waiter.isSome = true →
    t = { s with boot := { s.boot with commit := none, pldm := s.boot.pldm && k.waiter.isSome } } →
    exec (.imageCommitted false) s = .next (t.finish k.waiter 0xF0E0 0) ∧
    (∀ u v : State, u = t.slotProgram k.target (t.imgSize 3) (t.imgBytes 3 0 (t.imgSize 3)) →
      v = u.ledgerWrite (slotPut u.ledger k.target (if k.target = 2 then 3 else 2) 0) →
      exec (.imageCommitted true) s = .next ((v.raise 0x7C7 noFunc k.target (satTo 65535
        ((s.now - k.began).toNat / 1000000))).finish k.waiter 0
          (ledgerSeq v.ledger)))) ∧
  (∀ (s t : State) (k : Commit), s.boot.commit = some k → k.waiter = none →
    t = { s with boot := { s.boot with commit := none, pldm := false } } →
    exec (.imageCommitted false) s = .next (t.emit (pldmOut true 0x18 [1, 0, 0])) ∧
    (∀ u v w : State, u = t.emit (pldmOut true 0x18 [0, 0, 0]) →
      v = u.slotProgram k.target (u.imgSize 3) (u.imgBytes 3 0 (u.imgSize 3)) →
      w = v.ledgerWrite (slotPut v.ledger k.target (if k.target = 2 then 3 else 2) 0) →
      exec (.imageCommitted true) s = .next (w.raise 0x7C7 noFunc k.target (satTo 65535 ((s.now - k.began).toNat / 1000000))))) ∧
  (∀ (ok : Bool) (s : State), s.boot.commit = none → exec (.imageCommitted ok) s = .next s) ∧
  (∀ (ch : BitVec 13) (seq : BitVec 4) (ok : Bool) (c : OpenCmd) (s t : State), s.ready ch seq 0x72 c = true → t = s.ledgerFind →
    (c.imm ≠ 0 → exec (.imageConfirm ch seq ok) s = .next (s.answered ch c 0x1082 0)) ∧
    (c.imm = 0 → s.boot.pldm = true → exec (.imageConfirm ch seq ok) s = .next (s.answered ch c 0x30E0 0)) ∧
    (c.imm = 0 → s.boot.pldm = false →
      (t.runningCandidate = none → exec (.imageConfirm ch seq ok) s = .next (t.answered ch c 0x30E1 0)) ∧
      (∀ r, t.runningCandidate = some r → exec (.imageConfirm ch seq true) s = .next ((t.confirm r).answered ch c 0 0) ∧
        exec (.imageConfirm ch seq false) s = .next (t.answered ch c 0xF0E0 0) ∧ r < 2 ∧ slotState t.ledger r = 2 ∧
        t.boot.running = some r))) ∧
  (∀ (r : Nat) (s : State), ∃ u : State, s.confirm r = (u.fuseBlow r).raise 0x7C3 noFunc r (ledgerSeq u.ledger % 65536) ∧
    u.boot.fuse = s.boot.fuse ∧ bit (u.rd R.BOOT_TRIAL) 30 = true) ∧
  (∀ (ch : BitVec 13) (seq : BitVec 4) (c : OpenCmd) (s t : State), s.ready ch seq 0x73 c = true → s.loneCommand = true →
    t = s.ledgerFind →
    (3 < c.imm → exec (.fwActivate ch seq) s = .next (s.answered ch c 0x1082 0)) ∧
    (s.pushOn ch.toNat = true → c.imm < 3 → exec (.fwActivate ch seq) s = .next (s.answered ch c 0x2080 0)) ∧
    (s.pushOn ch.toNat = true → c.imm = 3 → ∀ (u : State) (f : Nat), s.examine (pushSource ch.toNat) 3 = (u, false, f) →
      exec (.fwActivate ch seq) s = .next (u.pushRefused.answered ch c ((s.imageCheck 3).1.getD 0) 0)) ∧
    (s.pushOn ch.toNat = true → c.imm = 3 → ∀ (u : State) (f : Nat), s.examine (pushSource ch.toNat) 3 = (u, true, f) →
      exec (.fwActivate ch seq) s = .next (State.answered
        { u with boot := { u.boot with activate := some (ch.toNat, seq.toNat, 3) } } ch c 0 0)) ∧
    (s.pushOn ch.toNat = false → c.imm ≠ 0 → exec (.fwActivate ch seq) s = .next (s.answered ch c 0x1082 0)) ∧
    (s.pushOn ch.toNat = false → c.imm = 0 → s.boot.pldm = true →
      exec (.fwActivate ch seq) s = .next (s.answered ch c 0x30E0 0)) ∧
    (s.pushOn ch.toNat = false → c.imm = 0 → s.boot.pldm = false → t.freshCandidate = false →
      exec (.fwActivate ch seq) s = .next (t.answered ch c 0x30E1 0)) ∧
    (s.pushOn ch.toNat = false → c.imm = 0 → s.boot.pldm = false → t.freshCandidate = true → exec (.fwActivate ch seq) s = .next (State.answered
      { t with boot := { t.boot with activate := some (ch.toNat, seq.toNat, 0) } } ch c 0 0))) ∧
  (∀ (ch : BitVec 13) (seq : BitVec 4) (c : OpenCmd) (s : State) (out : Bytes), s.ready ch seq 0x74 c = true →
    out = s.ledgerCopy 0 ++ s.ledgerCopy 1 →
    (out.length ≤ outSpace ch.toNat c → exec (.ledgerRead ch seq) s = .next (s.answeredOut ch c out)) ∧
    (outSpace ch.toNat c < out.length → exec (.ledgerRead ch seq) s = .next (s.answered ch c 0x3080 out.length))) ∧
  (∀ (ch : BitVec 13) (seq : BitVec 4) (c : OpenCmd) (s : State) (out : Bytes), s.ready ch seq 0x75 c = true →
    out = s.measBytes ++ leBytes 4 s.boot.log.length ++ leBytes 4 0 ++ (s.boot.log.drop (leAt c.args 0 2)).flatMap bvBytes →
    (out.length ≤ outSpace ch.toNat c → exec (.measureRead ch seq) s = .next (s.answeredOut ch c out)) ∧
    (outSpace ch.toNat c < out.length → exec (.measureRead ch seq) s = .next (s.answered ch c 0x3080 out.length))) ∧
  (∀ (off : BitVec 26) (data : Bytes) (s : State), s.kite.fw ≠ .running → exec (.requestFirmwareData off data) s = .next s) ∧
  (∀ (off : BitVec 26) (data : Bytes) (s t : State), s.kite.fw = .running →
    (s.boot.commit.isSome = true → exec (.requestFirmwareData off data) s = .next (s.emit (pldmOut false 0x15 [0x81]))) ∧
    (s.boot.commit = none → t = s.hbmPut (0x2CC000000 + off.toNat) (data.take (slotSize - off.toNat)) →
      exec (.requestFirmwareData off data) s = .next { t with boot := { t.boot with pldm := true } })) ∧
  (∀ s : State,
    (s.boot.pldm = false → exec .verifyComplete s = .next s) ∧
    (s.boot.pldm = false ∨ s.boot.commit.isSome = true → exec .applyComplete s = .next s) ∧
    (s.kite.fw ≠ .running ∨ s.kite.opened ≠ [] ∨ s.kite.rspQ ≠ [] → exec .activateFirmware s = .next s)) ∧
  (∀ s : State, s.boot.pldm = true →
    ((s.imageCheck 3).1 = none → exec .verifyComplete s = .next (s.emit (pldmOut true 0x17 [0]))) ∧
    ((s.imageCheck 3).1 ≠ none → exec .verifyComplete s = .next (s.emit (pldmOut true 0x17 [1])))) ∧
  (∀ (s t : State), s.boot.pldm = true → s.boot.commit = none → t = s.ledgerFind →
    (∀ k, [0, 1].find? (fun i => !t.slotBusy i) = some k → (t.imageCheck 3).1 = none →
      exec .applyComplete s = .next (t.commitBegin k none)) ∧
    ((t.slotBusy 0 = true ∧ t.slotBusy 1 = true) ∨ (t.imageCheck 3).1 ≠ none → exec .applyComplete s = .next (State.emit
      { t with boot := { t.boot with pldm := false } } (pldmOut true 0x18 [1, 0, 0])))) ∧
  (∀ (s t : State), s.kite.fw = .running → s.kite.opened = [] → s.kite.rspQ = [] → t = s.ledgerFind →
    (t.freshCandidate = true → s.boot.commit = none → ∃ u : State, exec .activateFirmware s = .next u.ccRestart ∧ u.boot = t.boot) ∧
    (t.freshCandidate = false ∨ s.boot.commit.isSome = true → exec .activateFirmware s = .next (t.emit (pldmOut false 0x1A [0x85, 0, 0]))))

/-- PING and FW_STATUS answer with build and state, KL_READ with a page's status bytes, a block too small drawing
GCS_OUT_SHORT, EVT_ROUTE_SET writes a route and withdraws what a disabled one holds; reserved bits are refused. MCTP
control gives or takes the endpoint ID, versions, types and vendor. A message of another kind or code, or while the
block is silent, changes nothing. SPDM requests are answered in the clear or in a session, each by its own row: digests
and certificates of the chain, Busy while BOOT is in reset, indices above 0x11 refused, at most 8 sessions, FINISH
establishes, the others need an established session; a large answer leaves in chunks. Sensors read temperatures and
rails; another sensor is refused. A DOE object is answered; one of a wrong length sets Error until an Abort; another
vendor's, and a function without a mailbox, change nothing. Message layouts are the model's choice (the DMTF formats).
(R248, R455, R456, Table 20-13, Table 12-11) -/
def Obligations.SidebandAnswers : Prop :=
  (∀ (ch : BitVec 13) (seq : BitVec 4) (c : OpenCmd) (s : State),
    (s.ready ch seq 0x00 c = true →
      (c.imm = 0 → exec (.ping ch seq) s = .next (s.answered ch c 0 (6 + 256 * s.kite.fwBuild.toNat))) ∧
      (c.imm ≠ 0 → exec (.ping ch seq) s = .next (s.answered ch c 0x1082 0))) ∧
    (s.ready ch seq 0x01 c = true →
      (c.imm = 0 → exec (.fwStatus ch seq) s = .next (s.answered ch c 0 (BitVec.ofNat 32
        (s.kite.fw.code.toNat * 2 ^ 29 + s.kite.expectMs.toNat * 256 + s.kite.fwGen.toNat)).toNat)) ∧
      (c.imm ≠ 0 → exec (.fwStatus ch seq) s = .next (s.answered ch c 0x1082 0))) ∧
    (s.ready ch seq 0x08 c = true →
      (isChannel (leAt c.args 0 2) = false → exec (.klRead ch seq) s = .next (s.answered ch c 0x1082 0)) ∧
      (isChannel (leAt c.args 0 2) = true → outSpace ch.toNat c < 88 → exec (.klRead ch seq) s = .next (s.answered ch c 0x3080 88)) ∧
      (isChannel (leAt c.args 0 2) = true → 88 ≤ outSpace ch.toNat c → (s.pageBytes (leAt c.args 0 2)).length = 88 ∧
        exec (.klRead ch seq) s = .next (s.answeredOut ch c (s.pageBytes (leAt c.args 0 2))))) ∧
    (s.ready ch seq 0x04 c = true →
      (fld c.arg 43 5 ≠ 0 ∨ fld c.arg 24 4 ≠ 0 → exec (.evtRouteSet ch seq) s = .next (s.answered ch c 0x1082 0)) ∧
      (fld c.arg 43 5 = 0 → fld c.arg 24 4 = 0 → ∀ (n v : Nat) (t : State), n = fld c.arg 32 11 → v = fld c.arg 0 32 →
        t = s.wr (R.EVT_ROUTE n) (BitVec.ofNat 64 (v &&& 0xF0FFFFFF)) →
        (v < 2 ^ 31 → exec (.evtRouteSet ch seq) s = .next ((t.withdraw n).answered ch c 0 0)) ∧
        (2 ^ 31 ≤ v → exec (.evtRouteSet ch seq) s = .next (t.answered ch c 0 0))))) ∧
  (∀ (m : Bytes) (s : State),
    (s.sbAnswers = false ∨ byteAt m 0 ≠ 0 ∨ bit (byteAt m 1) 7 = false ∨ byteAt m 2 ≠ 1 → exec (.setEndpointId m) s = .next s) ∧
    (s.sbAnswers = false ∨ byteAt m 0 ≠ 0 ∨ bit (byteAt m 1) 7 = false ∨ byteAt m 2 ≠ 2 → exec (.getEndpointId m) s = .next s) ∧
    (s.sbAnswers = false ∨ byteAt m 0 ≠ 0 ∨ bit (byteAt m 1) 7 = false ∨ byteAt m 2 ≠ 4 →
      exec (.getMctpVersionSupport m) s = .next s) ∧
    (s.sbAnswers = false ∨ byteAt m 0 ≠ 0 ∨ bit (byteAt m 1) 7 = false ∨ byteAt m 2 ≠ 5 →
      exec (.getMessageTypeSupport m) s = .next s) ∧
    (s.sbAnswers = false ∨ byteAt m 0 ≠ 0 ∨ bit (byteAt m 1) 7 = false ∨ byteAt m 2 ≠ 6 →
      exec (.getVendorDefinedMessageSupport m) s = .next s)) ∧
  (∀ (msg : Bytes) (id op t : Byte) (s : State), s.sbAnswers = true → byteAt msg 0 = 0 → id = byteAt msg 1 → bit id 7 = true →
    (byteAt msg 2 = 1 → op = byteAt msg 3 → t = byteAt msg 4 →
      (fld op 0 2 ≤ 1 → t ≠ 0 → t ≠ 0xFF → exec (.setEndpointId msg) s = .next (State.emit
        { s with boot := { s.boot with eid := t, busOwnerSet := true } } (.mctp [0, id &&& 0x1F, 1, 0, 0, t, 0]))) ∧
      (fld op 0 2 ≤ 1 → t = 0 ∨ t = 0xFF → exec (.setEndpointId msg) s = .next (s.emit (.mctp [0, id &&& 0x1F, 1, 2]))) ∧
      (fld op 0 2 = 2 → exec (.setEndpointId msg) s = .next (s.emit (.mctp [0, id &&& 0x1F, 1, 2]))) ∧
      (fld op 0 2 = 3 → exec (.setEndpointId msg) s = .next (s.emit (.mctp [0, id &&& 0x1F, 1, 0, 0, s.boot.eid, 0])))) ∧
    (byteAt msg 2 = 2 → exec (.getEndpointId msg) s = .next (s.emit (.mctp [0, id &&& 0x1F, 2, 0, s.boot.eid, 0, 0]))) ∧
    (byteAt msg 2 = 4 → t = byteAt msg 3 →
      (t = 0 ∨ t = 0xFF → exec (.getMctpVersionSupport msg) s =
        .next (s.emit (.mctp [0, id &&& 0x1F, 4, 0, 1, 0xF1, 0xF3, 0xFF, 0]))) ∧
      (t.toNat ∈ [1, 5, 6, 0x7E] → ∃ b : Bytes, b.length = 4 ∧ exec (.getMctpVersionSupport msg) s =
        .next (s.drew.emit (.mctp ([0, id &&& 0x1F, 4, 0, 1] ++ b)))) ∧
      (t.toNat ∉ [0, 1, 5, 6, 0x7E, 0xFF] → exec (.getMctpVersionSupport msg) s =
        .next (s.emit (.mctp [0, id &&& 0x1F, 4, 0x80])))) ∧
    (byteAt msg 2 = 5 → exec (.getMessageTypeSupport msg) s =
      .next (s.emit (.mctp [0, id &&& 0x1F, 5, 0, 4, 1, 5, 6, 0x7E]))) ∧
    (byteAt msg 2 = 6 → t = byteAt msg 3 →
      (t = 0 → ∃ b : Bytes, b.length = 2 ∧ exec (.getVendorDefinedMessageSupport msg) s =
        .next (s.drew.emit (.mctp ([0, id &&& 0x1F, 6, 0, 0xFF, 0, 0x1F, 0x8A] ++ b)))) ∧
      (t ≠ 0 → exec (.getVendorDefinedMessageSupport msg) s = .next (s.emit (.mctp [0, id &&& 0x1F, 6, 2]))))) ∧
  (∀ (msg : Bytes) (code : Nat) (row : Instr) (s : State), (code, row) ∈ [(0x81, .getDigests msg), (0x82, .getCertificate msg),
      (0x83, .challenge msg), (0xE0, .getMeasurements msg), (0xE4, .keyExchange msg), (0xE5, .finish msg), (0xE8, .heartbeat msg),
      (0xE9, .keyUpdate msg), (0xEC, .endSession msg), (0x85, .chunkSend msg), (0x86, .chunkGet msg)] →
    s.sbAnswers = false ∨ byteAt msg 0 ∉ [(5 : Byte), 6] ∨ (byteAt msg 0 = 5 ∧ (byteAt msg 2).toNat ≠ code) ∨
      (byteAt msg 0 = 6 ∧ ((s.session (bytesBv 32 (slice msg 1 4))).isNone = true ∨ (byteAt msg 6).toNat ≠ code)) →
    exec row s = .next s) ∧
  (∀ (head body : Bytes) (via : SpdmVia) (s t : State) (r : Bytes), s.sbAnswers = true → s.spdm via body = (t, r) →
    (head = [5] ∧ via = ⟨none, none⟩ ∨ ∃ sid : Bytes, sid.length = 4 ∧ head = 6 :: sid ∧ via = ⟨none, some (bytesBv 32 sid)⟩ ∧
      (s.session (bytesBv 32 sid)).isSome = true) →
    (byteAt body 1 = 0x81 → exec (.getDigests (head ++ body)) s = .next (t.emit (.mctp (head ++ r)))) ∧
    (byteAt body 1 = 0x82 → exec (.getCertificate (head ++ body)) s = .next (t.emit (.mctp (head ++ r)))) ∧
    (byteAt body 1 = 0x83 → exec (.challenge (head ++ body)) s = .next (t.emit (.mctp (head ++ r)))) ∧
    (byteAt body 1 = 0xE0 → exec (.getMeasurements (head ++ body)) s = .next (t.emit (.mctp (head ++ r)))) ∧
    (byteAt body 1 = 0xE4 → exec (.keyExchange (head ++ body)) s = .next (t.emit (.mctp (head ++ r)))) ∧
    (byteAt body 1 = 0xE5 → exec (.finish (head ++ body)) s = .next (t.emit (.mctp (head ++ r)))) ∧
    (byteAt body 1 = 0xE8 → exec (.heartbeat (head ++ body)) s = .next (t.emit (.mctp (head ++ r)))) ∧
    (byteAt body 1 = 0xE9 → exec (.keyUpdate (head ++ body)) s = .next (t.emit (.mctp (head ++ r)))) ∧
    (byteAt body 1 = 0xEC → exec (.endSession (head ++ body)) s = .next (t.emit (.mctp (head ++ r)))) ∧
    (byteAt body 1 = 0x85 → exec (.chunkSend (head ++ body)) s = .next (t.emit (.mctp (head ++ r)))) ∧
    (byteAt body 1 = 0x86 → exec (.chunkGet (head ++ body)) s = .next (t.emit (.mctp (head ++ r))))) ∧
  (∀ (via : SpdmVia) (body chain : Bytes) (v : Byte) (s : State), byteAt body 0 = v → v = 0x10 ∨ v = 0x11 ∨ v = 0x12 →
    chain = Config.certChain s.boot.fuse.sec →
    (byteAt body 1 = 0x81 → s.spdmAnswer via body = (s, [v, 0x01, 0, 1] ++ bvBytes (Config.sha384 chain))) ∧
    (byteAt body 1 = 0x82 → fld (byteAt body 2) 0 4 = 0 → leAt body 4 2 < chain.length →
      ∃ head, s.spdmAnswer via body = (s, head ++ slice chain (leAt body 4 2) (leAt body 6 2)) ∧ head.length = 8) ∧
    (byteAt body 1 = 0xE0 → s.measBusy = true → s.spdmAnswer via body = (s, [v, 0x7F, 3, 0])) ∧
    (byteAt body 1 = 0x83 → fld (byteAt body 2) 0 4 = 0 → byteAt body 3 ≠ 0 → s.measBusy = true →
      s.spdmAnswer via body = (s, [v, 0x7F, 3, 0])) ∧
    (byteAt body 1 = 0xE0 → s.measBusy = false → 0x11 < (byteAt body 3).toNat → byteAt body 3 ≠ 0xFF →
      s.spdmAnswer via body = (s, [v, 0x7F, 1, 0])) ∧
    (byteAt body 1 = 0xE4 → fld (byteAt body 3) 0 4 = 0 → 8 ≤ s.boot.spdm.length →
      s.spdmAnswer via body = (s, [v, 0x7F, 0x0A, 0])) ∧
    (byteAt body 1 = 0xE4 → fld (byteAt body 3) 0 4 = 0 → s.boot.spdm.length < 8 → byteAt body 2 = 0 →
      (s.spdmAnswer via body).1.boot.spdm = s.boot.spdm ++ [⟨s.newSession (leAt body 4 2), false, via.link, 0⟩]) ∧
    (∀ x, byteAt body 1 = 0xE5 → via.sid.bind s.session = some x → x.established = false → x.link = via.link →
      Config.spdmFinishOk body = true → s.spdmAnswer via body = ({ s with boot := { s.boot with
        spdm := s.boot.spdm.filter (fun y => y.id != x.id) ++ [{ x with established := true }] } }, [v, 0x65, 0, 0])) ∧
    (byteAt body 1 = 0xE8 ∨ byteAt body 1 = 0xE9 ∨ byteAt body 1 = 0xEC → s.inSession via = none →
      s.spdmAnswer via body = (s, [v, 0x7F, 0x0B, 0])) ∧
    (∀ x, s.inSession via = some x →
      (byteAt body 1 = 0xE8 → s.spdmAnswer via body = (s, [v, 0x68, 0, 0])) ∧
      (byteAt body 1 = 0xEC → (s.spdmAnswer via body).1.boot.spdm = s.boot.spdm.filter (fun y => y.id != x.id)))) ∧
  (∀ (via : SpdmVia) (msg resp : Bytes) (s : State),
    (resp.length ≤ spdmLimit via → s.spdmLarge via msg resp = (s, resp)) ∧
    (spdmLimit via < resp.length → ∃ h, s.spdmLarge via msg resp = ({ s.drew with boot := { s.boot with
      chunkOut := some ⟨h, resp.length, 0, resp⟩ } }, [byteAt msg 0, 0x7F, 0x0F, 0, BitVec.ofNat 8 h]))) ∧
  (∀ (m : Bytes) (s : State), s.sbAnswers = false ∨ byteAt m 0 ≠ 1 ∨ bit (byteAt m 1) 7 = false ∨ fld (byteAt m 2) 0 6 ≠ 2 ∨
    byteAt m 3 ≠ 0x11 → exec (.numericSensorRead m) s = .next s) ∧
  (∀ (m : Bytes) (i v : Nat) (s : State), s.sbAnswers = true → byteAt m 0 = 1 → bit (byteAt m 1) 7 = true →
    fld (byteAt m 2) 0 6 = 2 → byteAt m 3 = 0x11 → i = leAt m 4 2 →
    v = (if i < 19 then s.rdf (R.TETHER_TEMP i) 0 16 else s.rdf (R.TETHER_RAIL_MV (i - 19)) 0 16) →
    (i < 27 → exec (.numericSensorRead m) s = .next (s.emit (.mctp ([1, byteAt m 1 &&& 0x1F, byteAt m 2, 0x11, 0,
      if i < 19 then 3 else 2, 0, 0, 0, 0, 0] ++ leBytes 2 v)))) ∧
    (27 ≤ i → exec (.numericSensorRead m) s = .next (s.emit (.mctp [1, byteAt m 1 &&& 0x1F, byteAt m 2, 0x11, 0x80])))) ∧
  (∀ (f : Fin 4104) (object : List Word) (s : State), 8 ≤ f.val ∨ s.cfgAnswers f.val = false →
    exec (.doeAbort f) s = .next s ∧ exec (.doeObject f object) s = .next s) ∧
  (∀ (f : Fin 4104) (object o : List Word) (s t : State) (r : Bytes), f.val < 8 → s.cfgAnswers f.val = true →
    exec (.doeAbort f) s = .next (s.setDoe f.val ⟨false, []⟩) ∧
    (s.sbAnswers = true → (s.doeBox f.val).error = false →
      (16384 < object.length ∨ fld (object.getD 1 0) 0 18 ≠ object.length →
        exec (.doeObject f object) s = .next (s.setDoe f.val ⟨true, []⟩)) ∧
      (object.length ≤ 16384 → fld (object.getD 1 0) 0 18 = object.length → fld (object.getD 0 0) 0 16 = 1 →
        s.doeAnswer (s.fnLink f.val) (fld (object.getD 0 0) 16 8) (wordsBytes (object.drop 2)) = (t, some r) →
        o = doeObj (fld (object.getD 0 0) 16 8) r →
        exec (.doeObject f object) s = .next ((t.setDoe f.val ⟨false, o⟩).emit (.doe f.val o))) ∧
      (object.length ≤ 16384 → fld (object.getD 1 0) 0 18 = object.length → fld (object.getD 0 0) 0 16 = 1 →
        s.doeAnswer (s.fnLink f.val) (fld (object.getD 0 0) 16 8) (wordsBytes (object.drop 2)) = (t, none) →
        exec (.doeObject f object) s = .next t) ∧
      (object.length ≤ 16384 → fld (object.getD 1 0) 0 18 = object.length → fld (object.getD 0 0) 0 16 ≠ 1 →
        exec (.doeObject f object) s = .next s)) ∧
    (s.sbAnswers = false ∨ (s.doeBox f.val).error = true → exec (.doeObject f object) s = .next s)) ∧
  (∀ (s : State) (k : Nat) (i : Fin 3), s.doeAnswer k 0 [BitVec.ofNat 8 i.val] =
    (s, some [1, 0, BitVec.ofNat 8 i.val, BitVec.ofNat 8 ((i.val + 1) % 3)]))

/-- After reset the device is in BOOT with LOCK 1, the firmware ABSENT, slot 0 of the ruleset LIVE and slot 1 FREE, the
Shoulder standing by, the 20 cipher cores in service, TRIP_N and FAULT_N high, Milepost time 0, no command open, no
ring, no function instance, no queue pair, no security association and no occurrence pending; the registers named hold
their Reset columns' values; HBM and both flashes are in canonical form. The empty queue of commands is the model's
choice (log entry 1), and so are blank fuses (log entry 3). (R10, R288, R377, R409, R411, Table 3-14, Table 12-2, Table
18-3, Table 19-7, Table 20-16) -/
def Obligations.ResetState : Prop :=
  (State.reset.clk.dev = .boot ∧ State.reset.clk.lock = true ∧ State.reset.kite.fw = .absent ∧
    State.reset.cway.gen0.st = .live ∧ State.reset.cway.gen0.waymark = 0 ∧ State.reset.cway.gen1.st = .free ∧
    State.reset.shld.st = .standing ∧ State.reset.ciph.cores = 0xFFFFF ∧ State.reset.tether.tripN = true ∧
    State.reset.tether.faultN = true ∧ State.reset.line.now = 0) ∧
  (∀ n, State.reset.opened n = [] ∧ State.reset.rspQ n = [] ∧ (State.reset.page n).cmd = none ∧ (State.reset.page n).rsp = none ∧
    State.reset.ring n = Ring.absent ∧ (State.reset.xing n).phase = .idle) ∧
  (State.reset.fnm.inst = [] ∧ State.reset.rte.qp = [] ∧ State.reset.ciph.sa = [] ∧ State.reset.sce.cmds = [] ∧
    State.reset.obs.queue = [] ∧ State.reset.evt.fwQueue = [] ∧ State.reset.evt.tetherQueue = [] ∧ State.reset.boot.meas = [] ∧
    State.reset.boot.log = [] ∧ State.reset.out = []) ∧
  (∀ p, p < 8 → State.reset.rd (R.LINE_PORT_CFG p) = 0x40002580 ∧ State.reset.rd (R.TM_TG_CFG p) = 0x606 ∧
    State.reset.rd (R.LINE_PFC_THRESH p) = 0xFFFFFFFF ∧ State.reset.rd (R.CIPH_MACSEC_CFG p) = 0x50000000) ∧
  (State.reset.rd R.PARSE_FOLLOW_CFG = 0x401E14 ∧ State.reset.rd R.RTBL_AGE_TICK = 1000 ∧ State.reset.rd R.CWAY_SHLD_CFG = 0x800A0A0F ∧
    State.reset.rd R.TM_CFG = 0x400 ∧ State.reset.rd R.LINE_FEC_THRESH = 1000000 ∧ State.reset.rd R.TIME_INCR = 0x280000000 ∧
    State.reset.rd (R.ENG_SLOT_TABLE 135) = 0x7654321076543210 ∧ State.reset.rd R.HIU_PF_MAP = 8 ∧ State.reset.rd R.FNM_CFG = 100 ∧
    State.reset.rd R.RTE_CFG = 0x100403E8 ∧ State.reset.rd R.SCE_CFG = 0x1E3C0200 ∧ State.reset.rd R.CIPH_SHARE = 0x908 ∧
    State.reset.rd R.PBUF_SPILL_CFG = 0xA8010000 ∧ State.reset.rd R.HBMC_PATROL_CFG = 0x80000018 ∧
    State.reset.rd R.TETHER_THERM_CFG = 0x73696405 ∧ State.reset.rd R.TETHER_RAIL_CFG = 0x603 ∧
    State.reset.rd R.TETHER_WDT_CFG = 0x1903E83C ∧ State.reset.rd R.TETHER_TRIAL = 120 ∧ State.reset.rd R.BOOT_MEAS_LOCK = 0 ∧
    State.reset.rd R.EVT_UNDELIVERED_CNT = 0) ∧
  State.reset.memoriesWf = true ∧ State.reset.pending = [] ∧ Fuses.Kept .blank State.reset.boot.fuse

/-- Whatever command runs, in whatever state, the fuses stay as they were or further fuses are blown: trust mode,
security state, boot order, manifest hash and factory repair map never change, the security version never falls, and a
revoked key stays revoked. Where the part does not act as ENFORCED no fuse changes at all. That the relation holds at
reset is part of ResetState. (R445, R446) -/
def Obligations.FusesOnlyBlown : Prop :=
  (∀ (f : Fuses) (s t : State), Fuses.Kept f s.boot.fuse → step s = .next t → Fuses.Kept f t.boot.fuse) ∧
  (∀ s t : State, s.enforced = false → step s = .next t → t.boot.fuse = s.boot.fuse)
end

