-- ==== Sys2Proof/Laws/Map.lean ====
section
/-!
SUPPORT. Laws/Map.lean: the laws of the sparse maps: read after write, the frame of a write, and that every map operation
keeps the canonical form.
-/
namespace Sys2Proof.Machine

theorem mapGet_del_same {β : Type} (d : Nat → β) (m : SMap β) (k : Nat) : mapGet d (mapDel m k) k = d k := by
  induction m with
  | nil => rfl
  | cons e r ih =>
    obtain ⟨a, v⟩ := e
    by_cases h : a = k
    · subst h; simpa [mapDel] using ih
    · have hk : k ≠ a := fun e => h e.symm
      simpa [mapDel, h, mapGet, hk] using ih

theorem mapGet_del_ne {β : Type} (d : Nat → β) (m : SMap β) {k j : Nat} (h : j ≠ k) :
    mapGet d (mapDel m k) j = mapGet d m j := by
  induction m with
  | nil => rfl
  | cons e r ih =>
    obtain ⟨a, v⟩ := e
    by_cases ha : a = k
    · subst ha; simpa [mapDel, mapGet, h] using ih
    · have : mapDel ((a, v) :: r) k = (a, v) :: mapDel r k := by simp [mapDel, ha]
      rw [this]; simp only [mapGet]; rw [ih]

theorem mapGet_ins_ne {β : Type} (d : Nat → β) (m : SMap β) {k j : Nat} (v : β) (h : j ≠ k) :
    mapGet d (mapIns m k v) j = mapGet d m j := by
  induction m with
  | nil => simp [mapIns, mapGet, h]
  | cons e r ih =>
    obtain ⟨a, w⟩ := e
    by_cases ha : k < a
    · simp [mapIns, ha, mapGet, h]
    · simp only [mapIns, ha, if_false, mapGet]; rw [ih]

theorem mapGet_ins_same {β : Type} (d : Nat → β) (m : SMap β) (k : Nat) (v : β) (h : ∀ e ∈ m, e.1 ≠ k) :
    mapGet d (mapIns m k v) k = v := by
  induction m with
  | nil => simp [mapIns, mapGet]
  | cons e r ih =>
    obtain ⟨a, w⟩ := e
    by_cases ha : k < a
    · simp [mapIns, ha, mapGet]
    · have hne : k ≠ a := fun e => h (a, w) (by simp) e.symm
      simp only [mapIns, ha, if_false, mapGet, hne]
      exact ih (fun e he => h e (by simp [he]))

theorem mapDel_ne {β : Type} (m : SMap β) (k : Nat) : ∀ e ∈ mapDel m k, e.1 ≠ k := by
  intro e he; simp [mapDel] at he; exact he.2

@[simp] theorem mapGet_set_same {β : Type} [DecidableEq β] (d : Nat → β) (m : SMap β) (k : Nat) (v : β) :
    mapGet d (mapSet d m k v) k = v := by
  unfold mapSet
  split
  · rename_i h; rw [mapGet_del_same, h]
  · exact mapGet_ins_same d _ k v (mapDel_ne m k)

theorem mapGet_set_ne {β : Type} [DecidableEq β] (d : Nat → β) (m : SMap β) {k j : Nat} (v : β) (h : j ≠ k) :
    mapGet d (mapSet d m k v) j = mapGet d m j := by
  unfold mapSet
  split
  · exact mapGet_del_ne d m h
  · rw [mapGet_ins_ne d _ v h, mapGet_del_ne d m h]

theorem mapGet_set {β : Type} [DecidableEq β] (d : Nat → β) (m : SMap β) (k j : Nat) (v : β) :
    mapGet d (mapSet d m k v) j = if j = k then v else mapGet d m j := by
  by_cases h : j = k
  · subst h; simp
  · simp [h, mapGet_set_ne d m v h]

theorem mapWfFrom_filter {β : Type} [DecidableEq β] (d : Nat → β) (p : Nat × β → Bool) (m : SMap β) :
    ∀ lo lo' : Option Nat, (∀ a, aboveOpt lo a = true → aboveOpt lo' a = true) →
      mapWfFrom d lo m = true → mapWfFrom d lo' (m.filter p) = true := by
  induction m with
  | nil => intros; rfl
  | cons e r ih =>
    obtain ⟨a, v⟩ := e
    intro lo lo' hl hw
    simp only [mapWfFrom, Bool.and_eq_true] at hw
    obtain ⟨⟨h1, h2⟩, h3⟩ := hw
    by_cases hp : p (a, v) = true
    · rw [List.filter_cons_of_pos hp]
      simp only [mapWfFrom, Bool.and_eq_true]
      exact ⟨⟨hl a h1, h2⟩, ih (some a) (some a) (fun _ h => h) h3⟩
    · rw [List.filter_cons_of_neg hp]
      refine ih (some a) lo' ?_ h3
      intro b hb
      refine hl b ?_
      cases lo with
      | none => rfl
      | some l => simp [aboveOpt] at h1 hb ⊢; omega

theorem mapWf_filter {β : Type} [DecidableEq β] (d : Nat → β) (p : Nat × β → Bool) (m : SMap β)
    (h : mapWf d m = true) : mapWf d (m.filter p) = true :=
  mapWfFrom_filter d p m none none (fun _ h => h) h

theorem mapWfFrom_ins {β : Type} [DecidableEq β] (d : Nat → β) (k : Nat) (v : β) (hv : v ≠ d k) (m : SMap β) :
    ∀ lo : Option Nat, aboveOpt lo k = true →
      (∀ e ∈ m, e.1 ≠ k) → mapWfFrom d lo m = true → mapWfFrom d lo (mapIns m k v) = true := by
  induction m with
  | nil => intro lo hk _ _; simp [mapIns, mapWfFrom, hv, hk]
  | cons e r ih =>
    obtain ⟨a, w⟩ := e
    intro lo hk hne hw
    simp only [mapWfFrom, Bool.and_eq_true] at hw
    obtain ⟨⟨h1, h2⟩, h3⟩ := hw
    by_cases ha : k < a
    · simp only [mapIns, ha, if_true, mapWfFrom, Bool.and_eq_true]
      exact ⟨⟨hk, by simp [hv]⟩, ⟨⟨by simp [aboveOpt, ha], h2⟩, h3⟩⟩
    · simp only [mapIns, ha, if_false, mapWfFrom, Bool.and_eq_true]
      have : a ≠ k := hne (a, w) (by simp)
      exact ⟨⟨h1, h2⟩, ih (some a) (by simp [aboveOpt]; omega) (fun e he => hne e (by simp [he])) h3⟩

theorem mapWf_set {β : Type} [DecidableEq β] (d : Nat → β) (m : SMap β) (k : Nat) (v : β)
    (h : mapWf d m = true) : mapWf d (mapSet d m k v) = true := by
  unfold mapSet
  split
  · exact mapWf_filter d _ m h
  · rename_i hv
    exact mapWfFrom_ins d k v hv _ none rfl (mapDel_ne m k) (mapWf_filter d _ m h)

theorem mapWf_upd {β : Type} [DecidableEq β] (d : Nat → β) (m : SMap β) (k : Nat) (f : β → β)
    (h : mapWf d m = true) : mapWf d (mapUpd d m k f) = true := mapWf_set d m k _ h

theorem mapWf_clear {β : Type} [DecidableEq β] (d : Nat → β) (m : SMap β) (lo hi : Nat)
    (h : mapWf d m = true) : mapWf d (mapClear m lo hi) = true := mapWf_filter d _ m h

theorem mapWf_keep {β : Type} [DecidableEq β] (d : Nat → β) (p : Nat → Bool) (m : SMap β)
    (h : mapWf d m = true) : mapWf d (mapKeep p m) = true := mapWf_filter d _ m h

theorem mapWf_setList {β : Type} [DecidableEq β] (d : Nat → β) (vs : List β) :
    ∀ (m : SMap β) (k : Nat), mapWf d m = true → mapWf d (mapSetList d m k vs) = true := by
  induction vs with
  | nil => intro m k h; exact h
  | cons v vs ih => intro m k h; exact ih _ _ (mapWf_set d m k v h)

theorem mapGet_setList_ne {β : Type} [DecidableEq β] (d : Nat → β) (vs : List β) :
    ∀ (m : SMap β) (k j : Nat), (j < k ∨ k + vs.length ≤ j) →
      mapGet d (mapSetList d m k vs) j = mapGet d m j := by
  induction vs with
  | nil => intros; rfl
  | cons v vs ih =>
    intro m k j h
    simp only [List.length_cons] at h
    rw [mapSetList, ih _ _ _ (by omega), mapGet_set_ne d m v (by omega)]

theorem mapGetList_setList {β : Type} [DecidableEq β] (d : Nat → β) (vs : List β) :
    ∀ (m : SMap β) (k : Nat), mapGetList d (mapSetList d m k vs) k vs.length = vs := by
  induction vs with
  | nil => intros; rfl
  | cons v vs ih =>
    intro m k
    simp only [mapSetList, List.length_cons, mapGetList]
    rw [ih, mapGet_setList_ne d vs _ _ _ (by omega), mapGet_set_same]

/-- A key that a map does not list reads as its default. -/
theorem mapGet_unlisted {β : Type} (d : Nat → β) (m : SMap β) (k : Nat) (h : ∀ e ∈ m, e.1 ≠ k) : mapGet d m k = d k := by
  induction m with
  | nil => rfl
  | cons e r ih =>
    obtain ⟨a, v⟩ := e
    have ha : k ≠ a := fun e => h (a, v) (by simp) e.symm
    simp only [mapGet, ha, if_false]
    exact ih (fun e he => h e (by simp [he]))

/-- A run of unlisted keys reads as the default throughout. -/
theorem mapGetList_unlisted {β : Type} (b : β) (m : SMap β) :
    ∀ (n k : Nat), (∀ e ∈ m, e.1 < k ∨ k + n ≤ e.1) → mapGetList (fun _ => b) m k n = List.replicate n b := by
  intro n
  induction n with
  | zero => intros; rfl
  | succ n ih =>
    intro k h
    rw [mapGetList, mapGet_unlisted _ m k (fun e he => by have := h e he; omega),
      ih (k + 1) (fun e he => by have := h e he; omega), List.replicate_succ]

end Sys2Proof.Machine
end

