-- ==== Sys2Proof/Laws/State.lean ====
section
/-!
SUPPORT. Laws/State.lean: for each update of the state, every field it leaves alone, true by definition; and for each map of objects,
that the object written is the one read back and no other changes.
-/
namespace Sys2Proof.Machine
open Sys2Proof

@[simp] theorem evt_wr (s : State) (a : Nat) (v : DWord) : (s.wr a v).evt = s.evt := rfl
@[simp] theorem clk_wr (s : State) (a : Nat) (v : DWord) : (s.wr a v).clk = s.clk := rfl
@[simp] theorem parse_wr (s : State) (a : Nat) (v : DWord) : (s.wr a v).parse = s.parse := rfl
@[simp] theorem cway_wr (s : State) (a : Nat) (v : DWord) : (s.wr a v).cway = s.cway := rfl
@[simp] theorem rtbl_wr (s : State) (a : Nat) (v : DWord) : (s.wr a v).rtbl = s.rtbl := rfl
@[simp] theorem shld_wr (s : State) (a : Nat) (v : DWord) : (s.wr a v).shld = s.shld := rfl
@[simp] theorem tm_wr (s : State) (a : Nat) (v : DWord) : (s.wr a v).tm = s.tm := rfl
@[simp] theorem line_wr (s : State) (a : Nat) (v : DWord) : (s.wr a v).line = s.line := rfl
@[simp] theorem eng_wr (s : State) (a : Nat) (v : DWord) : (s.wr a v).eng = s.eng := rfl
@[simp] theorem hiu_wr (s : State) (a : Nat) (v : DWord) : (s.wr a v).hiu = s.hiu := rfl
@[simp] theorem fnm_wr (s : State) (a : Nat) (v : DWord) : (s.wr a v).fnm = s.fnm := rfl
@[simp] theorem kite_wr (s : State) (a : Nat) (v : DWord) : (s.wr a v).kite = s.kite := rfl
@[simp] theorem rings_wr (s : State) (a : Nat) (v : DWord) : (s.wr a v).rings = s.rings := rfl
@[simp] theorem rte_wr (s : State) (a : Nat) (v : DWord) : (s.wr a v).rte = s.rte := rfl
@[simp] theorem sce_wr (s : State) (a : Nat) (v : DWord) : (s.wr a v).sce = s.sce := rfl
@[simp] theorem ciph_wr (s : State) (a : Nat) (v : DWord) : (s.wr a v).ciph = s.ciph := rfl
@[simp] theorem hbm_wr (s : State) (a : Nat) (v : DWord) : (s.wr a v).hbm = s.hbm := rfl
@[simp] theorem tether_wr (s : State) (a : Nat) (v : DWord) : (s.wr a v).tether = s.tether := rfl
@[simp] theorem boot_wr (s : State) (a : Nat) (v : DWord) : (s.wr a v).boot = s.boot := rfl
@[simp] theorem obs_wr (s : State) (a : Nat) (v : DWord) : (s.wr a v).obs = s.obs := rfl
@[simp] theorem out_wr (s : State) (a : Nat) (v : DWord) : (s.wr a v).out = s.out := rfl
@[simp] theorem free_wr (s : State) (a : Nat) (v : DWord) : (s.wr a v).free = s.free := rfl
@[simp] theorem pending_wr (s : State) (a : Nat) (v : DWord) : (s.wr a v).pending = s.pending := rfl

@[simp] theorem evt_bumpN (s : State) (a n : Nat) : (s.bumpN a n).evt = s.evt := rfl
@[simp] theorem clk_bumpN (s : State) (a n : Nat) : (s.bumpN a n).clk = s.clk := rfl
@[simp] theorem parse_bumpN (s : State) (a n : Nat) : (s.bumpN a n).parse = s.parse := rfl
@[simp] theorem cway_bumpN (s : State) (a n : Nat) : (s.bumpN a n).cway = s.cway := rfl
@[simp] theorem rtbl_bumpN (s : State) (a n : Nat) : (s.bumpN a n).rtbl = s.rtbl := rfl
@[simp] theorem shld_bumpN (s : State) (a n : Nat) : (s.bumpN a n).shld = s.shld := rfl
@[simp] theorem tm_bumpN (s : State) (a n : Nat) : (s.bumpN a n).tm = s.tm := rfl
@[simp] theorem line_bumpN (s : State) (a n : Nat) : (s.bumpN a n).line = s.line := rfl
@[simp] theorem eng_bumpN (s : State) (a n : Nat) : (s.bumpN a n).eng = s.eng := rfl
@[simp] theorem hiu_bumpN (s : State) (a n : Nat) : (s.bumpN a n).hiu = s.hiu := rfl
@[simp] theorem fnm_bumpN (s : State) (a n : Nat) : (s.bumpN a n).fnm = s.fnm := rfl
@[simp] theorem kite_bumpN (s : State) (a n : Nat) : (s.bumpN a n).kite = s.kite := rfl
@[simp] theorem rings_bumpN (s : State) (a n : Nat) : (s.bumpN a n).rings = s.rings := rfl
@[simp] theorem rte_bumpN (s : State) (a n : Nat) : (s.bumpN a n).rte = s.rte := rfl
@[simp] theorem sce_bumpN (s : State) (a n : Nat) : (s.bumpN a n).sce = s.sce := rfl
@[simp] theorem ciph_bumpN (s : State) (a n : Nat) : (s.bumpN a n).ciph = s.ciph := rfl
@[simp] theorem hbm_bumpN (s : State) (a n : Nat) : (s.bumpN a n).hbm = s.hbm := rfl
@[simp] theorem tether_bumpN (s : State) (a n : Nat) : (s.bumpN a n).tether = s.tether := rfl
@[simp] theorem boot_bumpN (s : State) (a n : Nat) : (s.bumpN a n).boot = s.boot := rfl
@[simp] theorem obs_bumpN (s : State) (a n : Nat) : (s.bumpN a n).obs = s.obs := rfl
@[simp] theorem out_bumpN (s : State) (a n : Nat) : (s.bumpN a n).out = s.out := rfl
@[simp] theorem free_bumpN (s : State) (a n : Nat) : (s.bumpN a n).free = s.free := rfl
@[simp] theorem pending_bumpN (s : State) (a n : Nat) : (s.bumpN a n).pending = s.pending := rfl

@[simp] theorem evt_bump (s : State) (a : Nat) : (s.bump a).evt = s.evt := rfl
@[simp] theorem clk_bump (s : State) (a : Nat) : (s.bump a).clk = s.clk := rfl
@[simp] theorem parse_bump (s : State) (a : Nat) : (s.bump a).parse = s.parse := rfl
@[simp] theorem cway_bump (s : State) (a : Nat) : (s.bump a).cway = s.cway := rfl
@[simp] theorem rtbl_bump (s : State) (a : Nat) : (s.bump a).rtbl = s.rtbl := rfl
@[simp] theorem shld_bump (s : State) (a : Nat) : (s.bump a).shld = s.shld := rfl
@[simp] theorem tm_bump (s : State) (a : Nat) : (s.bump a).tm = s.tm := rfl
@[simp] theorem line_bump (s : State) (a : Nat) : (s.bump a).line = s.line := rfl
@[simp] theorem eng_bump (s : State) (a : Nat) : (s.bump a).eng = s.eng := rfl
@[simp] theorem hiu_bump (s : State) (a : Nat) : (s.bump a).hiu = s.hiu := rfl
@[simp] theorem fnm_bump (s : State) (a : Nat) : (s.bump a).fnm = s.fnm := rfl
@[simp] theorem kite_bump (s : State) (a : Nat) : (s.bump a).kite = s.kite := rfl
@[simp] theorem rings_bump (s : State) (a : Nat) : (s.bump a).rings = s.rings := rfl
@[simp] theorem rte_bump (s : State) (a : Nat) : (s.bump a).rte = s.rte := rfl
@[simp] theorem sce_bump (s : State) (a : Nat) : (s.bump a).sce = s.sce := rfl
@[simp] theorem ciph_bump (s : State) (a : Nat) : (s.bump a).ciph = s.ciph := rfl
@[simp] theorem hbm_bump (s : State) (a : Nat) : (s.bump a).hbm = s.hbm := rfl
@[simp] theorem tether_bump (s : State) (a : Nat) : (s.bump a).tether = s.tether := rfl
@[simp] theorem boot_bump (s : State) (a : Nat) : (s.bump a).boot = s.boot := rfl
@[simp] theorem obs_bump (s : State) (a : Nat) : (s.bump a).obs = s.obs := rfl
@[simp] theorem out_bump (s : State) (a : Nat) : (s.bump a).out = s.out := rfl
@[simp] theorem free_bump (s : State) (a : Nat) : (s.bump a).free = s.free := rfl
@[simp] theorem pending_bump (s : State) (a : Nat) : (s.bump a).pending = s.pending := rfl

@[simp] theorem evt_wrf (s : State) (a lo len x : Nat) : (s.wrf a lo len x).evt = s.evt := rfl
@[simp] theorem clk_wrf (s : State) (a lo len x : Nat) : (s.wrf a lo len x).clk = s.clk := rfl
@[simp] theorem parse_wrf (s : State) (a lo len x : Nat) : (s.wrf a lo len x).parse = s.parse := rfl
@[simp] theorem cway_wrf (s : State) (a lo len x : Nat) : (s.wrf a lo len x).cway = s.cway := rfl
@[simp] theorem rtbl_wrf (s : State) (a lo len x : Nat) : (s.wrf a lo len x).rtbl = s.rtbl := rfl
@[simp] theorem shld_wrf (s : State) (a lo len x : Nat) : (s.wrf a lo len x).shld = s.shld := rfl
@[simp] theorem tm_wrf (s : State) (a lo len x : Nat) : (s.wrf a lo len x).tm = s.tm := rfl
@[simp] theorem line_wrf (s : State) (a lo len x : Nat) : (s.wrf a lo len x).line = s.line := rfl
@[simp] theorem eng_wrf (s : State) (a lo len x : Nat) : (s.wrf a lo len x).eng = s.eng := rfl
@[simp] theorem hiu_wrf (s : State) (a lo len x : Nat) : (s.wrf a lo len x).hiu = s.hiu := rfl
@[simp] theorem fnm_wrf (s : State) (a lo len x : Nat) : (s.wrf a lo len x).fnm = s.fnm := rfl
@[simp] theorem kite_wrf (s : State) (a lo len x : Nat) : (s.wrf a lo len x).kite = s.kite := rfl
@[simp] theorem rings_wrf (s : State) (a lo len x : Nat) : (s.wrf a lo len x).rings = s.rings := rfl
@[simp] theorem rte_wrf (s : State) (a lo len x : Nat) : (s.wrf a lo len x).rte = s.rte := rfl
@[simp] theorem sce_wrf (s : State) (a lo len x : Nat) : (s.wrf a lo len x).sce = s.sce := rfl
@[simp] theorem ciph_wrf (s : State) (a lo len x : Nat) : (s.wrf a lo len x).ciph = s.ciph := rfl
@[simp] theorem hbm_wrf (s : State) (a lo len x : Nat) : (s.wrf a lo len x).hbm = s.hbm := rfl
@[simp] theorem tether_wrf (s : State) (a lo len x : Nat) : (s.wrf a lo len x).tether = s.tether := rfl
@[simp] theorem boot_wrf (s : State) (a lo len x : Nat) : (s.wrf a lo len x).boot = s.boot := rfl
@[simp] theorem obs_wrf (s : State) (a lo len x : Nat) : (s.wrf a lo len x).obs = s.obs := rfl
@[simp] theorem out_wrf (s : State) (a lo len x : Nat) : (s.wrf a lo len x).out = s.out := rfl
@[simp] theorem free_wrf (s : State) (a lo len x : Nat) : (s.wrf a lo len x).free = s.free := rfl
@[simp] theorem pending_wrf (s : State) (a lo len x : Nat) : (s.wrf a lo len x).pending = s.pending := rfl

@[simp] theorem regs_emit (s : State) (o : Out) : (s.emit o).regs = s.regs := rfl
@[simp] theorem evt_emit (s : State) (o : Out) : (s.emit o).evt = s.evt := rfl
@[simp] theorem clk_emit (s : State) (o : Out) : (s.emit o).clk = s.clk := rfl
@[simp] theorem parse_emit (s : State) (o : Out) : (s.emit o).parse = s.parse := rfl
@[simp] theorem cway_emit (s : State) (o : Out) : (s.emit o).cway = s.cway := rfl
@[simp] theorem rtbl_emit (s : State) (o : Out) : (s.emit o).rtbl = s.rtbl := rfl
@[simp] theorem shld_emit (s : State) (o : Out) : (s.emit o).shld = s.shld := rfl
@[simp] theorem tm_emit (s : State) (o : Out) : (s.emit o).tm = s.tm := rfl
@[simp] theorem line_emit (s : State) (o : Out) : (s.emit o).line = s.line := rfl
@[simp] theorem eng_emit (s : State) (o : Out) : (s.emit o).eng = s.eng := rfl
@[simp] theorem hiu_emit (s : State) (o : Out) : (s.emit o).hiu = s.hiu := rfl
@[simp] theorem fnm_emit (s : State) (o : Out) : (s.emit o).fnm = s.fnm := rfl
@[simp] theorem kite_emit (s : State) (o : Out) : (s.emit o).kite = s.kite := rfl
@[simp] theorem rings_emit (s : State) (o : Out) : (s.emit o).rings = s.rings := rfl
@[simp] theorem rte_emit (s : State) (o : Out) : (s.emit o).rte = s.rte := rfl
@[simp] theorem sce_emit (s : State) (o : Out) : (s.emit o).sce = s.sce := rfl
@[simp] theorem ciph_emit (s : State) (o : Out) : (s.emit o).ciph = s.ciph := rfl
@[simp] theorem hbm_emit (s : State) (o : Out) : (s.emit o).hbm = s.hbm := rfl
@[simp] theorem tether_emit (s : State) (o : Out) : (s.emit o).tether = s.tether := rfl
@[simp] theorem boot_emit (s : State) (o : Out) : (s.emit o).boot = s.boot := rfl
@[simp] theorem obs_emit (s : State) (o : Out) : (s.emit o).obs = s.obs := rfl
@[simp] theorem free_emit (s : State) (o : Out) : (s.emit o).free = s.free := rfl
@[simp] theorem pending_emit (s : State) (o : Out) : (s.emit o).pending = s.pending := rfl

@[simp] theorem regs_drew (s : State) : (s.drew).regs = s.regs := rfl
@[simp] theorem evt_drew (s : State) : (s.drew).evt = s.evt := rfl
@[simp] theorem clk_drew (s : State) : (s.drew).clk = s.clk := rfl
@[simp] theorem parse_drew (s : State) : (s.drew).parse = s.parse := rfl
@[simp] theorem cway_drew (s : State) : (s.drew).cway = s.cway := rfl
@[simp] theorem rtbl_drew (s : State) : (s.drew).rtbl = s.rtbl := rfl
@[simp] theorem shld_drew (s : State) : (s.drew).shld = s.shld := rfl
@[simp] theorem tm_drew (s : State) : (s.drew).tm = s.tm := rfl
@[simp] theorem line_drew (s : State) : (s.drew).line = s.line := rfl
@[simp] theorem eng_drew (s : State) : (s.drew).eng = s.eng := rfl
@[simp] theorem hiu_drew (s : State) : (s.drew).hiu = s.hiu := rfl
@[simp] theorem fnm_drew (s : State) : (s.drew).fnm = s.fnm := rfl
@[simp] theorem kite_drew (s : State) : (s.drew).kite = s.kite := rfl
@[simp] theorem rings_drew (s : State) : (s.drew).rings = s.rings := rfl
@[simp] theorem rte_drew (s : State) : (s.drew).rte = s.rte := rfl
@[simp] theorem sce_drew (s : State) : (s.drew).sce = s.sce := rfl
@[simp] theorem ciph_drew (s : State) : (s.drew).ciph = s.ciph := rfl
@[simp] theorem hbm_drew (s : State) : (s.drew).hbm = s.hbm := rfl
@[simp] theorem tether_drew (s : State) : (s.drew).tether = s.tether := rfl
@[simp] theorem boot_drew (s : State) : (s.drew).boot = s.boot := rfl
@[simp] theorem obs_drew (s : State) : (s.drew).obs = s.obs := rfl
@[simp] theorem out_drew (s : State) : (s.drew).out = s.out := rfl
@[simp] theorem pending_drew (s : State) : (s.drew).pending = s.pending := rfl

@[simp] theorem regs_setXing (s : State) (n : Nat) (x : EvXing) : (s.setXing n x).regs = s.regs := rfl
@[simp] theorem clk_setXing (s : State) (n : Nat) (x : EvXing) : (s.setXing n x).clk = s.clk := rfl
@[simp] theorem parse_setXing (s : State) (n : Nat) (x : EvXing) : (s.setXing n x).parse = s.parse := rfl
@[simp] theorem cway_setXing (s : State) (n : Nat) (x : EvXing) : (s.setXing n x).cway = s.cway := rfl
@[simp] theorem rtbl_setXing (s : State) (n : Nat) (x : EvXing) : (s.setXing n x).rtbl = s.rtbl := rfl
@[simp] theorem shld_setXing (s : State) (n : Nat) (x : EvXing) : (s.setXing n x).shld = s.shld := rfl
@[simp] theorem tm_setXing (s : State) (n : Nat) (x : EvXing) : (s.setXing n x).tm = s.tm := rfl
@[simp] theorem line_setXing (s : State) (n : Nat) (x : EvXing) : (s.setXing n x).line = s.line := rfl
@[simp] theorem eng_setXing (s : State) (n : Nat) (x : EvXing) : (s.setXing n x).eng = s.eng := rfl
@[simp] theorem hiu_setXing (s : State) (n : Nat) (x : EvXing) : (s.setXing n x).hiu = s.hiu := rfl
@[simp] theorem fnm_setXing (s : State) (n : Nat) (x : EvXing) : (s.setXing n x).fnm = s.fnm := rfl
@[simp] theorem kite_setXing (s : State) (n : Nat) (x : EvXing) : (s.setXing n x).kite = s.kite := rfl
@[simp] theorem rings_setXing (s : State) (n : Nat) (x : EvXing) : (s.setXing n x).rings = s.rings := rfl
@[simp] theorem rte_setXing (s : State) (n : Nat) (x : EvXing) : (s.setXing n x).rte = s.rte := rfl
@[simp] theorem sce_setXing (s : State) (n : Nat) (x : EvXing) : (s.setXing n x).sce = s.sce := rfl
@[simp] theorem ciph_setXing (s : State) (n : Nat) (x : EvXing) : (s.setXing n x).ciph = s.ciph := rfl
@[simp] theorem hbm_setXing (s : State) (n : Nat) (x : EvXing) : (s.setXing n x).hbm = s.hbm := rfl
@[simp] theorem tether_setXing (s : State) (n : Nat) (x : EvXing) : (s.setXing n x).tether = s.tether := rfl
@[simp] theorem boot_setXing (s : State) (n : Nat) (x : EvXing) : (s.setXing n x).boot = s.boot := rfl
@[simp] theorem obs_setXing (s : State) (n : Nat) (x : EvXing) : (s.setXing n x).obs = s.obs := rfl
@[simp] theorem out_setXing (s : State) (n : Nat) (x : EvXing) : (s.setXing n x).out = s.out := rfl
@[simp] theorem free_setXing (s : State) (n : Nat) (x : EvXing) : (s.setXing n x).free = s.free := rfl
@[simp] theorem pending_setXing (s : State) (n : Nat) (x : EvXing) : (s.setXing n x).pending = s.pending := rfl

@[simp] theorem regs_setDelta (s : State) (a : Nat) (v : DWord) : (s.setDelta a v).regs = s.regs := rfl
@[simp] theorem clk_setDelta (s : State) (a : Nat) (v : DWord) : (s.setDelta a v).clk = s.clk := rfl
@[simp] theorem parse_setDelta (s : State) (a : Nat) (v : DWord) : (s.setDelta a v).parse = s.parse := rfl
@[simp] theorem cway_setDelta (s : State) (a : Nat) (v : DWord) : (s.setDelta a v).cway = s.cway := rfl
@[simp] theorem rtbl_setDelta (s : State) (a : Nat) (v : DWord) : (s.setDelta a v).rtbl = s.rtbl := rfl
@[simp] theorem shld_setDelta (s : State) (a : Nat) (v : DWord) : (s.setDelta a v).shld = s.shld := rfl
@[simp] theorem tm_setDelta (s : State) (a : Nat) (v : DWord) : (s.setDelta a v).tm = s.tm := rfl
@[simp] theorem line_setDelta (s : State) (a : Nat) (v : DWord) : (s.setDelta a v).line = s.line := rfl
@[simp] theorem eng_setDelta (s : State) (a : Nat) (v : DWord) : (s.setDelta a v).eng = s.eng := rfl
@[simp] theorem hiu_setDelta (s : State) (a : Nat) (v : DWord) : (s.setDelta a v).hiu = s.hiu := rfl
@[simp] theorem fnm_setDelta (s : State) (a : Nat) (v : DWord) : (s.setDelta a v).fnm = s.fnm := rfl
@[simp] theorem kite_setDelta (s : State) (a : Nat) (v : DWord) : (s.setDelta a v).kite = s.kite := rfl
@[simp] theorem rings_setDelta (s : State) (a : Nat) (v : DWord) : (s.setDelta a v).rings = s.rings := rfl
@[simp] theorem rte_setDelta (s : State) (a : Nat) (v : DWord) : (s.setDelta a v).rte = s.rte := rfl
@[simp] theorem sce_setDelta (s : State) (a : Nat) (v : DWord) : (s.setDelta a v).sce = s.sce := rfl
@[simp] theorem ciph_setDelta (s : State) (a : Nat) (v : DWord) : (s.setDelta a v).ciph = s.ciph := rfl
@[simp] theorem hbm_setDelta (s : State) (a : Nat) (v : DWord) : (s.setDelta a v).hbm = s.hbm := rfl
@[simp] theorem tether_setDelta (s : State) (a : Nat) (v : DWord) : (s.setDelta a v).tether = s.tether := rfl
@[simp] theorem boot_setDelta (s : State) (a : Nat) (v : DWord) : (s.setDelta a v).boot = s.boot := rfl
@[simp] theorem obs_setDelta (s : State) (a : Nat) (v : DWord) : (s.setDelta a v).obs = s.obs := rfl
@[simp] theorem out_setDelta (s : State) (a : Nat) (v : DWord) : (s.setDelta a v).out = s.out := rfl
@[simp] theorem free_setDelta (s : State) (a : Nat) (v : DWord) : (s.setDelta a v).free = s.free := rfl
@[simp] theorem pending_setDelta (s : State) (a : Nat) (v : DWord) : (s.setDelta a v).pending = s.pending := rfl

@[simp] theorem regs_setFn (s : State) (f : Nat) (v : HFn) : (s.setFn f v).regs = s.regs := rfl
@[simp] theorem evt_setFn (s : State) (f : Nat) (v : HFn) : (s.setFn f v).evt = s.evt := rfl
@[simp] theorem clk_setFn (s : State) (f : Nat) (v : HFn) : (s.setFn f v).clk = s.clk := rfl
@[simp] theorem parse_setFn (s : State) (f : Nat) (v : HFn) : (s.setFn f v).parse = s.parse := rfl
@[simp] theorem cway_setFn (s : State) (f : Nat) (v : HFn) : (s.setFn f v).cway = s.cway := rfl
@[simp] theorem rtbl_setFn (s : State) (f : Nat) (v : HFn) : (s.setFn f v).rtbl = s.rtbl := rfl
@[simp] theorem shld_setFn (s : State) (f : Nat) (v : HFn) : (s.setFn f v).shld = s.shld := rfl
@[simp] theorem tm_setFn (s : State) (f : Nat) (v : HFn) : (s.setFn f v).tm = s.tm := rfl
@[simp] theorem line_setFn (s : State) (f : Nat) (v : HFn) : (s.setFn f v).line = s.line := rfl
@[simp] theorem eng_setFn (s : State) (f : Nat) (v : HFn) : (s.setFn f v).eng = s.eng := rfl
@[simp] theorem fnm_setFn (s : State) (f : Nat) (v : HFn) : (s.setFn f v).fnm = s.fnm := rfl
@[simp] theorem kite_setFn (s : State) (f : Nat) (v : HFn) : (s.setFn f v).kite = s.kite := rfl
@[simp] theorem rings_setFn (s : State) (f : Nat) (v : HFn) : (s.setFn f v).rings = s.rings := rfl
@[simp] theorem rte_setFn (s : State) (f : Nat) (v : HFn) : (s.setFn f v).rte = s.rte := rfl
@[simp] theorem sce_setFn (s : State) (f : Nat) (v : HFn) : (s.setFn f v).sce = s.sce := rfl
@[simp] theorem ciph_setFn (s : State) (f : Nat) (v : HFn) : (s.setFn f v).ciph = s.ciph := rfl
@[simp] theorem hbm_setFn (s : State) (f : Nat) (v : HFn) : (s.setFn f v).hbm = s.hbm := rfl
@[simp] theorem tether_setFn (s : State) (f : Nat) (v : HFn) : (s.setFn f v).tether = s.tether := rfl
@[simp] theorem boot_setFn (s : State) (f : Nat) (v : HFn) : (s.setFn f v).boot = s.boot := rfl
@[simp] theorem obs_setFn (s : State) (f : Nat) (v : HFn) : (s.setFn f v).obs = s.obs := rfl
@[simp] theorem out_setFn (s : State) (f : Nat) (v : HFn) : (s.setFn f v).out = s.out := rfl
@[simp] theorem free_setFn (s : State) (f : Nat) (v : HFn) : (s.setFn f v).free = s.free := rfl
@[simp] theorem pending_setFn (s : State) (f : Nat) (v : HFn) : (s.setFn f v).pending = s.pending := rfl

@[simp] theorem regs_updFn (s : State) (f : Nat) (g : HFn → HFn) : (s.updFn f g).regs = s.regs := rfl
@[simp] theorem evt_updFn (s : State) (f : Nat) (g : HFn → HFn) : (s.updFn f g).evt = s.evt := rfl
@[simp] theorem clk_updFn (s : State) (f : Nat) (g : HFn → HFn) : (s.updFn f g).clk = s.clk := rfl
@[simp] theorem parse_updFn (s : State) (f : Nat) (g : HFn → HFn) : (s.updFn f g).parse = s.parse := rfl
@[simp] theorem cway_updFn (s : State) (f : Nat) (g : HFn → HFn) : (s.updFn f g).cway = s.cway := rfl
@[simp] theorem rtbl_updFn (s : State) (f : Nat) (g : HFn → HFn) : (s.updFn f g).rtbl = s.rtbl := rfl
@[simp] theorem shld_updFn (s : State) (f : Nat) (g : HFn → HFn) : (s.updFn f g).shld = s.shld := rfl
@[simp] theorem tm_updFn (s : State) (f : Nat) (g : HFn → HFn) : (s.updFn f g).tm = s.tm := rfl
@[simp] theorem line_updFn (s : State) (f : Nat) (g : HFn → HFn) : (s.updFn f g).line = s.line := rfl
@[simp] theorem eng_updFn (s : State) (f : Nat) (g : HFn → HFn) : (s.updFn f g).eng = s.eng := rfl
@[simp] theorem fnm_updFn (s : State) (f : Nat) (g : HFn → HFn) : (s.updFn f g).fnm = s.fnm := rfl
@[simp] theorem kite_updFn (s : State) (f : Nat) (g : HFn → HFn) : (s.updFn f g).kite = s.kite := rfl
@[simp] theorem rings_updFn (s : State) (f : Nat) (g : HFn → HFn) : (s.updFn f g).rings = s.rings := rfl
@[simp] theorem rte_updFn (s : State) (f : Nat) (g : HFn → HFn) : (s.updFn f g).rte = s.rte := rfl
@[simp] theorem sce_updFn (s : State) (f : Nat) (g : HFn → HFn) : (s.updFn f g).sce = s.sce := rfl
@[simp] theorem ciph_updFn (s : State) (f : Nat) (g : HFn → HFn) : (s.updFn f g).ciph = s.ciph := rfl
@[simp] theorem hbm_updFn (s : State) (f : Nat) (g : HFn → HFn) : (s.updFn f g).hbm = s.hbm := rfl
@[simp] theorem tether_updFn (s : State) (f : Nat) (g : HFn → HFn) : (s.updFn f g).tether = s.tether := rfl
@[simp] theorem boot_updFn (s : State) (f : Nat) (g : HFn → HFn) : (s.updFn f g).boot = s.boot := rfl
@[simp] theorem obs_updFn (s : State) (f : Nat) (g : HFn → HFn) : (s.updFn f g).obs = s.obs := rfl
@[simp] theorem out_updFn (s : State) (f : Nat) (g : HFn → HFn) : (s.updFn f g).out = s.out := rfl
@[simp] theorem free_updFn (s : State) (f : Nat) (g : HFn → HFn) : (s.updFn f g).free = s.free := rfl
@[simp] theorem pending_updFn (s : State) (f : Nat) (g : HFn → HFn) : (s.updFn f g).pending = s.pending := rfl

@[simp] theorem regs_setLink (s : State) (k : Nat) (v : HLink) : (s.setLink k v).regs = s.regs := rfl
@[simp] theorem evt_setLink (s : State) (k : Nat) (v : HLink) : (s.setLink k v).evt = s.evt := rfl
@[simp] theorem clk_setLink (s : State) (k : Nat) (v : HLink) : (s.setLink k v).clk = s.clk := rfl
@[simp] theorem parse_setLink (s : State) (k : Nat) (v : HLink) : (s.setLink k v).parse = s.parse := rfl
@[simp] theorem cway_setLink (s : State) (k : Nat) (v : HLink) : (s.setLink k v).cway = s.cway := rfl
@[simp] theorem rtbl_setLink (s : State) (k : Nat) (v : HLink) : (s.setLink k v).rtbl = s.rtbl := rfl
@[simp] theorem shld_setLink (s : State) (k : Nat) (v : HLink) : (s.setLink k v).shld = s.shld := rfl
@[simp] theorem tm_setLink (s : State) (k : Nat) (v : HLink) : (s.setLink k v).tm = s.tm := rfl
@[simp] theorem line_setLink (s : State) (k : Nat) (v : HLink) : (s.setLink k v).line = s.line := rfl
@[simp] theorem eng_setLink (s : State) (k : Nat) (v : HLink) : (s.setLink k v).eng = s.eng := rfl
@[simp] theorem fnm_setLink (s : State) (k : Nat) (v : HLink) : (s.setLink k v).fnm = s.fnm := rfl
@[simp] theorem kite_setLink (s : State) (k : Nat) (v : HLink) : (s.setLink k v).kite = s.kite := rfl
@[simp] theorem rings_setLink (s : State) (k : Nat) (v : HLink) : (s.setLink k v).rings = s.rings := rfl
@[simp] theorem rte_setLink (s : State) (k : Nat) (v : HLink) : (s.setLink k v).rte = s.rte := rfl
@[simp] theorem sce_setLink (s : State) (k : Nat) (v : HLink) : (s.setLink k v).sce = s.sce := rfl
@[simp] theorem ciph_setLink (s : State) (k : Nat) (v : HLink) : (s.setLink k v).ciph = s.ciph := rfl
@[simp] theorem hbm_setLink (s : State) (k : Nat) (v : HLink) : (s.setLink k v).hbm = s.hbm := rfl
@[simp] theorem tether_setLink (s : State) (k : Nat) (v : HLink) : (s.setLink k v).tether = s.tether := rfl
@[simp] theorem boot_setLink (s : State) (k : Nat) (v : HLink) : (s.setLink k v).boot = s.boot := rfl
@[simp] theorem obs_setLink (s : State) (k : Nat) (v : HLink) : (s.setLink k v).obs = s.obs := rfl
@[simp] theorem out_setLink (s : State) (k : Nat) (v : HLink) : (s.setLink k v).out = s.out := rfl
@[simp] theorem free_setLink (s : State) (k : Nat) (v : HLink) : (s.setLink k v).free = s.free := rfl
@[simp] theorem pending_setLink (s : State) (k : Nat) (v : HLink) : (s.setLink k v).pending = s.pending := rfl

@[simp] theorem regs_setInst (s : State) (f : Nat) (v : Inst) : (s.setInst f v).regs = s.regs := rfl
@[simp] theorem evt_setInst (s : State) (f : Nat) (v : Inst) : (s.setInst f v).evt = s.evt := rfl
@[simp] theorem clk_setInst (s : State) (f : Nat) (v : Inst) : (s.setInst f v).clk = s.clk := rfl
@[simp] theorem parse_setInst (s : State) (f : Nat) (v : Inst) : (s.setInst f v).parse = s.parse := rfl
@[simp] theorem cway_setInst (s : State) (f : Nat) (v : Inst) : (s.setInst f v).cway = s.cway := rfl
@[simp] theorem rtbl_setInst (s : State) (f : Nat) (v : Inst) : (s.setInst f v).rtbl = s.rtbl := rfl
@[simp] theorem shld_setInst (s : State) (f : Nat) (v : Inst) : (s.setInst f v).shld = s.shld := rfl
@[simp] theorem tm_setInst (s : State) (f : Nat) (v : Inst) : (s.setInst f v).tm = s.tm := rfl
@[simp] theorem line_setInst (s : State) (f : Nat) (v : Inst) : (s.setInst f v).line = s.line := rfl
@[simp] theorem eng_setInst (s : State) (f : Nat) (v : Inst) : (s.setInst f v).eng = s.eng := rfl
@[simp] theorem hiu_setInst (s : State) (f : Nat) (v : Inst) : (s.setInst f v).hiu = s.hiu := rfl
@[simp] theorem kite_setInst (s : State) (f : Nat) (v : Inst) : (s.setInst f v).kite = s.kite := rfl
@[simp] theorem rings_setInst (s : State) (f : Nat) (v : Inst) : (s.setInst f v).rings = s.rings := rfl
@[simp] theorem rte_setInst (s : State) (f : Nat) (v : Inst) : (s.setInst f v).rte = s.rte := rfl
@[simp] theorem sce_setInst (s : State) (f : Nat) (v : Inst) : (s.setInst f v).sce = s.sce := rfl
@[simp] theorem ciph_setInst (s : State) (f : Nat) (v : Inst) : (s.setInst f v).ciph = s.ciph := rfl
@[simp] theorem hbm_setInst (s : State) (f : Nat) (v : Inst) : (s.setInst f v).hbm = s.hbm := rfl
@[simp] theorem tether_setInst (s : State) (f : Nat) (v : Inst) : (s.setInst f v).tether = s.tether := rfl
@[simp] theorem boot_setInst (s : State) (f : Nat) (v : Inst) : (s.setInst f v).boot = s.boot := rfl
@[simp] theorem obs_setInst (s : State) (f : Nat) (v : Inst) : (s.setInst f v).obs = s.obs := rfl
@[simp] theorem out_setInst (s : State) (f : Nat) (v : Inst) : (s.setInst f v).out = s.out := rfl
@[simp] theorem free_setInst (s : State) (f : Nat) (v : Inst) : (s.setInst f v).free = s.free := rfl
@[simp] theorem pending_setInst (s : State) (f : Nat) (v : Inst) : (s.setInst f v).pending = s.pending := rfl

@[simp] theorem regs_updInst (s : State) (f : Nat) (g : Inst → Inst) : (s.updInst f g).regs = s.regs := rfl
@[simp] theorem evt_updInst (s : State) (f : Nat) (g : Inst → Inst) : (s.updInst f g).evt = s.evt := rfl
@[simp] theorem clk_updInst (s : State) (f : Nat) (g : Inst → Inst) : (s.updInst f g).clk = s.clk := rfl
@[simp] theorem parse_updInst (s : State) (f : Nat) (g : Inst → Inst) : (s.updInst f g).parse = s.parse := rfl
@[simp] theorem cway_updInst (s : State) (f : Nat) (g : Inst → Inst) : (s.updInst f g).cway = s.cway := rfl
@[simp] theorem rtbl_updInst (s : State) (f : Nat) (g : Inst → Inst) : (s.updInst f g).rtbl = s.rtbl := rfl
@[simp] theorem shld_updInst (s : State) (f : Nat) (g : Inst → Inst) : (s.updInst f g).shld = s.shld := rfl
@[simp] theorem tm_updInst (s : State) (f : Nat) (g : Inst → Inst) : (s.updInst f g).tm = s.tm := rfl
@[simp] theorem line_updInst (s : State) (f : Nat) (g : Inst → Inst) : (s.updInst f g).line = s.line := rfl
@[simp] theorem eng_updInst (s : State) (f : Nat) (g : Inst → Inst) : (s.updInst f g).eng = s.eng := rfl
@[simp] theorem hiu_updInst (s : State) (f : Nat) (g : Inst → Inst) : (s.updInst f g).hiu = s.hiu := rfl
@[simp] theorem kite_updInst (s : State) (f : Nat) (g : Inst → Inst) : (s.updInst f g).kite = s.kite := rfl
@[simp] theorem rings_updInst (s : State) (f : Nat) (g : Inst → Inst) : (s.updInst f g).rings = s.rings := rfl
@[simp] theorem rte_updInst (s : State) (f : Nat) (g : Inst → Inst) : (s.updInst f g).rte = s.rte := rfl
@[simp] theorem sce_updInst (s : State) (f : Nat) (g : Inst → Inst) : (s.updInst f g).sce = s.sce := rfl
@[simp] theorem ciph_updInst (s : State) (f : Nat) (g : Inst → Inst) : (s.updInst f g).ciph = s.ciph := rfl
@[simp] theorem hbm_updInst (s : State) (f : Nat) (g : Inst → Inst) : (s.updInst f g).hbm = s.hbm := rfl
@[simp] theorem tether_updInst (s : State) (f : Nat) (g : Inst → Inst) : (s.updInst f g).tether = s.tether := rfl
@[simp] theorem boot_updInst (s : State) (f : Nat) (g : Inst → Inst) : (s.updInst f g).boot = s.boot := rfl
@[simp] theorem obs_updInst (s : State) (f : Nat) (g : Inst → Inst) : (s.updInst f g).obs = s.obs := rfl
@[simp] theorem out_updInst (s : State) (f : Nat) (g : Inst → Inst) : (s.updInst f g).out = s.out := rfl
@[simp] theorem free_updInst (s : State) (f : Nat) (g : Inst → Inst) : (s.updInst f g).free = s.free := rfl
@[simp] theorem pending_updInst (s : State) (f : Nat) (g : Inst → Inst) : (s.updInst f g).pending = s.pending := rfl

@[simp] theorem regs_setThr (s : State) (e t : Nat) (v : Thread) : (s.setThr e t v).regs = s.regs := rfl
@[simp] theorem evt_setThr (s : State) (e t : Nat) (v : Thread) : (s.setThr e t v).evt = s.evt := rfl
@[simp] theorem clk_setThr (s : State) (e t : Nat) (v : Thread) : (s.setThr e t v).clk = s.clk := rfl
@[simp] theorem parse_setThr (s : State) (e t : Nat) (v : Thread) : (s.setThr e t v).parse = s.parse := rfl
@[simp] theorem cway_setThr (s : State) (e t : Nat) (v : Thread) : (s.setThr e t v).cway = s.cway := rfl
@[simp] theorem rtbl_setThr (s : State) (e t : Nat) (v : Thread) : (s.setThr e t v).rtbl = s.rtbl := rfl
@[simp] theorem shld_setThr (s : State) (e t : Nat) (v : Thread) : (s.setThr e t v).shld = s.shld := rfl
@[simp] theorem tm_setThr (s : State) (e t : Nat) (v : Thread) : (s.setThr e t v).tm = s.tm := rfl
@[simp] theorem line_setThr (s : State) (e t : Nat) (v : Thread) : (s.setThr e t v).line = s.line := rfl
@[simp] theorem hiu_setThr (s : State) (e t : Nat) (v : Thread) : (s.setThr e t v).hiu = s.hiu := rfl
@[simp] theorem fnm_setThr (s : State) (e t : Nat) (v : Thread) : (s.setThr e t v).fnm = s.fnm := rfl
@[simp] theorem kite_setThr (s : State) (e t : Nat) (v : Thread) : (s.setThr e t v).kite = s.kite := rfl
@[simp] theorem rings_setThr (s : State) (e t : Nat) (v : Thread) : (s.setThr e t v).rings = s.rings := rfl
@[simp] theorem rte_setThr (s : State) (e t : Nat) (v : Thread) : (s.setThr e t v).rte = s.rte := rfl
@[simp] theorem sce_setThr (s : State) (e t : Nat) (v : Thread) : (s.setThr e t v).sce = s.sce := rfl
@[simp] theorem ciph_setThr (s : State) (e t : Nat) (v : Thread) : (s.setThr e t v).ciph = s.ciph := rfl
@[simp] theorem hbm_setThr (s : State) (e t : Nat) (v : Thread) : (s.setThr e t v).hbm = s.hbm := rfl
@[simp] theorem tether_setThr (s : State) (e t : Nat) (v : Thread) : (s.setThr e t v).tether = s.tether := rfl
@[simp] theorem boot_setThr (s : State) (e t : Nat) (v : Thread) : (s.setThr e t v).boot = s.boot := rfl
@[simp] theorem obs_setThr (s : State) (e t : Nat) (v : Thread) : (s.setThr e t v).obs = s.obs := rfl
@[simp] theorem out_setThr (s : State) (e t : Nat) (v : Thread) : (s.setThr e t v).out = s.out := rfl
@[simp] theorem free_setThr (s : State) (e t : Nat) (v : Thread) : (s.setThr e t v).free = s.free := rfl
@[simp] theorem pending_setThr (s : State) (e t : Nat) (v : Thread) : (s.setThr e t v).pending = s.pending := rfl

@[simp] theorem regs_updThr (s : State) (e t : Nat) (g : Thread → Thread) : (s.updThr e t g).regs = s.regs := rfl
@[simp] theorem evt_updThr (s : State) (e t : Nat) (g : Thread → Thread) : (s.updThr e t g).evt = s.evt := rfl
@[simp] theorem clk_updThr (s : State) (e t : Nat) (g : Thread → Thread) : (s.updThr e t g).clk = s.clk := rfl
@[simp] theorem parse_updThr (s : State) (e t : Nat) (g : Thread → Thread) : (s.updThr e t g).parse = s.parse := rfl
@[simp] theorem cway_updThr (s : State) (e t : Nat) (g : Thread → Thread) : (s.updThr e t g).cway = s.cway := rfl
@[simp] theorem rtbl_updThr (s : State) (e t : Nat) (g : Thread → Thread) : (s.updThr e t g).rtbl = s.rtbl := rfl
@[simp] theorem shld_updThr (s : State) (e t : Nat) (g : Thread → Thread) : (s.updThr e t g).shld = s.shld := rfl
@[simp] theorem tm_updThr (s : State) (e t : Nat) (g : Thread → Thread) : (s.updThr e t g).tm = s.tm := rfl
@[simp] theorem line_updThr (s : State) (e t : Nat) (g : Thread → Thread) : (s.updThr e t g).line = s.line := rfl
@[simp] theorem hiu_updThr (s : State) (e t : Nat) (g : Thread → Thread) : (s.updThr e t g).hiu = s.hiu := rfl
@[simp] theorem fnm_updThr (s : State) (e t : Nat) (g : Thread → Thread) : (s.updThr e t g).fnm = s.fnm := rfl
@[simp] theorem kite_updThr (s : State) (e t : Nat) (g : Thread → Thread) : (s.updThr e t g).kite = s.kite := rfl
@[simp] theorem rings_updThr (s : State) (e t : Nat) (g : Thread → Thread) : (s.updThr e t g).rings = s.rings := rfl
@[simp] theorem rte_updThr (s : State) (e t : Nat) (g : Thread → Thread) : (s.updThr e t g).rte = s.rte := rfl
@[simp] theorem sce_updThr (s : State) (e t : Nat) (g : Thread → Thread) : (s.updThr e t g).sce = s.sce := rfl
@[simp] theorem ciph_updThr (s : State) (e t : Nat) (g : Thread → Thread) : (s.updThr e t g).ciph = s.ciph := rfl
@[simp] theorem hbm_updThr (s : State) (e t : Nat) (g : Thread → Thread) : (s.updThr e t g).hbm = s.hbm := rfl
@[simp] theorem tether_updThr (s : State) (e t : Nat) (g : Thread → Thread) : (s.updThr e t g).tether = s.tether := rfl
@[simp] theorem boot_updThr (s : State) (e t : Nat) (g : Thread → Thread) : (s.updThr e t g).boot = s.boot := rfl
@[simp] theorem obs_updThr (s : State) (e t : Nat) (g : Thread → Thread) : (s.updThr e t g).obs = s.obs := rfl
@[simp] theorem out_updThr (s : State) (e t : Nat) (g : Thread → Thread) : (s.updThr e t g).out = s.out := rfl
@[simp] theorem free_updThr (s : State) (e t : Nat) (g : Thread → Thread) : (s.updThr e t g).free = s.free := rfl
@[simp] theorem pending_updThr (s : State) (e t : Nat) (g : Thread → Thread) : (s.updThr e t g).pending = s.pending := rfl

@[simp] theorem regs_setChan (s : State) (e c : Nat) (v : Chan) : (s.setChan e c v).regs = s.regs := rfl
@[simp] theorem evt_setChan (s : State) (e c : Nat) (v : Chan) : (s.setChan e c v).evt = s.evt := rfl
@[simp] theorem clk_setChan (s : State) (e c : Nat) (v : Chan) : (s.setChan e c v).clk = s.clk := rfl
@[simp] theorem parse_setChan (s : State) (e c : Nat) (v : Chan) : (s.setChan e c v).parse = s.parse := rfl
@[simp] theorem cway_setChan (s : State) (e c : Nat) (v : Chan) : (s.setChan e c v).cway = s.cway := rfl
@[simp] theorem rtbl_setChan (s : State) (e c : Nat) (v : Chan) : (s.setChan e c v).rtbl = s.rtbl := rfl
@[simp] theorem shld_setChan (s : State) (e c : Nat) (v : Chan) : (s.setChan e c v).shld = s.shld := rfl
@[simp] theorem tm_setChan (s : State) (e c : Nat) (v : Chan) : (s.setChan e c v).tm = s.tm := rfl
@[simp] theorem line_setChan (s : State) (e c : Nat) (v : Chan) : (s.setChan e c v).line = s.line := rfl
@[simp] theorem hiu_setChan (s : State) (e c : Nat) (v : Chan) : (s.setChan e c v).hiu = s.hiu := rfl
@[simp] theorem fnm_setChan (s : State) (e c : Nat) (v : Chan) : (s.setChan e c v).fnm = s.fnm := rfl
@[simp] theorem kite_setChan (s : State) (e c : Nat) (v : Chan) : (s.setChan e c v).kite = s.kite := rfl
@[simp] theorem rings_setChan (s : State) (e c : Nat) (v : Chan) : (s.setChan e c v).rings = s.rings := rfl
@[simp] theorem rte_setChan (s : State) (e c : Nat) (v : Chan) : (s.setChan e c v).rte = s.rte := rfl
@[simp] theorem sce_setChan (s : State) (e c : Nat) (v : Chan) : (s.setChan e c v).sce = s.sce := rfl
@[simp] theorem ciph_setChan (s : State) (e c : Nat) (v : Chan) : (s.setChan e c v).ciph = s.ciph := rfl
@[simp] theorem hbm_setChan (s : State) (e c : Nat) (v : Chan) : (s.setChan e c v).hbm = s.hbm := rfl
@[simp] theorem tether_setChan (s : State) (e c : Nat) (v : Chan) : (s.setChan e c v).tether = s.tether := rfl
@[simp] theorem boot_setChan (s : State) (e c : Nat) (v : Chan) : (s.setChan e c v).boot = s.boot := rfl
@[simp] theorem obs_setChan (s : State) (e c : Nat) (v : Chan) : (s.setChan e c v).obs = s.obs := rfl
@[simp] theorem out_setChan (s : State) (e c : Nat) (v : Chan) : (s.setChan e c v).out = s.out := rfl
@[simp] theorem free_setChan (s : State) (e c : Nat) (v : Chan) : (s.setChan e c v).free = s.free := rfl
@[simp] theorem pending_setChan (s : State) (e c : Nat) (v : Chan) : (s.setChan e c v).pending = s.pending := rfl

@[simp] theorem regs_setRing (s : State) (r : Nat) (v : Ring) : (s.setRing r v).regs = s.regs := rfl
@[simp] theorem evt_setRing (s : State) (r : Nat) (v : Ring) : (s.setRing r v).evt = s.evt := rfl
@[simp] theorem clk_setRing (s : State) (r : Nat) (v : Ring) : (s.setRing r v).clk = s.clk := rfl
@[simp] theorem parse_setRing (s : State) (r : Nat) (v : Ring) : (s.setRing r v).parse = s.parse := rfl
@[simp] theorem cway_setRing (s : State) (r : Nat) (v : Ring) : (s.setRing r v).cway = s.cway := rfl
@[simp] theorem rtbl_setRing (s : State) (r : Nat) (v : Ring) : (s.setRing r v).rtbl = s.rtbl := rfl
@[simp] theorem shld_setRing (s : State) (r : Nat) (v : Ring) : (s.setRing r v).shld = s.shld := rfl
@[simp] theorem tm_setRing (s : State) (r : Nat) (v : Ring) : (s.setRing r v).tm = s.tm := rfl
@[simp] theorem line_setRing (s : State) (r : Nat) (v : Ring) : (s.setRing r v).line = s.line := rfl
@[simp] theorem eng_setRing (s : State) (r : Nat) (v : Ring) : (s.setRing r v).eng = s.eng := rfl
@[simp] theorem hiu_setRing (s : State) (r : Nat) (v : Ring) : (s.setRing r v).hiu = s.hiu := rfl
@[simp] theorem fnm_setRing (s : State) (r : Nat) (v : Ring) : (s.setRing r v).fnm = s.fnm := rfl
@[simp] theorem kite_setRing (s : State) (r : Nat) (v : Ring) : (s.setRing r v).kite = s.kite := rfl
@[simp] theorem rte_setRing (s : State) (r : Nat) (v : Ring) : (s.setRing r v).rte = s.rte := rfl
@[simp] theorem sce_setRing (s : State) (r : Nat) (v : Ring) : (s.setRing r v).sce = s.sce := rfl
@[simp] theorem ciph_setRing (s : State) (r : Nat) (v : Ring) : (s.setRing r v).ciph = s.ciph := rfl
@[simp] theorem hbm_setRing (s : State) (r : Nat) (v : Ring) : (s.setRing r v).hbm = s.hbm := rfl
@[simp] theorem tether_setRing (s : State) (r : Nat) (v : Ring) : (s.setRing r v).tether = s.tether := rfl
@[simp] theorem boot_setRing (s : State) (r : Nat) (v : Ring) : (s.setRing r v).boot = s.boot := rfl
@[simp] theorem obs_setRing (s : State) (r : Nat) (v : Ring) : (s.setRing r v).obs = s.obs := rfl
@[simp] theorem out_setRing (s : State) (r : Nat) (v : Ring) : (s.setRing r v).out = s.out := rfl
@[simp] theorem free_setRing (s : State) (r : Nat) (v : Ring) : (s.setRing r v).free = s.free := rfl
@[simp] theorem pending_setRing (s : State) (r : Nat) (v : Ring) : (s.setRing r v).pending = s.pending := rfl

@[simp] theorem regs_updRing (s : State) (r : Nat) (g : Ring → Ring) : (s.updRing r g).regs = s.regs := rfl
@[simp] theorem evt_updRing (s : State) (r : Nat) (g : Ring → Ring) : (s.updRing r g).evt = s.evt := rfl
@[simp] theorem clk_updRing (s : State) (r : Nat) (g : Ring → Ring) : (s.updRing r g).clk = s.clk := rfl
@[simp] theorem parse_updRing (s : State) (r : Nat) (g : Ring → Ring) : (s.updRing r g).parse = s.parse := rfl
@[simp] theorem cway_updRing (s : State) (r : Nat) (g : Ring → Ring) : (s.updRing r g).cway = s.cway := rfl
@[simp] theorem rtbl_updRing (s : State) (r : Nat) (g : Ring → Ring) : (s.updRing r g).rtbl = s.rtbl := rfl
@[simp] theorem shld_updRing (s : State) (r : Nat) (g : Ring → Ring) : (s.updRing r g).shld = s.shld := rfl
@[simp] theorem tm_updRing (s : State) (r : Nat) (g : Ring → Ring) : (s.updRing r g).tm = s.tm := rfl
@[simp] theorem line_updRing (s : State) (r : Nat) (g : Ring → Ring) : (s.updRing r g).line = s.line := rfl
@[simp] theorem eng_updRing (s : State) (r : Nat) (g : Ring → Ring) : (s.updRing r g).eng = s.eng := rfl
@[simp] theorem hiu_updRing (s : State) (r : Nat) (g : Ring → Ring) : (s.updRing r g).hiu = s.hiu := rfl
@[simp] theorem fnm_updRing (s : State) (r : Nat) (g : Ring → Ring) : (s.updRing r g).fnm = s.fnm := rfl
@[simp] theorem kite_updRing (s : State) (r : Nat) (g : Ring → Ring) : (s.updRing r g).kite = s.kite := rfl
@[simp] theorem rte_updRing (s : State) (r : Nat) (g : Ring → Ring) : (s.updRing r g).rte = s.rte := rfl
@[simp] theorem sce_updRing (s : State) (r : Nat) (g : Ring → Ring) : (s.updRing r g).sce = s.sce := rfl
@[simp] theorem ciph_updRing (s : State) (r : Nat) (g : Ring → Ring) : (s.updRing r g).ciph = s.ciph := rfl
@[simp] theorem hbm_updRing (s : State) (r : Nat) (g : Ring → Ring) : (s.updRing r g).hbm = s.hbm := rfl
@[simp] theorem tether_updRing (s : State) (r : Nat) (g : Ring → Ring) : (s.updRing r g).tether = s.tether := rfl
@[simp] theorem boot_updRing (s : State) (r : Nat) (g : Ring → Ring) : (s.updRing r g).boot = s.boot := rfl
@[simp] theorem obs_updRing (s : State) (r : Nat) (g : Ring → Ring) : (s.updRing r g).obs = s.obs := rfl
@[simp] theorem out_updRing (s : State) (r : Nat) (g : Ring → Ring) : (s.updRing r g).out = s.out := rfl
@[simp] theorem free_updRing (s : State) (r : Nat) (g : Ring → Ring) : (s.updRing r g).free = s.free := rfl
@[simp] theorem pending_updRing (s : State) (r : Nat) (g : Ring → Ring) : (s.updRing r g).pending = s.pending := rfl

@[simp] theorem regs_setCinst (s : State) (i : Nat) (v : CwayInst) : (s.setCinst i v).regs = s.regs := rfl
@[simp] theorem evt_setCinst (s : State) (i : Nat) (v : CwayInst) : (s.setCinst i v).evt = s.evt := rfl
@[simp] theorem clk_setCinst (s : State) (i : Nat) (v : CwayInst) : (s.setCinst i v).clk = s.clk := rfl
@[simp] theorem parse_setCinst (s : State) (i : Nat) (v : CwayInst) : (s.setCinst i v).parse = s.parse := rfl
@[simp] theorem rtbl_setCinst (s : State) (i : Nat) (v : CwayInst) : (s.setCinst i v).rtbl = s.rtbl := rfl
@[simp] theorem shld_setCinst (s : State) (i : Nat) (v : CwayInst) : (s.setCinst i v).shld = s.shld := rfl
@[simp] theorem tm_setCinst (s : State) (i : Nat) (v : CwayInst) : (s.setCinst i v).tm = s.tm := rfl
@[simp] theorem line_setCinst (s : State) (i : Nat) (v : CwayInst) : (s.setCinst i v).line = s.line := rfl
@[simp] theorem eng_setCinst (s : State) (i : Nat) (v : CwayInst) : (s.setCinst i v).eng = s.eng := rfl
@[simp] theorem hiu_setCinst (s : State) (i : Nat) (v : CwayInst) : (s.setCinst i v).hiu = s.hiu := rfl
@[simp] theorem fnm_setCinst (s : State) (i : Nat) (v : CwayInst) : (s.setCinst i v).fnm = s.fnm := rfl
@[simp] theorem kite_setCinst (s : State) (i : Nat) (v : CwayInst) : (s.setCinst i v).kite = s.kite := rfl
@[simp] theorem rings_setCinst (s : State) (i : Nat) (v : CwayInst) : (s.setCinst i v).rings = s.rings := rfl
@[simp] theorem rte_setCinst (s : State) (i : Nat) (v : CwayInst) : (s.setCinst i v).rte = s.rte := rfl
@[simp] theorem sce_setCinst (s : State) (i : Nat) (v : CwayInst) : (s.setCinst i v).sce = s.sce := rfl
@[simp] theorem ciph_setCinst (s : State) (i : Nat) (v : CwayInst) : (s.setCinst i v).ciph = s.ciph := rfl
@[simp] theorem hbm_setCinst (s : State) (i : Nat) (v : CwayInst) : (s.setCinst i v).hbm = s.hbm := rfl
@[simp] theorem tether_setCinst (s : State) (i : Nat) (v : CwayInst) : (s.setCinst i v).tether = s.tether := rfl
@[simp] theorem boot_setCinst (s : State) (i : Nat) (v : CwayInst) : (s.setCinst i v).boot = s.boot := rfl
@[simp] theorem obs_setCinst (s : State) (i : Nat) (v : CwayInst) : (s.setCinst i v).obs = s.obs := rfl
@[simp] theorem out_setCinst (s : State) (i : Nat) (v : CwayInst) : (s.setCinst i v).out = s.out := rfl
@[simp] theorem free_setCinst (s : State) (i : Nat) (v : CwayInst) : (s.setCinst i v).free = s.free := rfl
@[simp] theorem pending_setCinst (s : State) (i : Nat) (v : CwayInst) : (s.setCinst i v).pending = s.pending := rfl

@[simp] theorem regs_updCinst (s : State) (i : Nat) (g : CwayInst → CwayInst) : (s.updCinst i g).regs = s.regs := rfl
@[simp] theorem evt_updCinst (s : State) (i : Nat) (g : CwayInst → CwayInst) : (s.updCinst i g).evt = s.evt := rfl
@[simp] theorem clk_updCinst (s : State) (i : Nat) (g : CwayInst → CwayInst) : (s.updCinst i g).clk = s.clk := rfl
@[simp] theorem parse_updCinst (s : State) (i : Nat) (g : CwayInst → CwayInst) : (s.updCinst i g).parse = s.parse := rfl
@[simp] theorem rtbl_updCinst (s : State) (i : Nat) (g : CwayInst → CwayInst) : (s.updCinst i g).rtbl = s.rtbl := rfl
@[simp] theorem shld_updCinst (s : State) (i : Nat) (g : CwayInst → CwayInst) : (s.updCinst i g).shld = s.shld := rfl
@[simp] theorem tm_updCinst (s : State) (i : Nat) (g : CwayInst → CwayInst) : (s.updCinst i g).tm = s.tm := rfl
@[simp] theorem line_updCinst (s : State) (i : Nat) (g : CwayInst → CwayInst) : (s.updCinst i g).line = s.line := rfl
@[simp] theorem eng_updCinst (s : State) (i : Nat) (g : CwayInst → CwayInst) : (s.updCinst i g).eng = s.eng := rfl
@[simp] theorem hiu_updCinst (s : State) (i : Nat) (g : CwayInst → CwayInst) : (s.updCinst i g).hiu = s.hiu := rfl
@[simp] theorem fnm_updCinst (s : State) (i : Nat) (g : CwayInst → CwayInst) : (s.updCinst i g).fnm = s.fnm := rfl
@[simp] theorem kite_updCinst (s : State) (i : Nat) (g : CwayInst → CwayInst) : (s.updCinst i g).kite = s.kite := rfl
@[simp] theorem rings_updCinst (s : State) (i : Nat) (g : CwayInst → CwayInst) : (s.updCinst i g).rings = s.rings := rfl
@[simp] theorem rte_updCinst (s : State) (i : Nat) (g : CwayInst → CwayInst) : (s.updCinst i g).rte = s.rte := rfl
@[simp] theorem sce_updCinst (s : State) (i : Nat) (g : CwayInst → CwayInst) : (s.updCinst i g).sce = s.sce := rfl
@[simp] theorem ciph_updCinst (s : State) (i : Nat) (g : CwayInst → CwayInst) : (s.updCinst i g).ciph = s.ciph := rfl
@[simp] theorem hbm_updCinst (s : State) (i : Nat) (g : CwayInst → CwayInst) : (s.updCinst i g).hbm = s.hbm := rfl
@[simp] theorem tether_updCinst (s : State) (i : Nat) (g : CwayInst → CwayInst) : (s.updCinst i g).tether = s.tether := rfl
@[simp] theorem boot_updCinst (s : State) (i : Nat) (g : CwayInst → CwayInst) : (s.updCinst i g).boot = s.boot := rfl
@[simp] theorem obs_updCinst (s : State) (i : Nat) (g : CwayInst → CwayInst) : (s.updCinst i g).obs = s.obs := rfl
@[simp] theorem out_updCinst (s : State) (i : Nat) (g : CwayInst → CwayInst) : (s.updCinst i g).out = s.out := rfl
@[simp] theorem free_updCinst (s : State) (i : Nat) (g : CwayInst → CwayInst) : (s.updCinst i g).free = s.free := rfl
@[simp] theorem pending_updCinst (s : State) (i : Nat) (g : CwayInst → CwayInst) : (s.updCinst i g).pending = s.pending := rfl

@[simp] theorem regs_setPort (s : State) (p : Nat) (v : LinePort) : (s.setPort p v).regs = s.regs := rfl
@[simp] theorem evt_setPort (s : State) (p : Nat) (v : LinePort) : (s.setPort p v).evt = s.evt := rfl
@[simp] theorem clk_setPort (s : State) (p : Nat) (v : LinePort) : (s.setPort p v).clk = s.clk := rfl
@[simp] theorem parse_setPort (s : State) (p : Nat) (v : LinePort) : (s.setPort p v).parse = s.parse := rfl
@[simp] theorem cway_setPort (s : State) (p : Nat) (v : LinePort) : (s.setPort p v).cway = s.cway := rfl
@[simp] theorem rtbl_setPort (s : State) (p : Nat) (v : LinePort) : (s.setPort p v).rtbl = s.rtbl := rfl
@[simp] theorem shld_setPort (s : State) (p : Nat) (v : LinePort) : (s.setPort p v).shld = s.shld := rfl
@[simp] theorem tm_setPort (s : State) (p : Nat) (v : LinePort) : (s.setPort p v).tm = s.tm := rfl
@[simp] theorem eng_setPort (s : State) (p : Nat) (v : LinePort) : (s.setPort p v).eng = s.eng := rfl
@[simp] theorem hiu_setPort (s : State) (p : Nat) (v : LinePort) : (s.setPort p v).hiu = s.hiu := rfl
@[simp] theorem fnm_setPort (s : State) (p : Nat) (v : LinePort) : (s.setPort p v).fnm = s.fnm := rfl
@[simp] theorem kite_setPort (s : State) (p : Nat) (v : LinePort) : (s.setPort p v).kite = s.kite := rfl
@[simp] theorem rings_setPort (s : State) (p : Nat) (v : LinePort) : (s.setPort p v).rings = s.rings := rfl
@[simp] theorem rte_setPort (s : State) (p : Nat) (v : LinePort) : (s.setPort p v).rte = s.rte := rfl
@[simp] theorem sce_setPort (s : State) (p : Nat) (v : LinePort) : (s.setPort p v).sce = s.sce := rfl
@[simp] theorem ciph_setPort (s : State) (p : Nat) (v : LinePort) : (s.setPort p v).ciph = s.ciph := rfl
@[simp] theorem hbm_setPort (s : State) (p : Nat) (v : LinePort) : (s.setPort p v).hbm = s.hbm := rfl
@[simp] theorem tether_setPort (s : State) (p : Nat) (v : LinePort) : (s.setPort p v).tether = s.tether := rfl
@[simp] theorem boot_setPort (s : State) (p : Nat) (v : LinePort) : (s.setPort p v).boot = s.boot := rfl
@[simp] theorem obs_setPort (s : State) (p : Nat) (v : LinePort) : (s.setPort p v).obs = s.obs := rfl
@[simp] theorem out_setPort (s : State) (p : Nat) (v : LinePort) : (s.setPort p v).out = s.out := rfl
@[simp] theorem free_setPort (s : State) (p : Nat) (v : LinePort) : (s.setPort p v).free = s.free := rfl
@[simp] theorem pending_setPort (s : State) (p : Nat) (v : LinePort) : (s.setPort p v).pending = s.pending := rfl

@[simp] theorem regs_setPage (s : State) (ch : Nat) (k : Kite) : (s.setPage ch k).regs = s.regs := rfl
@[simp] theorem evt_setPage (s : State) (ch : Nat) (k : Kite) : (s.setPage ch k).evt = s.evt := rfl
@[simp] theorem clk_setPage (s : State) (ch : Nat) (k : Kite) : (s.setPage ch k).clk = s.clk := rfl
@[simp] theorem parse_setPage (s : State) (ch : Nat) (k : Kite) : (s.setPage ch k).parse = s.parse := rfl
@[simp] theorem cway_setPage (s : State) (ch : Nat) (k : Kite) : (s.setPage ch k).cway = s.cway := rfl
@[simp] theorem rtbl_setPage (s : State) (ch : Nat) (k : Kite) : (s.setPage ch k).rtbl = s.rtbl := rfl
@[simp] theorem shld_setPage (s : State) (ch : Nat) (k : Kite) : (s.setPage ch k).shld = s.shld := rfl
@[simp] theorem tm_setPage (s : State) (ch : Nat) (k : Kite) : (s.setPage ch k).tm = s.tm := rfl
@[simp] theorem line_setPage (s : State) (ch : Nat) (k : Kite) : (s.setPage ch k).line = s.line := rfl
@[simp] theorem eng_setPage (s : State) (ch : Nat) (k : Kite) : (s.setPage ch k).eng = s.eng := rfl
@[simp] theorem hiu_setPage (s : State) (ch : Nat) (k : Kite) : (s.setPage ch k).hiu = s.hiu := rfl
@[simp] theorem fnm_setPage (s : State) (ch : Nat) (k : Kite) : (s.setPage ch k).fnm = s.fnm := rfl
@[simp] theorem rings_setPage (s : State) (ch : Nat) (k : Kite) : (s.setPage ch k).rings = s.rings := rfl
@[simp] theorem rte_setPage (s : State) (ch : Nat) (k : Kite) : (s.setPage ch k).rte = s.rte := rfl
@[simp] theorem sce_setPage (s : State) (ch : Nat) (k : Kite) : (s.setPage ch k).sce = s.sce := rfl
@[simp] theorem ciph_setPage (s : State) (ch : Nat) (k : Kite) : (s.setPage ch k).ciph = s.ciph := rfl
@[simp] theorem hbm_setPage (s : State) (ch : Nat) (k : Kite) : (s.setPage ch k).hbm = s.hbm := rfl
@[simp] theorem tether_setPage (s : State) (ch : Nat) (k : Kite) : (s.setPage ch k).tether = s.tether := rfl
@[simp] theorem boot_setPage (s : State) (ch : Nat) (k : Kite) : (s.setPage ch k).boot = s.boot := rfl
@[simp] theorem obs_setPage (s : State) (ch : Nat) (k : Kite) : (s.setPage ch k).obs = s.obs := rfl
@[simp] theorem out_setPage (s : State) (ch : Nat) (k : Kite) : (s.setPage ch k).out = s.out := rfl
@[simp] theorem free_setPage (s : State) (ch : Nat) (k : Kite) : (s.setPage ch k).free = s.free := rfl
@[simp] theorem pending_setPage (s : State) (ch : Nat) (k : Kite) : (s.setPage ch k).pending = s.pending := rfl

@[simp] theorem regs_updPage (s : State) (ch : Nat) (g : Kite → Kite) : (s.updPage ch g).regs = s.regs := rfl
@[simp] theorem evt_updPage (s : State) (ch : Nat) (g : Kite → Kite) : (s.updPage ch g).evt = s.evt := rfl
@[simp] theorem clk_updPage (s : State) (ch : Nat) (g : Kite → Kite) : (s.updPage ch g).clk = s.clk := rfl
@[simp] theorem parse_updPage (s : State) (ch : Nat) (g : Kite → Kite) : (s.updPage ch g).parse = s.parse := rfl
@[simp] theorem cway_updPage (s : State) (ch : Nat) (g : Kite → Kite) : (s.updPage ch g).cway = s.cway := rfl
@[simp] theorem rtbl_updPage (s : State) (ch : Nat) (g : Kite → Kite) : (s.updPage ch g).rtbl = s.rtbl := rfl
@[simp] theorem shld_updPage (s : State) (ch : Nat) (g : Kite → Kite) : (s.updPage ch g).shld = s.shld := rfl
@[simp] theorem tm_updPage (s : State) (ch : Nat) (g : Kite → Kite) : (s.updPage ch g).tm = s.tm := rfl
@[simp] theorem line_updPage (s : State) (ch : Nat) (g : Kite → Kite) : (s.updPage ch g).line = s.line := rfl
@[simp] theorem eng_updPage (s : State) (ch : Nat) (g : Kite → Kite) : (s.updPage ch g).eng = s.eng := rfl
@[simp] theorem hiu_updPage (s : State) (ch : Nat) (g : Kite → Kite) : (s.updPage ch g).hiu = s.hiu := rfl
@[simp] theorem fnm_updPage (s : State) (ch : Nat) (g : Kite → Kite) : (s.updPage ch g).fnm = s.fnm := rfl
@[simp] theorem rings_updPage (s : State) (ch : Nat) (g : Kite → Kite) : (s.updPage ch g).rings = s.rings := rfl
@[simp] theorem rte_updPage (s : State) (ch : Nat) (g : Kite → Kite) : (s.updPage ch g).rte = s.rte := rfl
@[simp] theorem sce_updPage (s : State) (ch : Nat) (g : Kite → Kite) : (s.updPage ch g).sce = s.sce := rfl
@[simp] theorem ciph_updPage (s : State) (ch : Nat) (g : Kite → Kite) : (s.updPage ch g).ciph = s.ciph := rfl
@[simp] theorem hbm_updPage (s : State) (ch : Nat) (g : Kite → Kite) : (s.updPage ch g).hbm = s.hbm := rfl
@[simp] theorem tether_updPage (s : State) (ch : Nat) (g : Kite → Kite) : (s.updPage ch g).tether = s.tether := rfl
@[simp] theorem boot_updPage (s : State) (ch : Nat) (g : Kite → Kite) : (s.updPage ch g).boot = s.boot := rfl
@[simp] theorem obs_updPage (s : State) (ch : Nat) (g : Kite → Kite) : (s.updPage ch g).obs = s.obs := rfl
@[simp] theorem out_updPage (s : State) (ch : Nat) (g : Kite → Kite) : (s.updPage ch g).out = s.out := rfl
@[simp] theorem free_updPage (s : State) (ch : Nat) (g : Kite → Kite) : (s.updPage ch g).free = s.free := rfl
@[simp] theorem pending_updPage (s : State) (ch : Nat) (g : Kite → Kite) : (s.updPage ch g).pending = s.pending := rfl

@[simp] theorem regs_setOpened (s : State) (ch : Nat) (l : List OpenCmd) : (s.setOpened ch l).regs = s.regs := rfl
@[simp] theorem evt_setOpened (s : State) (ch : Nat) (l : List OpenCmd) : (s.setOpened ch l).evt = s.evt := rfl
@[simp] theorem clk_setOpened (s : State) (ch : Nat) (l : List OpenCmd) : (s.setOpened ch l).clk = s.clk := rfl
@[simp] theorem parse_setOpened (s : State) (ch : Nat) (l : List OpenCmd) : (s.setOpened ch l).parse = s.parse := rfl
@[simp] theorem cway_setOpened (s : State) (ch : Nat) (l : List OpenCmd) : (s.setOpened ch l).cway = s.cway := rfl
@[simp] theorem rtbl_setOpened (s : State) (ch : Nat) (l : List OpenCmd) : (s.setOpened ch l).rtbl = s.rtbl := rfl
@[simp] theorem shld_setOpened (s : State) (ch : Nat) (l : List OpenCmd) : (s.setOpened ch l).shld = s.shld := rfl
@[simp] theorem tm_setOpened (s : State) (ch : Nat) (l : List OpenCmd) : (s.setOpened ch l).tm = s.tm := rfl
@[simp] theorem line_setOpened (s : State) (ch : Nat) (l : List OpenCmd) : (s.setOpened ch l).line = s.line := rfl
@[simp] theorem eng_setOpened (s : State) (ch : Nat) (l : List OpenCmd) : (s.setOpened ch l).eng = s.eng := rfl
@[simp] theorem hiu_setOpened (s : State) (ch : Nat) (l : List OpenCmd) : (s.setOpened ch l).hiu = s.hiu := rfl
@[simp] theorem fnm_setOpened (s : State) (ch : Nat) (l : List OpenCmd) : (s.setOpened ch l).fnm = s.fnm := rfl
@[simp] theorem rings_setOpened (s : State) (ch : Nat) (l : List OpenCmd) : (s.setOpened ch l).rings = s.rings := rfl
@[simp] theorem rte_setOpened (s : State) (ch : Nat) (l : List OpenCmd) : (s.setOpened ch l).rte = s.rte := rfl
@[simp] theorem sce_setOpened (s : State) (ch : Nat) (l : List OpenCmd) : (s.setOpened ch l).sce = s.sce := rfl
@[simp] theorem ciph_setOpened (s : State) (ch : Nat) (l : List OpenCmd) : (s.setOpened ch l).ciph = s.ciph := rfl
@[simp] theorem hbm_setOpened (s : State) (ch : Nat) (l : List OpenCmd) : (s.setOpened ch l).hbm = s.hbm := rfl
@[simp] theorem tether_setOpened (s : State) (ch : Nat) (l : List OpenCmd) : (s.setOpened ch l).tether = s.tether := rfl
@[simp] theorem boot_setOpened (s : State) (ch : Nat) (l : List OpenCmd) : (s.setOpened ch l).boot = s.boot := rfl
@[simp] theorem obs_setOpened (s : State) (ch : Nat) (l : List OpenCmd) : (s.setOpened ch l).obs = s.obs := rfl
@[simp] theorem out_setOpened (s : State) (ch : Nat) (l : List OpenCmd) : (s.setOpened ch l).out = s.out := rfl
@[simp] theorem free_setOpened (s : State) (ch : Nat) (l : List OpenCmd) : (s.setOpened ch l).free = s.free := rfl
@[simp] theorem pending_setOpened (s : State) (ch : Nat) (l : List OpenCmd) : (s.setOpened ch l).pending = s.pending := rfl

@[simp] theorem regs_setRspQ (s : State) (ch : Nat) (l : List DWord) : (s.setRspQ ch l).regs = s.regs := rfl
@[simp] theorem evt_setRspQ (s : State) (ch : Nat) (l : List DWord) : (s.setRspQ ch l).evt = s.evt := rfl
@[simp] theorem clk_setRspQ (s : State) (ch : Nat) (l : List DWord) : (s.setRspQ ch l).clk = s.clk := rfl
@[simp] theorem parse_setRspQ (s : State) (ch : Nat) (l : List DWord) : (s.setRspQ ch l).parse = s.parse := rfl
@[simp] theorem cway_setRspQ (s : State) (ch : Nat) (l : List DWord) : (s.setRspQ ch l).cway = s.cway := rfl
@[simp] theorem rtbl_setRspQ (s : State) (ch : Nat) (l : List DWord) : (s.setRspQ ch l).rtbl = s.rtbl := rfl
@[simp] theorem shld_setRspQ (s : State) (ch : Nat) (l : List DWord) : (s.setRspQ ch l).shld = s.shld := rfl
@[simp] theorem tm_setRspQ (s : State) (ch : Nat) (l : List DWord) : (s.setRspQ ch l).tm = s.tm := rfl
@[simp] theorem line_setRspQ (s : State) (ch : Nat) (l : List DWord) : (s.setRspQ ch l).line = s.line := rfl
@[simp] theorem eng_setRspQ (s : State) (ch : Nat) (l : List DWord) : (s.setRspQ ch l).eng = s.eng := rfl
@[simp] theorem hiu_setRspQ (s : State) (ch : Nat) (l : List DWord) : (s.setRspQ ch l).hiu = s.hiu := rfl
@[simp] theorem fnm_setRspQ (s : State) (ch : Nat) (l : List DWord) : (s.setRspQ ch l).fnm = s.fnm := rfl
@[simp] theorem rings_setRspQ (s : State) (ch : Nat) (l : List DWord) : (s.setRspQ ch l).rings = s.rings := rfl
@[simp] theorem rte_setRspQ (s : State) (ch : Nat) (l : List DWord) : (s.setRspQ ch l).rte = s.rte := rfl
@[simp] theorem sce_setRspQ (s : State) (ch : Nat) (l : List DWord) : (s.setRspQ ch l).sce = s.sce := rfl
@[simp] theorem ciph_setRspQ (s : State) (ch : Nat) (l : List DWord) : (s.setRspQ ch l).ciph = s.ciph := rfl
@[simp] theorem hbm_setRspQ (s : State) (ch : Nat) (l : List DWord) : (s.setRspQ ch l).hbm = s.hbm := rfl
@[simp] theorem tether_setRspQ (s : State) (ch : Nat) (l : List DWord) : (s.setRspQ ch l).tether = s.tether := rfl
@[simp] theorem boot_setRspQ (s : State) (ch : Nat) (l : List DWord) : (s.setRspQ ch l).boot = s.boot := rfl
@[simp] theorem obs_setRspQ (s : State) (ch : Nat) (l : List DWord) : (s.setRspQ ch l).obs = s.obs := rfl
@[simp] theorem out_setRspQ (s : State) (ch : Nat) (l : List DWord) : (s.setRspQ ch l).out = s.out := rfl
@[simp] theorem free_setRspQ (s : State) (ch : Nat) (l : List DWord) : (s.setRspQ ch l).free = s.free := rfl
@[simp] theorem pending_setRspQ (s : State) (ch : Nat) (l : List DWord) : (s.setRspQ ch l).pending = s.pending := rfl

@[simp] theorem regs_setTmNode (s : State) (k : Nat) (v : TmNode) : (s.setTmNode k v).regs = s.regs := rfl
@[simp] theorem evt_setTmNode (s : State) (k : Nat) (v : TmNode) : (s.setTmNode k v).evt = s.evt := rfl
@[simp] theorem clk_setTmNode (s : State) (k : Nat) (v : TmNode) : (s.setTmNode k v).clk = s.clk := rfl
@[simp] theorem parse_setTmNode (s : State) (k : Nat) (v : TmNode) : (s.setTmNode k v).parse = s.parse := rfl
@[simp] theorem cway_setTmNode (s : State) (k : Nat) (v : TmNode) : (s.setTmNode k v).cway = s.cway := rfl
@[simp] theorem rtbl_setTmNode (s : State) (k : Nat) (v : TmNode) : (s.setTmNode k v).rtbl = s.rtbl := rfl
@[simp] theorem shld_setTmNode (s : State) (k : Nat) (v : TmNode) : (s.setTmNode k v).shld = s.shld := rfl
@[simp] theorem line_setTmNode (s : State) (k : Nat) (v : TmNode) : (s.setTmNode k v).line = s.line := rfl
@[simp] theorem eng_setTmNode (s : State) (k : Nat) (v : TmNode) : (s.setTmNode k v).eng = s.eng := rfl
@[simp] theorem hiu_setTmNode (s : State) (k : Nat) (v : TmNode) : (s.setTmNode k v).hiu = s.hiu := rfl
@[simp] theorem fnm_setTmNode (s : State) (k : Nat) (v : TmNode) : (s.setTmNode k v).fnm = s.fnm := rfl
@[simp] theorem kite_setTmNode (s : State) (k : Nat) (v : TmNode) : (s.setTmNode k v).kite = s.kite := rfl
@[simp] theorem rings_setTmNode (s : State) (k : Nat) (v : TmNode) : (s.setTmNode k v).rings = s.rings := rfl
@[simp] theorem rte_setTmNode (s : State) (k : Nat) (v : TmNode) : (s.setTmNode k v).rte = s.rte := rfl
@[simp] theorem sce_setTmNode (s : State) (k : Nat) (v : TmNode) : (s.setTmNode k v).sce = s.sce := rfl
@[simp] theorem ciph_setTmNode (s : State) (k : Nat) (v : TmNode) : (s.setTmNode k v).ciph = s.ciph := rfl
@[simp] theorem hbm_setTmNode (s : State) (k : Nat) (v : TmNode) : (s.setTmNode k v).hbm = s.hbm := rfl
@[simp] theorem tether_setTmNode (s : State) (k : Nat) (v : TmNode) : (s.setTmNode k v).tether = s.tether := rfl
@[simp] theorem boot_setTmNode (s : State) (k : Nat) (v : TmNode) : (s.setTmNode k v).boot = s.boot := rfl
@[simp] theorem obs_setTmNode (s : State) (k : Nat) (v : TmNode) : (s.setTmNode k v).obs = s.obs := rfl
@[simp] theorem out_setTmNode (s : State) (k : Nat) (v : TmNode) : (s.setTmNode k v).out = s.out := rfl
@[simp] theorem free_setTmNode (s : State) (k : Nat) (v : TmNode) : (s.setTmNode k v).free = s.free := rfl
@[simp] theorem pending_setTmNode (s : State) (k : Nat) (v : TmNode) : (s.setTmNode k v).pending = s.pending := rfl

@[simp] theorem regs_setLeafQ (s : State) (l : Nat) (q : List QPkt) : (s.setLeafQ l q).regs = s.regs := rfl
@[simp] theorem evt_setLeafQ (s : State) (l : Nat) (q : List QPkt) : (s.setLeafQ l q).evt = s.evt := rfl
@[simp] theorem clk_setLeafQ (s : State) (l : Nat) (q : List QPkt) : (s.setLeafQ l q).clk = s.clk := rfl
@[simp] theorem parse_setLeafQ (s : State) (l : Nat) (q : List QPkt) : (s.setLeafQ l q).parse = s.parse := rfl
@[simp] theorem cway_setLeafQ (s : State) (l : Nat) (q : List QPkt) : (s.setLeafQ l q).cway = s.cway := rfl
@[simp] theorem rtbl_setLeafQ (s : State) (l : Nat) (q : List QPkt) : (s.setLeafQ l q).rtbl = s.rtbl := rfl
@[simp] theorem shld_setLeafQ (s : State) (l : Nat) (q : List QPkt) : (s.setLeafQ l q).shld = s.shld := rfl
@[simp] theorem line_setLeafQ (s : State) (l : Nat) (q : List QPkt) : (s.setLeafQ l q).line = s.line := rfl
@[simp] theorem eng_setLeafQ (s : State) (l : Nat) (q : List QPkt) : (s.setLeafQ l q).eng = s.eng := rfl
@[simp] theorem hiu_setLeafQ (s : State) (l : Nat) (q : List QPkt) : (s.setLeafQ l q).hiu = s.hiu := rfl
@[simp] theorem fnm_setLeafQ (s : State) (l : Nat) (q : List QPkt) : (s.setLeafQ l q).fnm = s.fnm := rfl
@[simp] theorem kite_setLeafQ (s : State) (l : Nat) (q : List QPkt) : (s.setLeafQ l q).kite = s.kite := rfl
@[simp] theorem rings_setLeafQ (s : State) (l : Nat) (q : List QPkt) : (s.setLeafQ l q).rings = s.rings := rfl
@[simp] theorem rte_setLeafQ (s : State) (l : Nat) (q : List QPkt) : (s.setLeafQ l q).rte = s.rte := rfl
@[simp] theorem sce_setLeafQ (s : State) (l : Nat) (q : List QPkt) : (s.setLeafQ l q).sce = s.sce := rfl
@[simp] theorem ciph_setLeafQ (s : State) (l : Nat) (q : List QPkt) : (s.setLeafQ l q).ciph = s.ciph := rfl
@[simp] theorem hbm_setLeafQ (s : State) (l : Nat) (q : List QPkt) : (s.setLeafQ l q).hbm = s.hbm := rfl
@[simp] theorem tether_setLeafQ (s : State) (l : Nat) (q : List QPkt) : (s.setLeafQ l q).tether = s.tether := rfl
@[simp] theorem boot_setLeafQ (s : State) (l : Nat) (q : List QPkt) : (s.setLeafQ l q).boot = s.boot := rfl
@[simp] theorem obs_setLeafQ (s : State) (l : Nat) (q : List QPkt) : (s.setLeafQ l q).obs = s.obs := rfl
@[simp] theorem out_setLeafQ (s : State) (l : Nat) (q : List QPkt) : (s.setLeafQ l q).out = s.out := rfl
@[simp] theorem free_setLeafQ (s : State) (l : Nat) (q : List QPkt) : (s.setLeafQ l q).free = s.free := rfl
@[simp] theorem pending_setLeafQ (s : State) (l : Nat) (q : List QPkt) : (s.setLeafQ l q).pending = s.pending := rfl

@[simp] theorem regs_setQp (s : State) (i : Nat) (q : Qp) : (s.setQp i q).regs = s.regs := rfl
@[simp] theorem evt_setQp (s : State) (i : Nat) (q : Qp) : (s.setQp i q).evt = s.evt := rfl
@[simp] theorem clk_setQp (s : State) (i : Nat) (q : Qp) : (s.setQp i q).clk = s.clk := rfl
@[simp] theorem parse_setQp (s : State) (i : Nat) (q : Qp) : (s.setQp i q).parse = s.parse := rfl
@[simp] theorem cway_setQp (s : State) (i : Nat) (q : Qp) : (s.setQp i q).cway = s.cway := rfl
@[simp] theorem rtbl_setQp (s : State) (i : Nat) (q : Qp) : (s.setQp i q).rtbl = s.rtbl := rfl
@[simp] theorem shld_setQp (s : State) (i : Nat) (q : Qp) : (s.setQp i q).shld = s.shld := rfl
@[simp] theorem tm_setQp (s : State) (i : Nat) (q : Qp) : (s.setQp i q).tm = s.tm := rfl
@[simp] theorem line_setQp (s : State) (i : Nat) (q : Qp) : (s.setQp i q).line = s.line := rfl
@[simp] theorem eng_setQp (s : State) (i : Nat) (q : Qp) : (s.setQp i q).eng = s.eng := rfl
@[simp] theorem hiu_setQp (s : State) (i : Nat) (q : Qp) : (s.setQp i q).hiu = s.hiu := rfl
@[simp] theorem fnm_setQp (s : State) (i : Nat) (q : Qp) : (s.setQp i q).fnm = s.fnm := rfl
@[simp] theorem kite_setQp (s : State) (i : Nat) (q : Qp) : (s.setQp i q).kite = s.kite := rfl
@[simp] theorem rings_setQp (s : State) (i : Nat) (q : Qp) : (s.setQp i q).rings = s.rings := rfl
@[simp] theorem sce_setQp (s : State) (i : Nat) (q : Qp) : (s.setQp i q).sce = s.sce := rfl
@[simp] theorem ciph_setQp (s : State) (i : Nat) (q : Qp) : (s.setQp i q).ciph = s.ciph := rfl
@[simp] theorem hbm_setQp (s : State) (i : Nat) (q : Qp) : (s.setQp i q).hbm = s.hbm := rfl
@[simp] theorem tether_setQp (s : State) (i : Nat) (q : Qp) : (s.setQp i q).tether = s.tether := rfl
@[simp] theorem boot_setQp (s : State) (i : Nat) (q : Qp) : (s.setQp i q).boot = s.boot := rfl
@[simp] theorem obs_setQp (s : State) (i : Nat) (q : Qp) : (s.setQp i q).obs = s.obs := rfl
@[simp] theorem out_setQp (s : State) (i : Nat) (q : Qp) : (s.setQp i q).out = s.out := rfl
@[simp] theorem free_setQp (s : State) (i : Nat) (q : Qp) : (s.setQp i q).free = s.free := rfl
@[simp] theorem pending_setQp (s : State) (i : Nat) (q : Qp) : (s.setQp i q).pending = s.pending := rfl

@[simp] theorem regs_updQp (s : State) (i : Nat) (g : Qp → Qp) : (s.updQp i g).regs = s.regs := rfl
@[simp] theorem evt_updQp (s : State) (i : Nat) (g : Qp → Qp) : (s.updQp i g).evt = s.evt := rfl
@[simp] theorem clk_updQp (s : State) (i : Nat) (g : Qp → Qp) : (s.updQp i g).clk = s.clk := rfl
@[simp] theorem parse_updQp (s : State) (i : Nat) (g : Qp → Qp) : (s.updQp i g).parse = s.parse := rfl
@[simp] theorem cway_updQp (s : State) (i : Nat) (g : Qp → Qp) : (s.updQp i g).cway = s.cway := rfl
@[simp] theorem rtbl_updQp (s : State) (i : Nat) (g : Qp → Qp) : (s.updQp i g).rtbl = s.rtbl := rfl
@[simp] theorem shld_updQp (s : State) (i : Nat) (g : Qp → Qp) : (s.updQp i g).shld = s.shld := rfl
@[simp] theorem tm_updQp (s : State) (i : Nat) (g : Qp → Qp) : (s.updQp i g).tm = s.tm := rfl
@[simp] theorem line_updQp (s : State) (i : Nat) (g : Qp → Qp) : (s.updQp i g).line = s.line := rfl
@[simp] theorem eng_updQp (s : State) (i : Nat) (g : Qp → Qp) : (s.updQp i g).eng = s.eng := rfl
@[simp] theorem hiu_updQp (s : State) (i : Nat) (g : Qp → Qp) : (s.updQp i g).hiu = s.hiu := rfl
@[simp] theorem fnm_updQp (s : State) (i : Nat) (g : Qp → Qp) : (s.updQp i g).fnm = s.fnm := rfl
@[simp] theorem kite_updQp (s : State) (i : Nat) (g : Qp → Qp) : (s.updQp i g).kite = s.kite := rfl
@[simp] theorem rings_updQp (s : State) (i : Nat) (g : Qp → Qp) : (s.updQp i g).rings = s.rings := rfl
@[simp] theorem sce_updQp (s : State) (i : Nat) (g : Qp → Qp) : (s.updQp i g).sce = s.sce := rfl
@[simp] theorem ciph_updQp (s : State) (i : Nat) (g : Qp → Qp) : (s.updQp i g).ciph = s.ciph := rfl
@[simp] theorem hbm_updQp (s : State) (i : Nat) (g : Qp → Qp) : (s.updQp i g).hbm = s.hbm := rfl
@[simp] theorem tether_updQp (s : State) (i : Nat) (g : Qp → Qp) : (s.updQp i g).tether = s.tether := rfl
@[simp] theorem boot_updQp (s : State) (i : Nat) (g : Qp → Qp) : (s.updQp i g).boot = s.boot := rfl
@[simp] theorem obs_updQp (s : State) (i : Nat) (g : Qp → Qp) : (s.updQp i g).obs = s.obs := rfl
@[simp] theorem out_updQp (s : State) (i : Nat) (g : Qp → Qp) : (s.updQp i g).out = s.out := rfl
@[simp] theorem free_updQp (s : State) (i : Nat) (g : Qp → Qp) : (s.updQp i g).free = s.free := rfl
@[simp] theorem pending_updQp (s : State) (i : Nat) (g : Qp → Qp) : (s.updQp i g).pending = s.pending := rfl

@[simp] theorem regs_setMr (s : State) (k : Nat) (v : Mr) : (s.setMr k v).regs = s.regs := rfl
@[simp] theorem evt_setMr (s : State) (k : Nat) (v : Mr) : (s.setMr k v).evt = s.evt := rfl
@[simp] theorem clk_setMr (s : State) (k : Nat) (v : Mr) : (s.setMr k v).clk = s.clk := rfl
@[simp] theorem parse_setMr (s : State) (k : Nat) (v : Mr) : (s.setMr k v).parse = s.parse := rfl
@[simp] theorem cway_setMr (s : State) (k : Nat) (v : Mr) : (s.setMr k v).cway = s.cway := rfl
@[simp] theorem rtbl_setMr (s : State) (k : Nat) (v : Mr) : (s.setMr k v).rtbl = s.rtbl := rfl
@[simp] theorem shld_setMr (s : State) (k : Nat) (v : Mr) : (s.setMr k v).shld = s.shld := rfl
@[simp] theorem tm_setMr (s : State) (k : Nat) (v : Mr) : (s.setMr k v).tm = s.tm := rfl
@[simp] theorem line_setMr (s : State) (k : Nat) (v : Mr) : (s.setMr k v).line = s.line := rfl
@[simp] theorem eng_setMr (s : State) (k : Nat) (v : Mr) : (s.setMr k v).eng = s.eng := rfl
@[simp] theorem hiu_setMr (s : State) (k : Nat) (v : Mr) : (s.setMr k v).hiu = s.hiu := rfl
@[simp] theorem fnm_setMr (s : State) (k : Nat) (v : Mr) : (s.setMr k v).fnm = s.fnm := rfl
@[simp] theorem kite_setMr (s : State) (k : Nat) (v : Mr) : (s.setMr k v).kite = s.kite := rfl
@[simp] theorem rings_setMr (s : State) (k : Nat) (v : Mr) : (s.setMr k v).rings = s.rings := rfl
@[simp] theorem sce_setMr (s : State) (k : Nat) (v : Mr) : (s.setMr k v).sce = s.sce := rfl
@[simp] theorem ciph_setMr (s : State) (k : Nat) (v : Mr) : (s.setMr k v).ciph = s.ciph := rfl
@[simp] theorem hbm_setMr (s : State) (k : Nat) (v : Mr) : (s.setMr k v).hbm = s.hbm := rfl
@[simp] theorem tether_setMr (s : State) (k : Nat) (v : Mr) : (s.setMr k v).tether = s.tether := rfl
@[simp] theorem boot_setMr (s : State) (k : Nat) (v : Mr) : (s.setMr k v).boot = s.boot := rfl
@[simp] theorem obs_setMr (s : State) (k : Nat) (v : Mr) : (s.setMr k v).obs = s.obs := rfl
@[simp] theorem out_setMr (s : State) (k : Nat) (v : Mr) : (s.setMr k v).out = s.out := rfl
@[simp] theorem free_setMr (s : State) (k : Nat) (v : Mr) : (s.setMr k v).free = s.free := rfl
@[simp] theorem pending_setMr (s : State) (k : Nat) (v : Mr) : (s.setMr k v).pending = s.pending := rfl

@[simp] theorem regs_setTracker (s : State) (k : Nat) (t : Option Tracker) : (s.setTracker k t).regs = s.regs := rfl
@[simp] theorem evt_setTracker (s : State) (k : Nat) (t : Option Tracker) : (s.setTracker k t).evt = s.evt := rfl
@[simp] theorem clk_setTracker (s : State) (k : Nat) (t : Option Tracker) : (s.setTracker k t).clk = s.clk := rfl
@[simp] theorem parse_setTracker (s : State) (k : Nat) (t : Option Tracker) : (s.setTracker k t).parse = s.parse := rfl
@[simp] theorem cway_setTracker (s : State) (k : Nat) (t : Option Tracker) : (s.setTracker k t).cway = s.cway := rfl
@[simp] theorem rtbl_setTracker (s : State) (k : Nat) (t : Option Tracker) : (s.setTracker k t).rtbl = s.rtbl := rfl
@[simp] theorem shld_setTracker (s : State) (k : Nat) (t : Option Tracker) : (s.setTracker k t).shld = s.shld := rfl
@[simp] theorem tm_setTracker (s : State) (k : Nat) (t : Option Tracker) : (s.setTracker k t).tm = s.tm := rfl
@[simp] theorem line_setTracker (s : State) (k : Nat) (t : Option Tracker) : (s.setTracker k t).line = s.line := rfl
@[simp] theorem eng_setTracker (s : State) (k : Nat) (t : Option Tracker) : (s.setTracker k t).eng = s.eng := rfl
@[simp] theorem hiu_setTracker (s : State) (k : Nat) (t : Option Tracker) : (s.setTracker k t).hiu = s.hiu := rfl
@[simp] theorem fnm_setTracker (s : State) (k : Nat) (t : Option Tracker) : (s.setTracker k t).fnm = s.fnm := rfl
@[simp] theorem kite_setTracker (s : State) (k : Nat) (t : Option Tracker) : (s.setTracker k t).kite = s.kite := rfl
@[simp] theorem rings_setTracker (s : State) (k : Nat) (t : Option Tracker) : (s.setTracker k t).rings = s.rings := rfl
@[simp] theorem sce_setTracker (s : State) (k : Nat) (t : Option Tracker) : (s.setTracker k t).sce = s.sce := rfl
@[simp] theorem ciph_setTracker (s : State) (k : Nat) (t : Option Tracker) : (s.setTracker k t).ciph = s.ciph := rfl
@[simp] theorem hbm_setTracker (s : State) (k : Nat) (t : Option Tracker) : (s.setTracker k t).hbm = s.hbm := rfl
@[simp] theorem tether_setTracker (s : State) (k : Nat) (t : Option Tracker) : (s.setTracker k t).tether = s.tether := rfl
@[simp] theorem boot_setTracker (s : State) (k : Nat) (t : Option Tracker) : (s.setTracker k t).boot = s.boot := rfl
@[simp] theorem obs_setTracker (s : State) (k : Nat) (t : Option Tracker) : (s.setTracker k t).obs = s.obs := rfl
@[simp] theorem out_setTracker (s : State) (k : Nat) (t : Option Tracker) : (s.setTracker k t).out = s.out := rfl
@[simp] theorem free_setTracker (s : State) (k : Nat) (t : Option Tracker) : (s.setTracker k t).free = s.free := rfl
@[simp] theorem pending_setTracker (s : State) (k : Nat) (t : Option Tracker) : (s.setTracker k t).pending = s.pending := rfl

@[simp] theorem regs_setCtrl (s : State) (f : Nat) (c : Ctrl) : (s.setCtrl f c).regs = s.regs := rfl
@[simp] theorem evt_setCtrl (s : State) (f : Nat) (c : Ctrl) : (s.setCtrl f c).evt = s.evt := rfl
@[simp] theorem clk_setCtrl (s : State) (f : Nat) (c : Ctrl) : (s.setCtrl f c).clk = s.clk := rfl
@[simp] theorem parse_setCtrl (s : State) (f : Nat) (c : Ctrl) : (s.setCtrl f c).parse = s.parse := rfl
@[simp] theorem cway_setCtrl (s : State) (f : Nat) (c : Ctrl) : (s.setCtrl f c).cway = s.cway := rfl
@[simp] theorem rtbl_setCtrl (s : State) (f : Nat) (c : Ctrl) : (s.setCtrl f c).rtbl = s.rtbl := rfl
@[simp] theorem shld_setCtrl (s : State) (f : Nat) (c : Ctrl) : (s.setCtrl f c).shld = s.shld := rfl
@[simp] theorem tm_setCtrl (s : State) (f : Nat) (c : Ctrl) : (s.setCtrl f c).tm = s.tm := rfl
@[simp] theorem line_setCtrl (s : State) (f : Nat) (c : Ctrl) : (s.setCtrl f c).line = s.line := rfl
@[simp] theorem eng_setCtrl (s : State) (f : Nat) (c : Ctrl) : (s.setCtrl f c).eng = s.eng := rfl
@[simp] theorem hiu_setCtrl (s : State) (f : Nat) (c : Ctrl) : (s.setCtrl f c).hiu = s.hiu := rfl
@[simp] theorem fnm_setCtrl (s : State) (f : Nat) (c : Ctrl) : (s.setCtrl f c).fnm = s.fnm := rfl
@[simp] theorem kite_setCtrl (s : State) (f : Nat) (c : Ctrl) : (s.setCtrl f c).kite = s.kite := rfl
@[simp] theorem rings_setCtrl (s : State) (f : Nat) (c : Ctrl) : (s.setCtrl f c).rings = s.rings := rfl
@[simp] theorem rte_setCtrl (s : State) (f : Nat) (c : Ctrl) : (s.setCtrl f c).rte = s.rte := rfl
@[simp] theorem ciph_setCtrl (s : State) (f : Nat) (c : Ctrl) : (s.setCtrl f c).ciph = s.ciph := rfl
@[simp] theorem hbm_setCtrl (s : State) (f : Nat) (c : Ctrl) : (s.setCtrl f c).hbm = s.hbm := rfl
@[simp] theorem tether_setCtrl (s : State) (f : Nat) (c : Ctrl) : (s.setCtrl f c).tether = s.tether := rfl
@[simp] theorem boot_setCtrl (s : State) (f : Nat) (c : Ctrl) : (s.setCtrl f c).boot = s.boot := rfl
@[simp] theorem obs_setCtrl (s : State) (f : Nat) (c : Ctrl) : (s.setCtrl f c).obs = s.obs := rfl
@[simp] theorem out_setCtrl (s : State) (f : Nat) (c : Ctrl) : (s.setCtrl f c).out = s.out := rfl
@[simp] theorem free_setCtrl (s : State) (f : Nat) (c : Ctrl) : (s.setCtrl f c).free = s.free := rfl
@[simp] theorem pending_setCtrl (s : State) (f : Nat) (c : Ctrl) : (s.setCtrl f c).pending = s.pending := rfl

@[simp] theorem regs_updCtrl (s : State) (f : Nat) (g : Ctrl → Ctrl) : (s.updCtrl f g).regs = s.regs := rfl
@[simp] theorem evt_updCtrl (s : State) (f : Nat) (g : Ctrl → Ctrl) : (s.updCtrl f g).evt = s.evt := rfl
@[simp] theorem clk_updCtrl (s : State) (f : Nat) (g : Ctrl → Ctrl) : (s.updCtrl f g).clk = s.clk := rfl
@[simp] theorem parse_updCtrl (s : State) (f : Nat) (g : Ctrl → Ctrl) : (s.updCtrl f g).parse = s.parse := rfl
@[simp] theorem cway_updCtrl (s : State) (f : Nat) (g : Ctrl → Ctrl) : (s.updCtrl f g).cway = s.cway := rfl
@[simp] theorem rtbl_updCtrl (s : State) (f : Nat) (g : Ctrl → Ctrl) : (s.updCtrl f g).rtbl = s.rtbl := rfl
@[simp] theorem shld_updCtrl (s : State) (f : Nat) (g : Ctrl → Ctrl) : (s.updCtrl f g).shld = s.shld := rfl
@[simp] theorem tm_updCtrl (s : State) (f : Nat) (g : Ctrl → Ctrl) : (s.updCtrl f g).tm = s.tm := rfl
@[simp] theorem line_updCtrl (s : State) (f : Nat) (g : Ctrl → Ctrl) : (s.updCtrl f g).line = s.line := rfl
@[simp] theorem eng_updCtrl (s : State) (f : Nat) (g : Ctrl → Ctrl) : (s.updCtrl f g).eng = s.eng := rfl
@[simp] theorem hiu_updCtrl (s : State) (f : Nat) (g : Ctrl → Ctrl) : (s.updCtrl f g).hiu = s.hiu := rfl
@[simp] theorem fnm_updCtrl (s : State) (f : Nat) (g : Ctrl → Ctrl) : (s.updCtrl f g).fnm = s.fnm := rfl
@[simp] theorem kite_updCtrl (s : State) (f : Nat) (g : Ctrl → Ctrl) : (s.updCtrl f g).kite = s.kite := rfl
@[simp] theorem rings_updCtrl (s : State) (f : Nat) (g : Ctrl → Ctrl) : (s.updCtrl f g).rings = s.rings := rfl
@[simp] theorem rte_updCtrl (s : State) (f : Nat) (g : Ctrl → Ctrl) : (s.updCtrl f g).rte = s.rte := rfl
@[simp] theorem ciph_updCtrl (s : State) (f : Nat) (g : Ctrl → Ctrl) : (s.updCtrl f g).ciph = s.ciph := rfl
@[simp] theorem hbm_updCtrl (s : State) (f : Nat) (g : Ctrl → Ctrl) : (s.updCtrl f g).hbm = s.hbm := rfl
@[simp] theorem tether_updCtrl (s : State) (f : Nat) (g : Ctrl → Ctrl) : (s.updCtrl f g).tether = s.tether := rfl
@[simp] theorem boot_updCtrl (s : State) (f : Nat) (g : Ctrl → Ctrl) : (s.updCtrl f g).boot = s.boot := rfl
@[simp] theorem obs_updCtrl (s : State) (f : Nat) (g : Ctrl → Ctrl) : (s.updCtrl f g).obs = s.obs := rfl
@[simp] theorem out_updCtrl (s : State) (f : Nat) (g : Ctrl → Ctrl) : (s.updCtrl f g).out = s.out := rfl
@[simp] theorem free_updCtrl (s : State) (f : Nat) (g : Ctrl → Ctrl) : (s.updCtrl f g).free = s.free := rfl
@[simp] theorem pending_updCtrl (s : State) (f : Nat) (g : Ctrl → Ctrl) : (s.updCtrl f g).pending = s.pending := rfl

@[simp] theorem regs_setConn (s : State) (k : Nat) (c : Conn) : (s.setConn k c).regs = s.regs := rfl
@[simp] theorem evt_setConn (s : State) (k : Nat) (c : Conn) : (s.setConn k c).evt = s.evt := rfl
@[simp] theorem clk_setConn (s : State) (k : Nat) (c : Conn) : (s.setConn k c).clk = s.clk := rfl
@[simp] theorem parse_setConn (s : State) (k : Nat) (c : Conn) : (s.setConn k c).parse = s.parse := rfl
@[simp] theorem cway_setConn (s : State) (k : Nat) (c : Conn) : (s.setConn k c).cway = s.cway := rfl
@[simp] theorem rtbl_setConn (s : State) (k : Nat) (c : Conn) : (s.setConn k c).rtbl = s.rtbl := rfl
@[simp] theorem shld_setConn (s : State) (k : Nat) (c : Conn) : (s.setConn k c).shld = s.shld := rfl
@[simp] theorem tm_setConn (s : State) (k : Nat) (c : Conn) : (s.setConn k c).tm = s.tm := rfl
@[simp] theorem line_setConn (s : State) (k : Nat) (c : Conn) : (s.setConn k c).line = s.line := rfl
@[simp] theorem eng_setConn (s : State) (k : Nat) (c : Conn) : (s.setConn k c).eng = s.eng := rfl
@[simp] theorem hiu_setConn (s : State) (k : Nat) (c : Conn) : (s.setConn k c).hiu = s.hiu := rfl
@[simp] theorem fnm_setConn (s : State) (k : Nat) (c : Conn) : (s.setConn k c).fnm = s.fnm := rfl
@[simp] theorem kite_setConn (s : State) (k : Nat) (c : Conn) : (s.setConn k c).kite = s.kite := rfl
@[simp] theorem rings_setConn (s : State) (k : Nat) (c : Conn) : (s.setConn k c).rings = s.rings := rfl
@[simp] theorem rte_setConn (s : State) (k : Nat) (c : Conn) : (s.setConn k c).rte = s.rte := rfl
@[simp] theorem ciph_setConn (s : State) (k : Nat) (c : Conn) : (s.setConn k c).ciph = s.ciph := rfl
@[simp] theorem hbm_setConn (s : State) (k : Nat) (c : Conn) : (s.setConn k c).hbm = s.hbm := rfl
@[simp] theorem tether_setConn (s : State) (k : Nat) (c : Conn) : (s.setConn k c).tether = s.tether := rfl
@[simp] theorem boot_setConn (s : State) (k : Nat) (c : Conn) : (s.setConn k c).boot = s.boot := rfl
@[simp] theorem obs_setConn (s : State) (k : Nat) (c : Conn) : (s.setConn k c).obs = s.obs := rfl
@[simp] theorem out_setConn (s : State) (k : Nat) (c : Conn) : (s.setConn k c).out = s.out := rfl
@[simp] theorem free_setConn (s : State) (k : Nat) (c : Conn) : (s.setConn k c).free = s.free := rfl
@[simp] theorem pending_setConn (s : State) (k : Nat) (c : Conn) : (s.setConn k c).pending = s.pending := rfl

@[simp] theorem regs_updConn (s : State) (k : Nat) (g : Conn → Conn) : (s.updConn k g).regs = s.regs := rfl
@[simp] theorem evt_updConn (s : State) (k : Nat) (g : Conn → Conn) : (s.updConn k g).evt = s.evt := rfl
@[simp] theorem clk_updConn (s : State) (k : Nat) (g : Conn → Conn) : (s.updConn k g).clk = s.clk := rfl
@[simp] theorem parse_updConn (s : State) (k : Nat) (g : Conn → Conn) : (s.updConn k g).parse = s.parse := rfl
@[simp] theorem cway_updConn (s : State) (k : Nat) (g : Conn → Conn) : (s.updConn k g).cway = s.cway := rfl
@[simp] theorem rtbl_updConn (s : State) (k : Nat) (g : Conn → Conn) : (s.updConn k g).rtbl = s.rtbl := rfl
@[simp] theorem shld_updConn (s : State) (k : Nat) (g : Conn → Conn) : (s.updConn k g).shld = s.shld := rfl
@[simp] theorem tm_updConn (s : State) (k : Nat) (g : Conn → Conn) : (s.updConn k g).tm = s.tm := rfl
@[simp] theorem line_updConn (s : State) (k : Nat) (g : Conn → Conn) : (s.updConn k g).line = s.line := rfl
@[simp] theorem eng_updConn (s : State) (k : Nat) (g : Conn → Conn) : (s.updConn k g).eng = s.eng := rfl
@[simp] theorem hiu_updConn (s : State) (k : Nat) (g : Conn → Conn) : (s.updConn k g).hiu = s.hiu := rfl
@[simp] theorem fnm_updConn (s : State) (k : Nat) (g : Conn → Conn) : (s.updConn k g).fnm = s.fnm := rfl
@[simp] theorem kite_updConn (s : State) (k : Nat) (g : Conn → Conn) : (s.updConn k g).kite = s.kite := rfl
@[simp] theorem rings_updConn (s : State) (k : Nat) (g : Conn → Conn) : (s.updConn k g).rings = s.rings := rfl
@[simp] theorem rte_updConn (s : State) (k : Nat) (g : Conn → Conn) : (s.updConn k g).rte = s.rte := rfl
@[simp] theorem ciph_updConn (s : State) (k : Nat) (g : Conn → Conn) : (s.updConn k g).ciph = s.ciph := rfl
@[simp] theorem hbm_updConn (s : State) (k : Nat) (g : Conn → Conn) : (s.updConn k g).hbm = s.hbm := rfl
@[simp] theorem tether_updConn (s : State) (k : Nat) (g : Conn → Conn) : (s.updConn k g).tether = s.tether := rfl
@[simp] theorem boot_updConn (s : State) (k : Nat) (g : Conn → Conn) : (s.updConn k g).boot = s.boot := rfl
@[simp] theorem obs_updConn (s : State) (k : Nat) (g : Conn → Conn) : (s.updConn k g).obs = s.obs := rfl
@[simp] theorem out_updConn (s : State) (k : Nat) (g : Conn → Conn) : (s.updConn k g).out = s.out := rfl
@[simp] theorem free_updConn (s : State) (k : Nat) (g : Conn → Conn) : (s.updConn k g).free = s.free := rfl
@[simp] theorem pending_updConn (s : State) (k : Nat) (g : Conn → Conn) : (s.updConn k g).pending = s.pending := rfl

@[simp] theorem regs_updCmd (s : State) (slot : Nat) (g : NCmd → NCmd) : (s.updCmd slot g).regs = s.regs := rfl
@[simp] theorem evt_updCmd (s : State) (slot : Nat) (g : NCmd → NCmd) : (s.updCmd slot g).evt = s.evt := rfl
@[simp] theorem clk_updCmd (s : State) (slot : Nat) (g : NCmd → NCmd) : (s.updCmd slot g).clk = s.clk := rfl
@[simp] theorem parse_updCmd (s : State) (slot : Nat) (g : NCmd → NCmd) : (s.updCmd slot g).parse = s.parse := rfl
@[simp] theorem cway_updCmd (s : State) (slot : Nat) (g : NCmd → NCmd) : (s.updCmd slot g).cway = s.cway := rfl
@[simp] theorem rtbl_updCmd (s : State) (slot : Nat) (g : NCmd → NCmd) : (s.updCmd slot g).rtbl = s.rtbl := rfl
@[simp] theorem shld_updCmd (s : State) (slot : Nat) (g : NCmd → NCmd) : (s.updCmd slot g).shld = s.shld := rfl
@[simp] theorem tm_updCmd (s : State) (slot : Nat) (g : NCmd → NCmd) : (s.updCmd slot g).tm = s.tm := rfl
@[simp] theorem line_updCmd (s : State) (slot : Nat) (g : NCmd → NCmd) : (s.updCmd slot g).line = s.line := rfl
@[simp] theorem eng_updCmd (s : State) (slot : Nat) (g : NCmd → NCmd) : (s.updCmd slot g).eng = s.eng := rfl
@[simp] theorem hiu_updCmd (s : State) (slot : Nat) (g : NCmd → NCmd) : (s.updCmd slot g).hiu = s.hiu := rfl
@[simp] theorem fnm_updCmd (s : State) (slot : Nat) (g : NCmd → NCmd) : (s.updCmd slot g).fnm = s.fnm := rfl
@[simp] theorem kite_updCmd (s : State) (slot : Nat) (g : NCmd → NCmd) : (s.updCmd slot g).kite = s.kite := rfl
@[simp] theorem rings_updCmd (s : State) (slot : Nat) (g : NCmd → NCmd) : (s.updCmd slot g).rings = s.rings := rfl
@[simp] theorem rte_updCmd (s : State) (slot : Nat) (g : NCmd → NCmd) : (s.updCmd slot g).rte = s.rte := rfl
@[simp] theorem ciph_updCmd (s : State) (slot : Nat) (g : NCmd → NCmd) : (s.updCmd slot g).ciph = s.ciph := rfl
@[simp] theorem hbm_updCmd (s : State) (slot : Nat) (g : NCmd → NCmd) : (s.updCmd slot g).hbm = s.hbm := rfl
@[simp] theorem tether_updCmd (s : State) (slot : Nat) (g : NCmd → NCmd) : (s.updCmd slot g).tether = s.tether := rfl
@[simp] theorem boot_updCmd (s : State) (slot : Nat) (g : NCmd → NCmd) : (s.updCmd slot g).boot = s.boot := rfl
@[simp] theorem obs_updCmd (s : State) (slot : Nat) (g : NCmd → NCmd) : (s.updCmd slot g).obs = s.obs := rfl
@[simp] theorem out_updCmd (s : State) (slot : Nat) (g : NCmd → NCmd) : (s.updCmd slot g).out = s.out := rfl
@[simp] theorem free_updCmd (s : State) (slot : Nat) (g : NCmd → NCmd) : (s.updCmd slot g).free = s.free := rfl
@[simp] theorem pending_updCmd (s : State) (slot : Nat) (g : NCmd → NCmd) : (s.updCmd slot g).pending = s.pending := rfl

@[simp] theorem regs_setSa (s : State) (k : Nat) (v : SaRec) : (s.setSa k v).regs = s.regs := rfl
@[simp] theorem evt_setSa (s : State) (k : Nat) (v : SaRec) : (s.setSa k v).evt = s.evt := rfl
@[simp] theorem clk_setSa (s : State) (k : Nat) (v : SaRec) : (s.setSa k v).clk = s.clk := rfl
@[simp] theorem parse_setSa (s : State) (k : Nat) (v : SaRec) : (s.setSa k v).parse = s.parse := rfl
@[simp] theorem cway_setSa (s : State) (k : Nat) (v : SaRec) : (s.setSa k v).cway = s.cway := rfl
@[simp] theorem rtbl_setSa (s : State) (k : Nat) (v : SaRec) : (s.setSa k v).rtbl = s.rtbl := rfl
@[simp] theorem shld_setSa (s : State) (k : Nat) (v : SaRec) : (s.setSa k v).shld = s.shld := rfl
@[simp] theorem tm_setSa (s : State) (k : Nat) (v : SaRec) : (s.setSa k v).tm = s.tm := rfl
@[simp] theorem line_setSa (s : State) (k : Nat) (v : SaRec) : (s.setSa k v).line = s.line := rfl
@[simp] theorem eng_setSa (s : State) (k : Nat) (v : SaRec) : (s.setSa k v).eng = s.eng := rfl
@[simp] theorem hiu_setSa (s : State) (k : Nat) (v : SaRec) : (s.setSa k v).hiu = s.hiu := rfl
@[simp] theorem fnm_setSa (s : State) (k : Nat) (v : SaRec) : (s.setSa k v).fnm = s.fnm := rfl
@[simp] theorem kite_setSa (s : State) (k : Nat) (v : SaRec) : (s.setSa k v).kite = s.kite := rfl
@[simp] theorem rings_setSa (s : State) (k : Nat) (v : SaRec) : (s.setSa k v).rings = s.rings := rfl
@[simp] theorem rte_setSa (s : State) (k : Nat) (v : SaRec) : (s.setSa k v).rte = s.rte := rfl
@[simp] theorem sce_setSa (s : State) (k : Nat) (v : SaRec) : (s.setSa k v).sce = s.sce := rfl
@[simp] theorem hbm_setSa (s : State) (k : Nat) (v : SaRec) : (s.setSa k v).hbm = s.hbm := rfl
@[simp] theorem tether_setSa (s : State) (k : Nat) (v : SaRec) : (s.setSa k v).tether = s.tether := rfl
@[simp] theorem boot_setSa (s : State) (k : Nat) (v : SaRec) : (s.setSa k v).boot = s.boot := rfl
@[simp] theorem obs_setSa (s : State) (k : Nat) (v : SaRec) : (s.setSa k v).obs = s.obs := rfl
@[simp] theorem out_setSa (s : State) (k : Nat) (v : SaRec) : (s.setSa k v).out = s.out := rfl
@[simp] theorem free_setSa (s : State) (k : Nat) (v : SaRec) : (s.setSa k v).free = s.free := rfl
@[simp] theorem pending_setSa (s : State) (k : Nat) (v : SaRec) : (s.setSa k v).pending = s.pending := rfl

@[simp] theorem regs_hbmPut (s : State) (a : Nat) (b : Bytes) : (s.hbmPut a b).regs = s.regs := rfl
@[simp] theorem evt_hbmPut (s : State) (a : Nat) (b : Bytes) : (s.hbmPut a b).evt = s.evt := rfl
@[simp] theorem clk_hbmPut (s : State) (a : Nat) (b : Bytes) : (s.hbmPut a b).clk = s.clk := rfl
@[simp] theorem parse_hbmPut (s : State) (a : Nat) (b : Bytes) : (s.hbmPut a b).parse = s.parse := rfl
@[simp] theorem cway_hbmPut (s : State) (a : Nat) (b : Bytes) : (s.hbmPut a b).cway = s.cway := rfl
@[simp] theorem rtbl_hbmPut (s : State) (a : Nat) (b : Bytes) : (s.hbmPut a b).rtbl = s.rtbl := rfl
@[simp] theorem shld_hbmPut (s : State) (a : Nat) (b : Bytes) : (s.hbmPut a b).shld = s.shld := rfl
@[simp] theorem tm_hbmPut (s : State) (a : Nat) (b : Bytes) : (s.hbmPut a b).tm = s.tm := rfl
@[simp] theorem line_hbmPut (s : State) (a : Nat) (b : Bytes) : (s.hbmPut a b).line = s.line := rfl
@[simp] theorem eng_hbmPut (s : State) (a : Nat) (b : Bytes) : (s.hbmPut a b).eng = s.eng := rfl
@[simp] theorem hiu_hbmPut (s : State) (a : Nat) (b : Bytes) : (s.hbmPut a b).hiu = s.hiu := rfl
@[simp] theorem fnm_hbmPut (s : State) (a : Nat) (b : Bytes) : (s.hbmPut a b).fnm = s.fnm := rfl
@[simp] theorem kite_hbmPut (s : State) (a : Nat) (b : Bytes) : (s.hbmPut a b).kite = s.kite := rfl
@[simp] theorem rings_hbmPut (s : State) (a : Nat) (b : Bytes) : (s.hbmPut a b).rings = s.rings := rfl
@[simp] theorem rte_hbmPut (s : State) (a : Nat) (b : Bytes) : (s.hbmPut a b).rte = s.rte := rfl
@[simp] theorem sce_hbmPut (s : State) (a : Nat) (b : Bytes) : (s.hbmPut a b).sce = s.sce := rfl
@[simp] theorem ciph_hbmPut (s : State) (a : Nat) (b : Bytes) : (s.hbmPut a b).ciph = s.ciph := rfl
@[simp] theorem tether_hbmPut (s : State) (a : Nat) (b : Bytes) : (s.hbmPut a b).tether = s.tether := rfl
@[simp] theorem boot_hbmPut (s : State) (a : Nat) (b : Bytes) : (s.hbmPut a b).boot = s.boot := rfl
@[simp] theorem obs_hbmPut (s : State) (a : Nat) (b : Bytes) : (s.hbmPut a b).obs = s.obs := rfl
@[simp] theorem out_hbmPut (s : State) (a : Nat) (b : Bytes) : (s.hbmPut a b).out = s.out := rfl
@[simp] theorem free_hbmPut (s : State) (a : Nat) (b : Bytes) : (s.hbmPut a b).free = s.free := rfl
@[simp] theorem pending_hbmPut (s : State) (a : Nat) (b : Bytes) : (s.hbmPut a b).pending = s.pending := rfl

@[simp] theorem regs_setBucket (s : State) (r t b : Nat) (v : Bucket) : (s.setBucket r t b v).regs = s.regs := rfl
@[simp] theorem evt_setBucket (s : State) (r t b : Nat) (v : Bucket) : (s.setBucket r t b v).evt = s.evt := rfl
@[simp] theorem clk_setBucket (s : State) (r t b : Nat) (v : Bucket) : (s.setBucket r t b v).clk = s.clk := rfl
@[simp] theorem parse_setBucket (s : State) (r t b : Nat) (v : Bucket) : (s.setBucket r t b v).parse = s.parse := rfl
@[simp] theorem cway_setBucket (s : State) (r t b : Nat) (v : Bucket) : (s.setBucket r t b v).cway = s.cway := rfl
@[simp] theorem shld_setBucket (s : State) (r t b : Nat) (v : Bucket) : (s.setBucket r t b v).shld = s.shld := rfl
@[simp] theorem tm_setBucket (s : State) (r t b : Nat) (v : Bucket) : (s.setBucket r t b v).tm = s.tm := rfl
@[simp] theorem line_setBucket (s : State) (r t b : Nat) (v : Bucket) : (s.setBucket r t b v).line = s.line := rfl
@[simp] theorem eng_setBucket (s : State) (r t b : Nat) (v : Bucket) : (s.setBucket r t b v).eng = s.eng := rfl
@[simp] theorem hiu_setBucket (s : State) (r t b : Nat) (v : Bucket) : (s.setBucket r t b v).hiu = s.hiu := rfl
@[simp] theorem fnm_setBucket (s : State) (r t b : Nat) (v : Bucket) : (s.setBucket r t b v).fnm = s.fnm := rfl
@[simp] theorem kite_setBucket (s : State) (r t b : Nat) (v : Bucket) : (s.setBucket r t b v).kite = s.kite := rfl
@[simp] theorem rings_setBucket (s : State) (r t b : Nat) (v : Bucket) : (s.setBucket r t b v).rings = s.rings := rfl
@[simp] theorem rte_setBucket (s : State) (r t b : Nat) (v : Bucket) : (s.setBucket r t b v).rte = s.rte := rfl
@[simp] theorem sce_setBucket (s : State) (r t b : Nat) (v : Bucket) : (s.setBucket r t b v).sce = s.sce := rfl
@[simp] theorem ciph_setBucket (s : State) (r t b : Nat) (v : Bucket) : (s.setBucket r t b v).ciph = s.ciph := rfl
@[simp] theorem hbm_setBucket (s : State) (r t b : Nat) (v : Bucket) : (s.setBucket r t b v).hbm = s.hbm := rfl
@[simp] theorem tether_setBucket (s : State) (r t b : Nat) (v : Bucket) : (s.setBucket r t b v).tether = s.tether := rfl
@[simp] theorem boot_setBucket (s : State) (r t b : Nat) (v : Bucket) : (s.setBucket r t b v).boot = s.boot := rfl
@[simp] theorem obs_setBucket (s : State) (r t b : Nat) (v : Bucket) : (s.setBucket r t b v).obs = s.obs := rfl
@[simp] theorem out_setBucket (s : State) (r t b : Nat) (v : Bucket) : (s.setBucket r t b v).out = s.out := rfl
@[simp] theorem free_setBucket (s : State) (r t b : Nat) (v : Bucket) : (s.setBucket r t b v).free = s.free := rfl
@[simp] theorem pending_setBucket (s : State) (r t b : Nat) (v : Bucket) : (s.setBucket r t b v).pending = s.pending := rfl

@[simp] theorem regs_setOvf (s : State) (r t x : Nat) (v : OvfEntry) : (s.setOvf r t x v).regs = s.regs := rfl
@[simp] theorem evt_setOvf (s : State) (r t x : Nat) (v : OvfEntry) : (s.setOvf r t x v).evt = s.evt := rfl
@[simp] theorem clk_setOvf (s : State) (r t x : Nat) (v : OvfEntry) : (s.setOvf r t x v).clk = s.clk := rfl
@[simp] theorem parse_setOvf (s : State) (r t x : Nat) (v : OvfEntry) : (s.setOvf r t x v).parse = s.parse := rfl
@[simp] theorem cway_setOvf (s : State) (r t x : Nat) (v : OvfEntry) : (s.setOvf r t x v).cway = s.cway := rfl
@[simp] theorem shld_setOvf (s : State) (r t x : Nat) (v : OvfEntry) : (s.setOvf r t x v).shld = s.shld := rfl
@[simp] theorem tm_setOvf (s : State) (r t x : Nat) (v : OvfEntry) : (s.setOvf r t x v).tm = s.tm := rfl
@[simp] theorem line_setOvf (s : State) (r t x : Nat) (v : OvfEntry) : (s.setOvf r t x v).line = s.line := rfl
@[simp] theorem eng_setOvf (s : State) (r t x : Nat) (v : OvfEntry) : (s.setOvf r t x v).eng = s.eng := rfl
@[simp] theorem hiu_setOvf (s : State) (r t x : Nat) (v : OvfEntry) : (s.setOvf r t x v).hiu = s.hiu := rfl
@[simp] theorem fnm_setOvf (s : State) (r t x : Nat) (v : OvfEntry) : (s.setOvf r t x v).fnm = s.fnm := rfl
@[simp] theorem kite_setOvf (s : State) (r t x : Nat) (v : OvfEntry) : (s.setOvf r t x v).kite = s.kite := rfl
@[simp] theorem rings_setOvf (s : State) (r t x : Nat) (v : OvfEntry) : (s.setOvf r t x v).rings = s.rings := rfl
@[simp] theorem rte_setOvf (s : State) (r t x : Nat) (v : OvfEntry) : (s.setOvf r t x v).rte = s.rte := rfl
@[simp] theorem sce_setOvf (s : State) (r t x : Nat) (v : OvfEntry) : (s.setOvf r t x v).sce = s.sce := rfl
@[simp] theorem ciph_setOvf (s : State) (r t x : Nat) (v : OvfEntry) : (s.setOvf r t x v).ciph = s.ciph := rfl
@[simp] theorem hbm_setOvf (s : State) (r t x : Nat) (v : OvfEntry) : (s.setOvf r t x v).hbm = s.hbm := rfl
@[simp] theorem tether_setOvf (s : State) (r t x : Nat) (v : OvfEntry) : (s.setOvf r t x v).tether = s.tether := rfl
@[simp] theorem boot_setOvf (s : State) (r t x : Nat) (v : OvfEntry) : (s.setOvf r t x v).boot = s.boot := rfl
@[simp] theorem obs_setOvf (s : State) (r t x : Nat) (v : OvfEntry) : (s.setOvf r t x v).obs = s.obs := rfl
@[simp] theorem out_setOvf (s : State) (r t x : Nat) (v : OvfEntry) : (s.setOvf r t x v).out = s.out := rfl
@[simp] theorem free_setOvf (s : State) (r t x : Nat) (v : OvfEntry) : (s.setOvf r t x v).free = s.free := rfl
@[simp] theorem pending_setOvf (s : State) (r t x : Nat) (v : OvfEntry) : (s.setOvf r t x v).pending = s.pending := rfl

@[simp] theorem regs_setSink (s : State) (k : Nat) (v : Sink) : (s.setSink k v).regs = s.regs := rfl
@[simp] theorem evt_setSink (s : State) (k : Nat) (v : Sink) : (s.setSink k v).evt = s.evt := rfl
@[simp] theorem clk_setSink (s : State) (k : Nat) (v : Sink) : (s.setSink k v).clk = s.clk := rfl
@[simp] theorem parse_setSink (s : State) (k : Nat) (v : Sink) : (s.setSink k v).parse = s.parse := rfl
@[simp] theorem cway_setSink (s : State) (k : Nat) (v : Sink) : (s.setSink k v).cway = s.cway := rfl
@[simp] theorem rtbl_setSink (s : State) (k : Nat) (v : Sink) : (s.setSink k v).rtbl = s.rtbl := rfl
@[simp] theorem shld_setSink (s : State) (k : Nat) (v : Sink) : (s.setSink k v).shld = s.shld := rfl
@[simp] theorem tm_setSink (s : State) (k : Nat) (v : Sink) : (s.setSink k v).tm = s.tm := rfl
@[simp] theorem line_setSink (s : State) (k : Nat) (v : Sink) : (s.setSink k v).line = s.line := rfl
@[simp] theorem eng_setSink (s : State) (k : Nat) (v : Sink) : (s.setSink k v).eng = s.eng := rfl
@[simp] theorem hiu_setSink (s : State) (k : Nat) (v : Sink) : (s.setSink k v).hiu = s.hiu := rfl
@[simp] theorem fnm_setSink (s : State) (k : Nat) (v : Sink) : (s.setSink k v).fnm = s.fnm := rfl
@[simp] theorem kite_setSink (s : State) (k : Nat) (v : Sink) : (s.setSink k v).kite = s.kite := rfl
@[simp] theorem rings_setSink (s : State) (k : Nat) (v : Sink) : (s.setSink k v).rings = s.rings := rfl
@[simp] theorem rte_setSink (s : State) (k : Nat) (v : Sink) : (s.setSink k v).rte = s.rte := rfl
@[simp] theorem sce_setSink (s : State) (k : Nat) (v : Sink) : (s.setSink k v).sce = s.sce := rfl
@[simp] theorem ciph_setSink (s : State) (k : Nat) (v : Sink) : (s.setSink k v).ciph = s.ciph := rfl
@[simp] theorem hbm_setSink (s : State) (k : Nat) (v : Sink) : (s.setSink k v).hbm = s.hbm := rfl
@[simp] theorem tether_setSink (s : State) (k : Nat) (v : Sink) : (s.setSink k v).tether = s.tether := rfl
@[simp] theorem boot_setSink (s : State) (k : Nat) (v : Sink) : (s.setSink k v).boot = s.boot := rfl
@[simp] theorem out_setSink (s : State) (k : Nat) (v : Sink) : (s.setSink k v).out = s.out := rfl
@[simp] theorem free_setSink (s : State) (k : Nat) (v : Sink) : (s.setSink k v).free = s.free := rfl
@[simp] theorem pending_setSink (s : State) (k : Nat) (v : Sink) : (s.setSink k v).pending = s.pending := rfl

@[simp] theorem regs_updSink (s : State) (k : Nat) (g : Sink → Sink) : (s.updSink k g).regs = s.regs := rfl
@[simp] theorem evt_updSink (s : State) (k : Nat) (g : Sink → Sink) : (s.updSink k g).evt = s.evt := rfl
@[simp] theorem clk_updSink (s : State) (k : Nat) (g : Sink → Sink) : (s.updSink k g).clk = s.clk := rfl
@[simp] theorem parse_updSink (s : State) (k : Nat) (g : Sink → Sink) : (s.updSink k g).parse = s.parse := rfl
@[simp] theorem cway_updSink (s : State) (k : Nat) (g : Sink → Sink) : (s.updSink k g).cway = s.cway := rfl
@[simp] theorem rtbl_updSink (s : State) (k : Nat) (g : Sink → Sink) : (s.updSink k g).rtbl = s.rtbl := rfl
@[simp] theorem shld_updSink (s : State) (k : Nat) (g : Sink → Sink) : (s.updSink k g).shld = s.shld := rfl
@[simp] theorem tm_updSink (s : State) (k : Nat) (g : Sink → Sink) : (s.updSink k g).tm = s.tm := rfl
@[simp] theorem line_updSink (s : State) (k : Nat) (g : Sink → Sink) : (s.updSink k g).line = s.line := rfl
@[simp] theorem eng_updSink (s : State) (k : Nat) (g : Sink → Sink) : (s.updSink k g).eng = s.eng := rfl
@[simp] theorem hiu_updSink (s : State) (k : Nat) (g : Sink → Sink) : (s.updSink k g).hiu = s.hiu := rfl
@[simp] theorem fnm_updSink (s : State) (k : Nat) (g : Sink → Sink) : (s.updSink k g).fnm = s.fnm := rfl
@[simp] theorem kite_updSink (s : State) (k : Nat) (g : Sink → Sink) : (s.updSink k g).kite = s.kite := rfl
@[simp] theorem rings_updSink (s : State) (k : Nat) (g : Sink → Sink) : (s.updSink k g).rings = s.rings := rfl
@[simp] theorem rte_updSink (s : State) (k : Nat) (g : Sink → Sink) : (s.updSink k g).rte = s.rte := rfl
@[simp] theorem sce_updSink (s : State) (k : Nat) (g : Sink → Sink) : (s.updSink k g).sce = s.sce := rfl
@[simp] theorem ciph_updSink (s : State) (k : Nat) (g : Sink → Sink) : (s.updSink k g).ciph = s.ciph := rfl
@[simp] theorem hbm_updSink (s : State) (k : Nat) (g : Sink → Sink) : (s.updSink k g).hbm = s.hbm := rfl
@[simp] theorem tether_updSink (s : State) (k : Nat) (g : Sink → Sink) : (s.updSink k g).tether = s.tether := rfl
@[simp] theorem boot_updSink (s : State) (k : Nat) (g : Sink → Sink) : (s.updSink k g).boot = s.boot := rfl
@[simp] theorem out_updSink (s : State) (k : Nat) (g : Sink → Sink) : (s.updSink k g).out = s.out := rfl
@[simp] theorem free_updSink (s : State) (k : Nat) (g : Sink → Sink) : (s.updSink k g).free = s.free := rfl
@[simp] theorem pending_updSink (s : State) (k : Nat) (g : Sink → Sink) : (s.updSink k g).pending = s.pending := rfl

@[simp] theorem regs_setFollow (s : State) (k : Nat) (e : FollowEntry) : (s.setFollow k e).regs = s.regs := rfl
@[simp] theorem evt_setFollow (s : State) (k : Nat) (e : FollowEntry) : (s.setFollow k e).evt = s.evt := rfl
@[simp] theorem clk_setFollow (s : State) (k : Nat) (e : FollowEntry) : (s.setFollow k e).clk = s.clk := rfl
@[simp] theorem cway_setFollow (s : State) (k : Nat) (e : FollowEntry) : (s.setFollow k e).cway = s.cway := rfl
@[simp] theorem rtbl_setFollow (s : State) (k : Nat) (e : FollowEntry) : (s.setFollow k e).rtbl = s.rtbl := rfl
@[simp] theorem shld_setFollow (s : State) (k : Nat) (e : FollowEntry) : (s.setFollow k e).shld = s.shld := rfl
@[simp] theorem tm_setFollow (s : State) (k : Nat) (e : FollowEntry) : (s.setFollow k e).tm = s.tm := rfl
@[simp] theorem line_setFollow (s : State) (k : Nat) (e : FollowEntry) : (s.setFollow k e).line = s.line := rfl
@[simp] theorem eng_setFollow (s : State) (k : Nat) (e : FollowEntry) : (s.setFollow k e).eng = s.eng := rfl
@[simp] theorem hiu_setFollow (s : State) (k : Nat) (e : FollowEntry) : (s.setFollow k e).hiu = s.hiu := rfl
@[simp] theorem fnm_setFollow (s : State) (k : Nat) (e : FollowEntry) : (s.setFollow k e).fnm = s.fnm := rfl
@[simp] theorem kite_setFollow (s : State) (k : Nat) (e : FollowEntry) : (s.setFollow k e).kite = s.kite := rfl
@[simp] theorem rings_setFollow (s : State) (k : Nat) (e : FollowEntry) : (s.setFollow k e).rings = s.rings := rfl
@[simp] theorem rte_setFollow (s : State) (k : Nat) (e : FollowEntry) : (s.setFollow k e).rte = s.rte := rfl
@[simp] theorem sce_setFollow (s : State) (k : Nat) (e : FollowEntry) : (s.setFollow k e).sce = s.sce := rfl
@[simp] theorem ciph_setFollow (s : State) (k : Nat) (e : FollowEntry) : (s.setFollow k e).ciph = s.ciph := rfl
@[simp] theorem hbm_setFollow (s : State) (k : Nat) (e : FollowEntry) : (s.setFollow k e).hbm = s.hbm := rfl
@[simp] theorem tether_setFollow (s : State) (k : Nat) (e : FollowEntry) : (s.setFollow k e).tether = s.tether := rfl
@[simp] theorem boot_setFollow (s : State) (k : Nat) (e : FollowEntry) : (s.setFollow k e).boot = s.boot := rfl
@[simp] theorem obs_setFollow (s : State) (k : Nat) (e : FollowEntry) : (s.setFollow k e).obs = s.obs := rfl
@[simp] theorem out_setFollow (s : State) (k : Nat) (e : FollowEntry) : (s.setFollow k e).out = s.out := rfl
@[simp] theorem free_setFollow (s : State) (k : Nat) (e : FollowEntry) : (s.setFollow k e).free = s.free := rfl
@[simp] theorem pending_setFollow (s : State) (k : Nat) (e : FollowEntry) : (s.setFollow k e).pending = s.pending := rfl

@[simp] theorem regs_setShld (s : State) (v : ShldState) : (s.setShld v).regs = s.regs := rfl
@[simp] theorem evt_setShld (s : State) (v : ShldState) : (s.setShld v).evt = s.evt := rfl
@[simp] theorem clk_setShld (s : State) (v : ShldState) : (s.setShld v).clk = s.clk := rfl
@[simp] theorem parse_setShld (s : State) (v : ShldState) : (s.setShld v).parse = s.parse := rfl
@[simp] theorem cway_setShld (s : State) (v : ShldState) : (s.setShld v).cway = s.cway := rfl
@[simp] theorem rtbl_setShld (s : State) (v : ShldState) : (s.setShld v).rtbl = s.rtbl := rfl
@[simp] theorem tm_setShld (s : State) (v : ShldState) : (s.setShld v).tm = s.tm := rfl
@[simp] theorem line_setShld (s : State) (v : ShldState) : (s.setShld v).line = s.line := rfl
@[simp] theorem eng_setShld (s : State) (v : ShldState) : (s.setShld v).eng = s.eng := rfl
@[simp] theorem hiu_setShld (s : State) (v : ShldState) : (s.setShld v).hiu = s.hiu := rfl
@[simp] theorem fnm_setShld (s : State) (v : ShldState) : (s.setShld v).fnm = s.fnm := rfl
@[simp] theorem kite_setShld (s : State) (v : ShldState) : (s.setShld v).kite = s.kite := rfl
@[simp] theorem rings_setShld (s : State) (v : ShldState) : (s.setShld v).rings = s.rings := rfl
@[simp] theorem rte_setShld (s : State) (v : ShldState) : (s.setShld v).rte = s.rte := rfl
@[simp] theorem sce_setShld (s : State) (v : ShldState) : (s.setShld v).sce = s.sce := rfl
@[simp] theorem ciph_setShld (s : State) (v : ShldState) : (s.setShld v).ciph = s.ciph := rfl
@[simp] theorem hbm_setShld (s : State) (v : ShldState) : (s.setShld v).hbm = s.hbm := rfl
@[simp] theorem tether_setShld (s : State) (v : ShldState) : (s.setShld v).tether = s.tether := rfl
@[simp] theorem boot_setShld (s : State) (v : ShldState) : (s.setShld v).boot = s.boot := rfl
@[simp] theorem obs_setShld (s : State) (v : ShldState) : (s.setShld v).obs = s.obs := rfl
@[simp] theorem out_setShld (s : State) (v : ShldState) : (s.setShld v).out = s.out := rfl
@[simp] theorem free_setShld (s : State) (v : ShldState) : (s.setShld v).free = s.free := rfl
@[simp] theorem pending_setShld (s : State) (v : ShldState) : (s.setShld v).pending = s.pending := rfl

@[simp] theorem regs_setDoe (s : State) (f : Nat) (d : Doe) : (s.setDoe f d).regs = s.regs := rfl
@[simp] theorem evt_setDoe (s : State) (f : Nat) (d : Doe) : (s.setDoe f d).evt = s.evt := rfl
@[simp] theorem clk_setDoe (s : State) (f : Nat) (d : Doe) : (s.setDoe f d).clk = s.clk := rfl
@[simp] theorem parse_setDoe (s : State) (f : Nat) (d : Doe) : (s.setDoe f d).parse = s.parse := rfl
@[simp] theorem cway_setDoe (s : State) (f : Nat) (d : Doe) : (s.setDoe f d).cway = s.cway := rfl
@[simp] theorem rtbl_setDoe (s : State) (f : Nat) (d : Doe) : (s.setDoe f d).rtbl = s.rtbl := rfl
@[simp] theorem shld_setDoe (s : State) (f : Nat) (d : Doe) : (s.setDoe f d).shld = s.shld := rfl
@[simp] theorem tm_setDoe (s : State) (f : Nat) (d : Doe) : (s.setDoe f d).tm = s.tm := rfl
@[simp] theorem line_setDoe (s : State) (f : Nat) (d : Doe) : (s.setDoe f d).line = s.line := rfl
@[simp] theorem eng_setDoe (s : State) (f : Nat) (d : Doe) : (s.setDoe f d).eng = s.eng := rfl
@[simp] theorem fnm_setDoe (s : State) (f : Nat) (d : Doe) : (s.setDoe f d).fnm = s.fnm := rfl
@[simp] theorem kite_setDoe (s : State) (f : Nat) (d : Doe) : (s.setDoe f d).kite = s.kite := rfl
@[simp] theorem rings_setDoe (s : State) (f : Nat) (d : Doe) : (s.setDoe f d).rings = s.rings := rfl
@[simp] theorem rte_setDoe (s : State) (f : Nat) (d : Doe) : (s.setDoe f d).rte = s.rte := rfl
@[simp] theorem sce_setDoe (s : State) (f : Nat) (d : Doe) : (s.setDoe f d).sce = s.sce := rfl
@[simp] theorem ciph_setDoe (s : State) (f : Nat) (d : Doe) : (s.setDoe f d).ciph = s.ciph := rfl
@[simp] theorem hbm_setDoe (s : State) (f : Nat) (d : Doe) : (s.setDoe f d).hbm = s.hbm := rfl
@[simp] theorem tether_setDoe (s : State) (f : Nat) (d : Doe) : (s.setDoe f d).tether = s.tether := rfl
@[simp] theorem boot_setDoe (s : State) (f : Nat) (d : Doe) : (s.setDoe f d).boot = s.boot := rfl
@[simp] theorem obs_setDoe (s : State) (f : Nat) (d : Doe) : (s.setDoe f d).obs = s.obs := rfl
@[simp] theorem out_setDoe (s : State) (f : Nat) (d : Doe) : (s.setDoe f d).out = s.out := rfl
@[simp] theorem free_setDoe (s : State) (f : Nat) (d : Doe) : (s.setDoe f d).free = s.free := rfl
@[simp] theorem pending_setDoe (s : State) (f : Nat) (d : Doe) : (s.setDoe f d).pending = s.pending := rfl

@[simp] theorem regs_setToll (s : State) (k : Nat) (t : Toll) : (s.setToll k t).regs = s.regs := rfl
@[simp] theorem evt_setToll (s : State) (k : Nat) (t : Toll) : (s.setToll k t).evt = s.evt := rfl
@[simp] theorem clk_setToll (s : State) (k : Nat) (t : Toll) : (s.setToll k t).clk = s.clk := rfl
@[simp] theorem parse_setToll (s : State) (k : Nat) (t : Toll) : (s.setToll k t).parse = s.parse := rfl
@[simp] theorem cway_setToll (s : State) (k : Nat) (t : Toll) : (s.setToll k t).cway = s.cway := rfl
@[simp] theorem rtbl_setToll (s : State) (k : Nat) (t : Toll) : (s.setToll k t).rtbl = s.rtbl := rfl
@[simp] theorem shld_setToll (s : State) (k : Nat) (t : Toll) : (s.setToll k t).shld = s.shld := rfl
@[simp] theorem line_setToll (s : State) (k : Nat) (t : Toll) : (s.setToll k t).line = s.line := rfl
@[simp] theorem eng_setToll (s : State) (k : Nat) (t : Toll) : (s.setToll k t).eng = s.eng := rfl
@[simp] theorem hiu_setToll (s : State) (k : Nat) (t : Toll) : (s.setToll k t).hiu = s.hiu := rfl
@[simp] theorem fnm_setToll (s : State) (k : Nat) (t : Toll) : (s.setToll k t).fnm = s.fnm := rfl
@[simp] theorem kite_setToll (s : State) (k : Nat) (t : Toll) : (s.setToll k t).kite = s.kite := rfl
@[simp] theorem rings_setToll (s : State) (k : Nat) (t : Toll) : (s.setToll k t).rings = s.rings := rfl
@[simp] theorem rte_setToll (s : State) (k : Nat) (t : Toll) : (s.setToll k t).rte = s.rte := rfl
@[simp] theorem sce_setToll (s : State) (k : Nat) (t : Toll) : (s.setToll k t).sce = s.sce := rfl
@[simp] theorem ciph_setToll (s : State) (k : Nat) (t : Toll) : (s.setToll k t).ciph = s.ciph := rfl
@[simp] theorem hbm_setToll (s : State) (k : Nat) (t : Toll) : (s.setToll k t).hbm = s.hbm := rfl
@[simp] theorem tether_setToll (s : State) (k : Nat) (t : Toll) : (s.setToll k t).tether = s.tether := rfl
@[simp] theorem boot_setToll (s : State) (k : Nat) (t : Toll) : (s.setToll k t).boot = s.boot := rfl
@[simp] theorem obs_setToll (s : State) (k : Nat) (t : Toll) : (s.setToll k t).obs = s.obs := rfl
@[simp] theorem out_setToll (s : State) (k : Nat) (t : Toll) : (s.setToll k t).out = s.out := rfl
@[simp] theorem free_setToll (s : State) (k : Nat) (t : Toll) : (s.setToll k t).free = s.free := rfl
@[simp] theorem pending_setToll (s : State) (k : Nat) (t : Toll) : (s.setToll k t).pending = s.pending := rfl

@[simp] theorem regs_setReg (s : State) (e t r : Nat) (v : DWord) : (s.setReg e t r v).regs = s.regs := by
  unfold State.setReg; split <;> rfl
@[simp] theorem evt_setReg (s : State) (e t r : Nat) (v : DWord) : (s.setReg e t r v).evt = s.evt := by
  unfold State.setReg; split <;> rfl
@[simp] theorem clk_setReg (s : State) (e t r : Nat) (v : DWord) : (s.setReg e t r v).clk = s.clk := by
  unfold State.setReg; split <;> rfl
@[simp] theorem parse_setReg (s : State) (e t r : Nat) (v : DWord) : (s.setReg e t r v).parse = s.parse := by
  unfold State.setReg; split <;> rfl
@[simp] theorem cway_setReg (s : State) (e t r : Nat) (v : DWord) : (s.setReg e t r v).cway = s.cway := by
  unfold State.setReg; split <;> rfl
@[simp] theorem rtbl_setReg (s : State) (e t r : Nat) (v : DWord) : (s.setReg e t r v).rtbl = s.rtbl := by
  unfold State.setReg; split <;> rfl
@[simp] theorem shld_setReg (s : State) (e t r : Nat) (v : DWord) : (s.setReg e t r v).shld = s.shld := by
  unfold State.setReg; split <;> rfl
@[simp] theorem tm_setReg (s : State) (e t r : Nat) (v : DWord) : (s.setReg e t r v).tm = s.tm := by
  unfold State.setReg; split <;> rfl
@[simp] theorem line_setReg (s : State) (e t r : Nat) (v : DWord) : (s.setReg e t r v).line = s.line := by
  unfold State.setReg; split <;> rfl
@[simp] theorem hiu_setReg (s : State) (e t r : Nat) (v : DWord) : (s.setReg e t r v).hiu = s.hiu := by
  unfold State.setReg; split <;> rfl
@[simp] theorem fnm_setReg (s : State) (e t r : Nat) (v : DWord) : (s.setReg e t r v).fnm = s.fnm := by
  unfold State.setReg; split <;> rfl
@[simp] theorem kite_setReg (s : State) (e t r : Nat) (v : DWord) : (s.setReg e t r v).kite = s.kite := by
  unfold State.setReg; split <;> rfl
@[simp] theorem rings_setReg (s : State) (e t r : Nat) (v : DWord) : (s.setReg e t r v).rings = s.rings := by
  unfold State.setReg; split <;> rfl
@[simp] theorem rte_setReg (s : State) (e t r : Nat) (v : DWord) : (s.setReg e t r v).rte = s.rte := by
  unfold State.setReg; split <;> rfl
@[simp] theorem sce_setReg (s : State) (e t r : Nat) (v : DWord) : (s.setReg e t r v).sce = s.sce := by
  unfold State.setReg; split <;> rfl
@[simp] theorem ciph_setReg (s : State) (e t r : Nat) (v : DWord) : (s.setReg e t r v).ciph = s.ciph := by
  unfold State.setReg; split <;> rfl
@[simp] theorem hbm_setReg (s : State) (e t r : Nat) (v : DWord) : (s.setReg e t r v).hbm = s.hbm := by
  unfold State.setReg; split <;> rfl
@[simp] theorem tether_setReg (s : State) (e t r : Nat) (v : DWord) : (s.setReg e t r v).tether = s.tether := by
  unfold State.setReg; split <;> rfl
@[simp] theorem boot_setReg (s : State) (e t r : Nat) (v : DWord) : (s.setReg e t r v).boot = s.boot := by
  unfold State.setReg; split <;> rfl
@[simp] theorem obs_setReg (s : State) (e t r : Nat) (v : DWord) : (s.setReg e t r v).obs = s.obs := by
  unfold State.setReg; split <;> rfl
@[simp] theorem out_setReg (s : State) (e t r : Nat) (v : DWord) : (s.setReg e t r v).out = s.out := by
  unfold State.setReg; split <;> rfl
@[simp] theorem free_setReg (s : State) (e t r : Nat) (v : DWord) : (s.setReg e t r v).free = s.free := by
  unfold State.setReg; split <;> rfl
@[simp] theorem pending_setReg (s : State) (e t r : Nat) (v : DWord) : (s.setReg e t r v).pending = s.pending := by
  unfold State.setReg; split <;> rfl

@[simp] theorem regs_setDmem (s : State) (e a : Nat) (b : Bytes) : (s.setDmem e a b).regs = s.regs := rfl
@[simp] theorem evt_setDmem (s : State) (e a : Nat) (b : Bytes) : (s.setDmem e a b).evt = s.evt := rfl
@[simp] theorem clk_setDmem (s : State) (e a : Nat) (b : Bytes) : (s.setDmem e a b).clk = s.clk := rfl
@[simp] theorem parse_setDmem (s : State) (e a : Nat) (b : Bytes) : (s.setDmem e a b).parse = s.parse := rfl
@[simp] theorem cway_setDmem (s : State) (e a : Nat) (b : Bytes) : (s.setDmem e a b).cway = s.cway := rfl
@[simp] theorem rtbl_setDmem (s : State) (e a : Nat) (b : Bytes) : (s.setDmem e a b).rtbl = s.rtbl := rfl
@[simp] theorem shld_setDmem (s : State) (e a : Nat) (b : Bytes) : (s.setDmem e a b).shld = s.shld := rfl
@[simp] theorem tm_setDmem (s : State) (e a : Nat) (b : Bytes) : (s.setDmem e a b).tm = s.tm := rfl
@[simp] theorem line_setDmem (s : State) (e a : Nat) (b : Bytes) : (s.setDmem e a b).line = s.line := rfl
@[simp] theorem hiu_setDmem (s : State) (e a : Nat) (b : Bytes) : (s.setDmem e a b).hiu = s.hiu := rfl
@[simp] theorem fnm_setDmem (s : State) (e a : Nat) (b : Bytes) : (s.setDmem e a b).fnm = s.fnm := rfl
@[simp] theorem kite_setDmem (s : State) (e a : Nat) (b : Bytes) : (s.setDmem e a b).kite = s.kite := rfl
@[simp] theorem rings_setDmem (s : State) (e a : Nat) (b : Bytes) : (s.setDmem e a b).rings = s.rings := rfl
@[simp] theorem rte_setDmem (s : State) (e a : Nat) (b : Bytes) : (s.setDmem e a b).rte = s.rte := rfl
@[simp] theorem sce_setDmem (s : State) (e a : Nat) (b : Bytes) : (s.setDmem e a b).sce = s.sce := rfl
@[simp] theorem ciph_setDmem (s : State) (e a : Nat) (b : Bytes) : (s.setDmem e a b).ciph = s.ciph := rfl
@[simp] theorem hbm_setDmem (s : State) (e a : Nat) (b : Bytes) : (s.setDmem e a b).hbm = s.hbm := rfl
@[simp] theorem tether_setDmem (s : State) (e a : Nat) (b : Bytes) : (s.setDmem e a b).tether = s.tether := rfl
@[simp] theorem boot_setDmem (s : State) (e a : Nat) (b : Bytes) : (s.setDmem e a b).boot = s.boot := rfl
@[simp] theorem obs_setDmem (s : State) (e a : Nat) (b : Bytes) : (s.setDmem e a b).obs = s.obs := rfl
@[simp] theorem out_setDmem (s : State) (e a : Nat) (b : Bytes) : (s.setDmem e a b).out = s.out := rfl
@[simp] theorem free_setDmem (s : State) (e a : Nat) (b : Bytes) : (s.setDmem e a b).free = s.free := rfl
@[simp] theorem pending_setDmem (s : State) (e a : Nat) (b : Bytes) : (s.setDmem e a b).pending = s.pending := rfl

@[simp] theorem fn_setFn_same (s : State) (f : Nat) (v : HFn) : (s.setFn f v).fn f = v := mapGet_set_same ..
theorem fn_setFn_ne (s : State) (f : Nat) (v : HFn) {j : Nat} (h : j ≠ f) : (s.setFn f v).fn j = s.fn j := mapGet_set_ne _ _ _ h

@[simp] theorem link_setLink_same (s : State) (k : Nat) (v : HLink) : (s.setLink k v).link k = v := mapGet_set_same ..
theorem link_setLink_ne (s : State) (k : Nat) (v : HLink) {j : Nat} (h : j ≠ k) : (s.setLink k v).link j = s.link j := mapGet_set_ne _ _ _ h

@[simp] theorem inst_setInst_same (s : State) (f : Nat) (v : Inst) : (s.setInst f v).inst f = v := mapGet_set_same ..
theorem inst_setInst_ne (s : State) (f : Nat) (v : Inst) {j : Nat} (h : j ≠ f) : (s.setInst f v).inst j = s.inst j := mapGet_set_ne _ _ _ h

@[simp] theorem chan_setChan_same (s : State) (e c : Nat) (v : Chan) : (s.setChan e c v).chan e c = v := mapGet_set_same ..

@[simp] theorem thr_setThr_same (s : State) (e t : Nat) (v : Thread) : (s.setThr e t v).thr e t = v := mapGet_set_same ..

@[simp] theorem ring_setRing_same (s : State) (r : Nat) (v : Ring) : (s.setRing r v).ring r = v := mapGet_set_same ..
theorem ring_setRing_ne (s : State) (r : Nat) (v : Ring) {j : Nat} (h : j ≠ r) : (s.setRing r v).ring j = s.ring j := mapGet_set_ne _ _ _ h

@[simp] theorem cinst_setCinst_same (s : State) (i : Nat) (v : CwayInst) : (s.setCinst i v).cinst i = v := mapGet_set_same ..
theorem cinst_setCinst_ne (s : State) (i : Nat) (v : CwayInst) {j : Nat} (h : j ≠ i) : (s.setCinst i v).cinst j = s.cinst j := mapGet_set_ne _ _ _ h

@[simp] theorem port_setPort_same (s : State) (p : Nat) (v : LinePort) : (s.setPort p v).port p = v := mapGet_set_same ..
theorem port_setPort_ne (s : State) (p : Nat) (v : LinePort) {j : Nat} (h : j ≠ p) : (s.setPort p v).port j = s.port j := mapGet_set_ne _ _ _ h

@[simp] theorem xing_setXing_same (s : State) (n : Nat) (x : EvXing) : (s.setXing n x).xing n = x := mapGet_set_same ..
theorem xing_setXing_ne (s : State) (n : Nat) (x : EvXing) {j : Nat} (h : j ≠ n) : (s.setXing n x).xing j = s.xing j := mapGet_set_ne _ _ _ h

@[simp] theorem delta_setDelta_same (s : State) (a : Nat) (v : DWord) : (s.setDelta a v).delta a = v := mapGet_set_same ..
theorem delta_setDelta_ne (s : State) (a : Nat) (v : DWord) {j : Nat} (h : j ≠ a) : (s.setDelta a v).delta j = s.delta j := mapGet_set_ne _ _ _ h

@[simp] theorem page_setPage_same (s : State) (ch : Nat) (k : Kite) : (s.setPage ch k).page ch = k := mapGet_set_same ..
theorem page_setPage_ne (s : State) (ch : Nat) (k : Kite) {j : Nat} (h : j ≠ ch) : (s.setPage ch k).page j = s.page j := mapGet_set_ne _ _ _ h

@[simp] theorem opened_setOpened_same (s : State) (ch : Nat) (l : List OpenCmd) : (s.setOpened ch l).opened ch = l := mapGet_set_same ..
theorem opened_setOpened_ne (s : State) (ch : Nat) (l : List OpenCmd) {j : Nat} (h : j ≠ ch) : (s.setOpened ch l).opened j = s.opened j := mapGet_set_ne _ _ _ h

@[simp] theorem rspQ_setRspQ_same (s : State) (ch : Nat) (l : List DWord) : (s.setRspQ ch l).rspQ ch = l := mapGet_set_same ..
theorem rspQ_setRspQ_ne (s : State) (ch : Nat) (l : List DWord) {j : Nat} (h : j ≠ ch) : (s.setRspQ ch l).rspQ j = s.rspQ j := mapGet_set_ne _ _ _ h

@[simp] theorem tmNode_setTmNode_same (s : State) (k : Nat) (v : TmNode) : (s.setTmNode k v).tmNode k = v := mapGet_set_same ..
theorem tmNode_setTmNode_ne (s : State) (k : Nat) (v : TmNode) {j : Nat} (h : j ≠ k) : (s.setTmNode k v).tmNode j = s.tmNode j := mapGet_set_ne _ _ _ h

@[simp] theorem leafQ_setLeafQ_same (s : State) (l : Nat) (q : List QPkt) : (s.setLeafQ l q).leafQ l = q := mapGet_set_same ..
theorem leafQ_setLeafQ_ne (s : State) (l : Nat) (q : List QPkt) {j : Nat} (h : j ≠ l) : (s.setLeafQ l q).leafQ j = s.leafQ j := mapGet_set_ne _ _ _ h

@[simp] theorem qp_setQp_same (s : State) (i : Nat) (q : Qp) : (s.setQp i q).qp i = q := mapGet_set_same ..
theorem qp_setQp_ne (s : State) (i : Nat) (q : Qp) {j : Nat} (h : j ≠ i) : (s.setQp i q).qp j = s.qp j := mapGet_set_ne _ _ _ h

@[simp] theorem mr_setMr_same (s : State) (k : Nat) (v : Mr) : (s.setMr k v).mr k = v := mapGet_set_same ..
theorem mr_setMr_ne (s : State) (k : Nat) (v : Mr) {j : Nat} (h : j ≠ k) : (s.setMr k v).mr j = s.mr j := mapGet_set_ne _ _ _ h

@[simp] theorem ctrl_setCtrl_same (s : State) (f : Nat) (c : Ctrl) : (s.setCtrl f c).ctrl f = c := mapGet_set_same ..
theorem ctrl_setCtrl_ne (s : State) (f : Nat) (c : Ctrl) {j : Nat} (h : j ≠ f) : (s.setCtrl f c).ctrl j = s.ctrl j := mapGet_set_ne _ _ _ h

@[simp] theorem conn_setConn_same (s : State) (k : Nat) (c : Conn) : (s.setConn k c).conn k = c := mapGet_set_same ..
theorem conn_setConn_ne (s : State) (k : Nat) (c : Conn) {j : Nat} (h : j ≠ k) : (s.setConn k c).conn j = s.conn j := mapGet_set_ne _ _ _ h

@[simp] theorem sa_setSa_same (s : State) (k : Nat) (v : SaRec) : (s.setSa k v).sa k = v := mapGet_set_same ..
theorem sa_setSa_ne (s : State) (k : Nat) (v : SaRec) {j : Nat} (h : j ≠ k) : (s.setSa k v).sa j = s.sa j := mapGet_set_ne _ _ _ h

@[simp] theorem sink_setSink_same (s : State) (k : Nat) (v : Sink) : (s.setSink k v).sink k = v := mapGet_set_same ..
theorem sink_setSink_ne (s : State) (k : Nat) (v : Sink) {j : Nat} (h : j ≠ k) : (s.setSink k v).sink j = s.sink j := mapGet_set_ne _ _ _ h

@[simp] theorem doeBox_setDoe_same (s : State) (f : Nat) (d : Doe) : (s.setDoe f d).doeBox f = d := mapGet_set_same ..
theorem doeBox_setDoe_ne (s : State) (f : Nat) (d : Doe) {j : Nat} (h : j ≠ f) : (s.setDoe f d).doeBox j = s.doeBox j := mapGet_set_ne _ _ _ h

end Sys2Proof.Machine
end

