-- ==== Sys2Proof/Laws/Boot.lean ====
section
/-!
SUPPORT. Laws/Boot.lean: reading the slot ledger leaves the boot unit and HBM as they are, and what the ledger says depends on the
boot unit alone.
-/
namespace Sys2Proof.Machine
open Sys2Proof

theorem raise_boot (s : State) (n f o c : Nat) : (s.raise n f o c).boot = s.boot := by
  unfold State.raise; dsimp only; split <;> rfl

theorem raise_hbm (s : State) (n f o c : Nat) : (s.raise n f o c).hbm = s.hbm := by
  unfold State.raise; dsimp only; split <;> rfl

theorem ledgerFind_boot (s : State) : s.ledgerFind.boot = s.boot := by
  have h : ∀ (u : State) (i : Nat), (u.if_ (!ledgerGood (u.ledgerCopy i)) (fun s =>
      (s.bump R.BOOT_LEDGER_BAD_CNT).raise 0x7C6 noFunc i (ledgerSeq (s.ledgerCopy i) % 65536))).boot = u.boot := by
    intro u i; unfold State.if_; split
    · rw [raise_boot, boot_bump]
    · rfl
  have hs : ∀ u : State, u.ledgerShown.boot = u.boot := by
    intro u; unfold State.ledgerShown; dsimp only; exact boot_wr _ _ _
  unfold State.ledgerFind State.each
  rw [hs]
  simp only [List.foldl_cons, List.foldl_nil]
  rw [h, h]

theorem ledgerFind_hbm (s : State) : s.ledgerFind.hbm = s.hbm := by
  have h : ∀ (u : State) (i : Nat), (u.if_ (!ledgerGood (u.ledgerCopy i)) (fun s =>
      (s.bump R.BOOT_LEDGER_BAD_CNT).raise 0x7C6 noFunc i (ledgerSeq (s.ledgerCopy i) % 65536))).hbm = u.hbm := by
    intro u i; unfold State.if_; split
    · rw [raise_hbm, hbm_bump]
    · rfl
  have hs : ∀ u : State, u.ledgerShown.hbm = u.hbm := by
    intro u; unfold State.ledgerShown; dsimp only; exact hbm_wr _ _ _
  unfold State.ledgerFind State.each
  rw [hs]
  simp only [List.foldl_cons, List.foldl_nil]
  rw [h, h]

theorem ledger_of_boot {s t : State} (h : t.boot = s.boot) : t.ledger = s.ledger := by
  have hc : t.ledgerCopy = s.ledgerCopy := by funext i; simp only [State.ledgerCopy, State.flashRead, h]
  have hn : t.ledgerNow = s.ledgerNow := by unfold State.ledgerNow; rw [hc]
  unfold State.ledger; rw [hn, hc]

theorem runningCandidate_of_boot {s t : State} (h : t.boot = s.boot) : t.runningCandidate = s.runningCandidate := by
  unfold State.runningCandidate; rw [ledger_of_boot h, h]

theorem freshCandidate_of_boot {s t : State} (h : t.boot = s.boot) : t.freshCandidate = s.freshCandidate := by
  simp only [State.freshCandidate, ledger_of_boot h]

/-- The first copy is current where it alone passes (R451). -/
theorem ledger_first {s : State} (h0 : ledgerGood (s.ledgerCopy 0) = true) (h1 : ledgerGood (s.ledgerCopy 1) = false) :
    s.ledger = s.ledgerCopy 0 := by
  simp only [State.ledger, State.ledgerNow, h0, h1]

/-- The bytes of a staged image are HBM's. -/
theorem imgBytes_of_hbm {s t : State} (h : t.hbm = s.hbm) (off n : Nat) : t.imgBytes 3 off n = s.imgBytes 3 off n := by
  simp [State.imgBytes, State.hbmRead, h]

/-- The check of a staged image depends on HBM and the fuses. -/
theorem imageCheck_of {s t : State} (h : t.hbm = s.hbm) (hb : t.boot.fuse = s.boot.fuse) : t.imageCheck 3 = s.imageCheck 3 := by
  have hi : t.imgBytes 3 = s.imgBytes 3 := by funext o n; exact imgBytes_of_hbm h o n
  have hf : t.imgField 3 = s.imgField 3 := by funext o l; simp only [State.imgField, hi]
  have hl : t.segLen 3 = s.segLen 3 := by funext n; simp only [State.segLen, hf]
  have hk : t.segOk 3 = s.segOk 3 := by funext g n; simp only [State.segOk, hl, hf]
  have hg : t.imgSegs 3 = s.imgSegs 3 := congrFun (congrFun hf 6) 2
  have hh : t.headerOk 3 = s.headerOk 3 := by
    unfold State.headerOk
    simp only [hi, hf, hl, hk, hg]
  have hb' : t.segBytes 3 = s.segBytes 3 := by funext n; simp only [State.segBytes, hl, hi]
  have hc : t.crcsOk 3 = s.crcsOk 3 := by
    unfold State.crcsOk
    simp only [hf, hg, hb']
  have hn : t.findings 3 = s.findings 3 := by
    have h1 : t.imgKey 3 = s.imgKey 3 := congrFun (congrFun hf 14) 1
    have h2 : t.imgSvn 3 = s.imgSvn 3 := congrFun (congrFun hf 16) 4
    unfold State.findings State.signedBytes
    simp only [hi, hf, hg, h1, h2, hb]
  have he : t.enforced = s.enforced := by simp only [State.enforced, hb]
  unfold State.imageCheck
  simp only [hh, hc, hn, he]

end Sys2Proof.Machine
end

