-- ==== Sys2Proof/Laws/Eng.lean ====
section
/-!
SUPPORT. Laws/Eng.lean: what one issue of an instruction comes to, and what the counting of an issue leaves alone.
-/
namespace Sys2Proof.Machine
open Sys2Proof

/-- An instruction that issues with good parity does its own work, ends as its work says, and takes its cycle. -/
theorem issue_runs {s : State} {e t : Nat} {w : Word} {m : EngMem} (h : s.issues e t w = true) (hm : m ≠ .parity)
    (is : Word → Bool) (hi : is w = true) (body : State → Word → State × IEnd) : s.issue e t m is body =
    ((s.counted e t).ends e t (s.thr e t).pc.toNat (body (s.counted e t) w)).endCycle e := by
  simp only [State.issues, Bool.and_eq_true, beq_iff_eq, decide_eq_true_eq] at h
  obtain ⟨⟨⟨⟨h1, h2⟩, h3⟩, h4⟩, h5⟩ := h
  simp [State.issue, h1, h2, h3, h4, h5, hi, hm, State.counted]

/-- A parity failure of the word fetched is a fault of code 6, whatever the word is (R195). -/
theorem issue_parity {s : State} {e t : Nat} {w : Word} (h : s.issues e t w = true) (is : Word → Bool)
    (body : State → Word → State × IEnd) : s.issue e t .parity is body =
    ((s.counted e t).threadFault e t 6 (s.thr e t).pc.toNat).endCycle e := by
  simp only [State.issues, Bool.and_eq_true, beq_iff_eq, decide_eq_true_eq] at h
  obtain ⟨⟨⟨⟨h1, h2⟩, _⟩, _⟩, _⟩ := h
  simp [State.issue, h1, h2, State.counted]

/-- The parts of `State.ends`, one for each way an instruction ends. -/
theorem ends_next (c s : State) (e t : Nat) {pc : Nat} (h : pc ≠ 16383) :
    c.ends e t pc (s, .next) = s.setPc e t (pc + 1) := by simp [State.ends, h, State.setPc]

theorem ends_done (c s : State) (e t : Nat) {pc : Nat} (h : pc ≠ 16383) : c.ends e t pc (s, .done) = s := by
  simp [State.ends, h]

theorem ends_jump (c s : State) (e t pc goal : Nat) : c.ends e t pc (s, .jump goal) = s.setPc e t goal := rfl

theorem ends_fault (c s : State) (e t pc code detail : Nat) :
    c.ends e t pc (s, .fault code detail) = c.threadFault e t code detail := rfl

theorem ends_block (c s : State) (e t : Nat) {pc : Nat} (h : pc ≠ 16383) (st : ThrSt) (ch : Nat) (why : Await) :
    c.ends e t pc (s, .block st ch why) =
      s.updThr e t (fun x => { x with st := st, blockedCh := ch, blockedSince := c.now, awaits := why }) := by
  simp [State.ends, h]

@[simp] theorem reg_counted (s : State) (e t e' t' r : Nat) : (s.counted e t).reg e' t' r = s.reg e' t' r := rfl

@[simp] theorem dmem_counted (s : State) (e t e' a n : Nat) : (s.counted e t).dmem e' a n = s.dmem e' a n := rfl

@[simp] theorem bad_counted (s : State) (e t e' a n : Nat) : (s.counted e t).dmemBad e' a n = s.dmemBad e' a n := rfl

@[simp] theorem thr_counted (s : State) (e t e' a : Nat) : (s.counted e t).thr e' a = s.thr e' a := rfl

@[simp] theorem chan_counted (s : State) (e t e' c : Nat) : (s.counted e t).chan e' c = s.chan e' c := rfl

@[simp] theorem imem_counted (s : State) (e t e' pc : Nat) : (s.counted e t).imem e' pc = s.imem e' pc := rfl

@[simp] theorem orphans_counted (s : State) (e t e' : Nat) : (s.counted e t).orphans e' = s.orphans e' := rfl

@[simp] theorem now_counted (s : State) (e t : Nat) : (s.counted e t).now = s.now := rfl

@[simp] theorem hbm_counted (s : State) (e t a n : Nat) : (s.counted e t).hbmRead a n = s.hbmRead a n := rfl

/-- A write of another register leaves a register as it was. -/
theorem rd_wr_ne (s : State) {a b : Nat} (v : DWord) (h : b ≠ a) : (s.wr a v).rd b = s.rd b := mapGet_set_ne resetVal s.regs v h

@[simp] theorem rd_wr_same (s : State) (a : Nat) (v : DWord) : (s.wr a v).rd a = v := mapGet_set_same resetVal s.regs a v

theorem rd_bump_ne (s : State) {a b : Nat} (h : b ≠ a) : (s.bump a).rd b = s.rd b := rd_wr_ne s _ h

/-- Counting an issue leaves every register of an engine but the two counts alone. -/
theorem rd_counted (s : State) {e t a : Nat} (h1 : a ≠ R.ENG_ISSUE_CNT e) (h2 : a ≠ R.ENG_THR_INSTR_CNT e t) :
    (s.counted e t).rd a = s.rd a := by
  rw [State.counted, rd_bump_ne _ h2, rd_bump_ne _ h1]

@[simp] theorem bind_counted (s : State) (e d : Nat) (t : Fin 8) (c : Nat) (hc : c < 32) :
    (s.counted e t.val).bind d c = s.bind d c := by
  apply rd_counted <;> simp only [R.ENG_CH_BIND, R.ENG_ISSUE_CNT, R.ENG_THR_INSTR_CNT] <;> omega

@[simp] theorem bindValid_counted (s : State) (e d : Nat) (t : Fin 8) (c : Nat) (hc : c < 32) :
    (s.counted e t.val).bindValid d c = s.bindValid d c := by simp [State.bindValid, hc]

@[simp] theorem bindReader_counted (s : State) (e d : Nat) (t : Fin 8) (c : Nat) (hc : c < 32) :
    (s.counted e t.val).bindReader d c = s.bindReader d c := by simp [State.bindReader, hc]

@[simp] theorem admitsThread_counted (s : State) (e f d : Nat) (t : Fin 8) (c : Nat) (hc : c < 32) :
    (s.counted e t.val).admitsThread f d c = s.admitsThread f d c := by
  simp [State.admitsThread, State.bindScope, State.bindValid, hc]

end Sys2Proof.Machine
end

