-- ==== Sys2Proof/Laws/Gcs.lean ====
section
/-!
SUPPORT. Laws/Gcs.lean: what running a command of the Gleost Command Set comes to, and when a BAR or page access reaches the
device.
-/
namespace Sys2Proof.Machine
open Sys2Proof

/-- What a command's run leaves: `s'` is the state its work left, `s` the one before it (R282). -/
def State.closed (s s' : State) (ch : BitVec 13) (seq : BitVec 4) (c : OpenCmd) : Reply → State
  | .wait => s'.markWaiting ch.toNat seq
  | .done st res out =>
    if outSpace ch.toNat c < out.length then s.answer ch.toNat c 0x3080 out.length []
    else s'.answer ch.toNat c st res out

@[simp] theorem closed_wait (s s' : State) (ch : BitVec 13) (seq : BitVec 4) (c : OpenCmd) :
    s.closed s' ch seq c .wait = s'.markWaiting ch.toNat seq := rfl

/-- An answer without output always has room. -/
@[simp] theorem closed_done_nil (s s' : State) (ch : BitVec 13) (seq : BitVec 4) (c : OpenCmd) (st : Status) (res : Nat) :
    s.closed s' ch seq c (.done st res []) = s'.answered ch c st res := by
  simp [State.closed, State.answered]

theorem closed_out (s s' : State) (ch : BitVec 13) (seq : BitVec 4) (c : OpenCmd) (out : Bytes)
    (h : out.length ≤ outSpace ch.toNat c) : s.closed s' ch seq c (.out out) = s'.answeredOut ch c out := by
  simp [State.closed, Reply.out, State.answeredOut, Nat.not_lt.mpr h]

@[simp] theorem closed_ok (s s' : State) (ch : BitVec 13) (seq : BitVec 4) (c : OpenCmd) (res : Nat) :
    s.closed s' ch seq c (.ok res) = s'.answered ch c 0 res := closed_done_nil ..

@[simp] theorem closed_no (s s' : State) (ch : BitVec 13) (seq : BitVec 4) (c : OpenCmd) (st : Status) :
    s.closed s' ch seq c (.no st) = s'.answered ch c st 0 := closed_done_nil ..

/-- A command that can run now runs its work, and ends as its work's reply says; `pick` must choose it. -/
theorem gcsPick_ready {s : State} {ch : BitVec 13} {seq : BitVec 4} {code : Nat} {c : OpenCmd}
    (h : s.ready ch seq code c = true) {pick : OpenCmd → Bool} (hp : pick c = true)
    (body : State → OpenCmd → State × Reply) :
    s.gcsPick ch seq code pick body = s.closed (body s c).1 ch seq c (body s c).2 := by
  unfold State.ready at h
  unfold State.gcsPick
  split at h
  · rename_i b d hd
    simp only [Bool.and_eq_true, decide_eq_true_eq] at h
    obtain ⟨⟨rfl, h2⟩, h3⟩ := h
    simp only [hd, h2, h3, hp, Bool.not_true, Bool.or_self, Bool.false_eq_true, if_false]
    cases hr : body s d with
    | mk s' r => cases r <;> rfl
  · simp at h

theorem gcs_ready {s : State} {ch : BitVec 13} {seq : BitVec 4} {code : Nat} {c : OpenCmd}
    (h : s.ready ch seq code c = true) (body : State → OpenCmd → State × Reply) :
    s.gcs ch seq code body = s.closed (body s c).1 ch seq c (body s c).2 := gcsPick_ready h rfl body

theorem tagLimit_pos (s : State) (k : Nat) : 0 < s.tagLimit k := by
  simp only [State.tagLimit, Nat.lt_min]
  exact ⟨by cases bit s.hiu.hostSplit (k / 2) <;> decide, Nat.two_pow_pos _⟩

/-- A function that nothing stops can read while its device has no request outstanding and no tag held (R228). -/
theorem canRead_idle {s : State} {f : Nat} (h : s.hostStop f = none) (ht : s.hiu.tags = []) : s.canRead f = true := by
  have hl := tagLimit_pos s (s.fnLink f)
  simp [State.canRead, State.freeTag, pickFree, firstFree, h, ht, Nat.mod_lt _ hl]

/-- A TLP of a link with no Insecure stream does what it does. -/
theorem tlp_secure {s : State} {k : Nat} (h : s.insecure k = false) (g : State → State) : s.tlp k g = g s := by
  simp [State.tlp, h]

/-- A write that reaches a BAR does what it does there. -/
theorem barWrite_open {s : State} {f : Nat} (h : s.barOpen f = true) (g : State → State) : s.barWrite f g = g s := by
  simp only [State.barOpen, Bool.and_eq_true, Bool.not_eq_true'] at h
  obtain ⟨⟨⟨⟨h1, h2⟩, h3⟩, h4⟩, h5⟩ := h
  simp [State.barWrite, h1, h2, h3, h4, tlp_secure h5]

theorem barRead_open {s : State} {f : Nat} (h : s.barOpen f = true) (g : State → State) : s.barRead f g = g s := by
  simp only [State.barOpen, Bool.and_eq_true, Bool.not_eq_true'] at h
  obtain ⟨⟨⟨⟨h1, h2⟩, h3⟩, h4⟩, h5⟩ := h
  simp [State.barRead, h1, h2, h3, h4, tlp_secure h5]

/-- A write that reaches a Kite line page does what it does there. -/
theorem pageWrite_open {s : State} {ch : Nat} (h : s.pageOpen ch = true) (g : State → State) : s.pageWrite ch g = g s := by
  unfold State.pageWrite
  split
  · rename_i hf
    exact barWrite_open (by simpa [State.pageOpen, hf] using h) g
  · rfl

/-- An operation that runs does its own work. -/
theorem runOp_runs {s : State} {r no op : Nat} {host : Bool} {o : RingOp} (h : s.opRuns r no op host o = true)
    (body : State → Ring → RingOp → State) : s.runOp r no op host body = body s (s.ring r) o := by
  simp only [State.opRuns, Bool.and_eq_true, decide_eq_true_eq, Bool.or_eq_true, Bool.not_eq_true'] at h
  obtain ⟨⟨h1, h2⟩, h3⟩ := h
  simp only [Option.isNone_iff_eq_none] at h2 h3
  cases host <;> simp_all [State.runOp]

/-- A storage command that stands in its slot and has not begun does its own work. -/
theorem nvRun_runs {s : State} {slot op : Nat} {io : Bool} {c : NCmd} (h : s.nvRuns slot io op c = true)
    (g : State → NCmd → State) : s.nvRun slot io op g = g s c := by
  simp only [State.nvRuns, Bool.and_eq_true, decide_eq_true_eq] at h
  obtain ⟨⟨⟨h1, h2⟩, h3⟩, h4⟩ := h
  simp only [State.nvRun, h1]
  simp_all

end Sys2Proof.Machine
end

