-- ==== Sys2Proof/WellFormed.lean ====
section
/-!
DEFINITION. WellFormed.lean: which commands are well formed: the operands that the types alone do not bound, each held to what
the outside can send. The meanings are total: they answer a next state on every command, well formed or not.
-/
namespace Sys2Proof
open Sys2Proof.Machine

/-- A 32-bit or 64-bit access at an aligned offset (R12). -/
def alignedAt (a : BitVec 24) (wide : Bool) : Bool := a.toNat % cond wide 8 4 == 0

/-- Offsets written through a function control page lie within its 64 KiB or 16 KiB (Tables 10-3, 10-4), and through a Kite
line page within its 4 KiB (R268). -/
def pageOffset (w : Writer) (a : BitVec 24) : Bool := match w with
  | .driver f => decide (a.toNat < if f.val < 8 then 65536 else 16384)
  | .party ch => decide (a.toNat < 4096) && decide (ch.toNat < 0x1121)
  | .firmware => true
  | .tether => true
  | .other => true

/-- A read that failed has brought no data (Table 10-5). -/
def dataOnlyIfOk (cpl : CplStatus) (data : Bytes) : Bool := cpl == .ok || data.isEmpty

/-- The same of a read that ends within its command. -/
def dataOnlyIfRead (e : ReadEnd) (data : Bytes) : Bool := e == .cpl .ok || data.isEmpty

/-- A read whose end takes no stream and no link with it. -/
def endsAlone : ReadEnd → Bool
  | .cpl _ | .timeout => true
  | .ide _ | .linkDown => false

/-- No element stands twice. -/
def noRepeats {α : Type} [BEq α] : List α → Bool
  | [] => true
  | a :: r => !r.contains a && noRepeats r

/-- At most the pointers of a PRP list or the descriptors of an SGL of the largest transfer, in pages of 4 KiB. -/
def descriptors (ptrs : List (BitVec 128)) : Bool := decide (ptrs.length ≤ 513)

/-- Whether a command is well formed. -/
def Instr.wf : Instr → Bool
  | .unalignedAccess _ write a len db =>
    !((len == 8 || (len == 4 && !db)) && (write || !db) && a.toNat % len == 0)
  | .rtePacketReceive mem e => endsAlone e && dataOnlyIfRead e mem
  | .contextFetchComplete _ _ mems => mems.all (fun m => endsAlone m.1 && dataOnlyIfRead m.1 m.2)
  | .descriptorFetch _ descs e => e == .cpl .ok || descs.length == 1
  | .rcRead a wide => alignedAt a wide
  | .registerWrite w a wide v => alignedAt a wide && (wide || decide (v.toNat < 4294967296)) && pageOffset w a
  | .msixUnmask _ v addr data masked => v.isSome || (addr == 0 && data == 0 && !masked)
  | .msiUnmask f _ => decide (f.val < 8)
  | .carriagewayPass _ _ bad => noRepeats bad && decide (bad.length ≤ 24)
  | .lineFrameReceive _ frame ok _ => !frame.isEmpty || !ok
  | .mgmtFrameReceive frame ok => !frame.isEmpty || !ok
  | .bundleLoad _ _ e data => dataOnlyIfRead e data
  | .completionReceive _ _ _ cpl data => dataOnlyIfOk cpl data && decide (data.length ≤ 4096)
  | .fctlIntxStatus f _ => decide (f.val < 8)
  | .peerRequest _ write off len data poison => decide (1 ≤ len) && decide (len ≤ 4096) && decide (off + len ≤ 8388608) && (data.length == cond write len 0) && !(write && poison)
  | .atsInvalidate _ _ _ page count _ => decide (1 ≤ count) && decide (page.toNat + count ≤ 4503599627370496)
  | .doeObject f object => decide (f.val < 8) && decide (2 ≤ object.length)
  | .doeAbort f => decide (f.val < 8)
  | .hostLinkUp _ speed width _ tagBits => decide (1 ≤ speed.toNat) && decide (speed.toNat ≤ 6) && decide (width.toNat ∈ [1, 2, 4, 8, 16]) && decide (tagBits ∈ [5, 8, 10, 14])
  | .commandBlockRead _ _ cpl data => dataOnlyIfOk cpl data && decide (data.length ≤ 65536)
  | .sidebandRequest word block _ => (fld word 48 4 == 0) && decide (block.length ≤ 1024)
  | .ringAbort _ _ tags => decide (tags.length ≤ 65536)
  | .getLogPage _ ptrs e => descriptors ptrs && (!ptrs.isEmpty || e == .cpl .ok)
  | .identify _ ptrs e => descriptors ptrs && (!ptrs.isEmpty || e == .cpl .ok)
  | .nvmeWrite _ ptrs e data => descriptors ptrs && dataOnlyIfRead e data && decide (data.length ≤ 2097152)
  | .nvmeRead _ ptrs e => descriptors ptrs && (!ptrs.isEmpty || e == .cpl .ok)
  | .datasetManagement _ ptrs e data => descriptors ptrs && dataOnlyIfRead e data && decide (data.length ≤ 4096)
  | .backendCompletion _ _ status data => status == 0 || data.isEmpty
  | .backendUp _ status mdts block unit bounds _ => status != 0 || (decide (1 ≤ block) && decide (1 ≤ unit) && bounds.all (fun b => decide (1 ≤ b)) && decide (1 ≤ mdts))
  | .clockMeasure counts => counts.length == 6
  | .wordCrossingDeliver src dst _ => src != dst
  | .selfTest res => noRepeats res.engines && noRepeats res.insts && noRepeats res.cores && res.faults.all (fun f => decide (1 ≤ f.kind) && decide (f.kind ≤ 15))
  | .tempSample temps _ => temps.length == 19
  | .supplySample mv ma => (mv.length == 8) && (ma.length == 8)
  | .setEndpointId msg => !msg.isEmpty && decide (msg.length ≤ 4096)
  | .getEndpointId msg => !msg.isEmpty && decide (msg.length ≤ 4096)
  | .getMctpVersionSupport msg => !msg.isEmpty && decide (msg.length ≤ 4096)
  | .getMessageTypeSupport msg => !msg.isEmpty && decide (msg.length ≤ 4096)
  | .getVendorDefinedMessageSupport msg => !msg.isEmpty && decide (msg.length ≤ 4096)
  | .getDigests msg => !msg.isEmpty && decide (msg.length ≤ 4096)
  | .getCertificate msg => !msg.isEmpty && decide (msg.length ≤ 4096)
  | .challenge msg => !msg.isEmpty && decide (msg.length ≤ 4096)
  | .getMeasurements msg => !msg.isEmpty && decide (msg.length ≤ 4096)
  | .keyExchange msg => !msg.isEmpty && decide (msg.length ≤ 4096)
  | .finish msg => !msg.isEmpty && decide (msg.length ≤ 4096)
  | .heartbeat msg => !msg.isEmpty && decide (msg.length ≤ 4096)
  | .keyUpdate msg => !msg.isEmpty && decide (msg.length ≤ 4096)
  | .endSession msg => !msg.isEmpty && decide (msg.length ≤ 4096)
  | .chunkSend msg => !msg.isEmpty && decide (msg.length ≤ 4096)
  | .chunkGet msg => !msg.isEmpty && decide (msg.length ≤ 4096)
  | .numericSensorRead msg => !msg.isEmpty && decide (msg.length ≤ 4096)
  | .requestFirmwareData off data => decide (off.toNat + data.length ≤ 67108864)
  | .extest sampled shifted => sampled.length == shifted.length
  | .samplePreload sampled shifted => sampled.length == shifted.length
  | .recorderSample _ _ _ _ _ issue => decide (issue ≤ 1024)
  | .powerUp rails => decide (rails < 256)
  | .powerDown rails => decide (rails < 256)
  | .hostRegisterWriteDiscard .. | .eventCrossingDeliver .. | .fwEventTake | .tetherEventTake | .evtRouteSet ..
  | .packetParse .. | .reparse | .laneHoldRelease .. | .followWaitExpire .. | .followAgeExpire .. | .laneMapSet ..
  | .parseCfg .. | .tcamCommit .. | .rulesetLoad .. | .rulesetCommit .. | .rulesetDiscard .. | .learnApply ..
  | .stationCopyApply .. | .ageTick | .sweeperVisit .. | .taReadKey .. | .taReadIndex .. | .taDump .. | .taWrite ..
  | .taDelete .. | .shadowWindowOpen | .shadowWindowEnd | .shadowPass .. | .tieBreakReplay .. | .substitution
  | .shoulderForce .. | .shoulderCfg .. | .tmAdmit | .tmSend .. | .shaperRefill | .timeGateEntry ..
  | .timeGateSwitch .. | .tmIndRead .. | .tmIndWrite .. | .tmRead .. | .tmWrite .. | .tmDrain .. | .tmDrainDone ..
  | .tmFlush .. | .tgLoad .. | .tgSwitch .. | .poolSet .. | .pauseExpire .. | .pfcRefresh .. | .alignmentLoss ..
  | .linkDown .. | .trainingComplete .. | .trainingTimeout .. | .linkUp .. | .alignTimeout .. | .fecDegraded ..
  | .mgmtLink .. | .portOption .. | .portCfg .. | .pfcThresh .. | .mgmtCfg .. | .timeIncrWrite .. | .timeSlew ..
  | .timeSetStep .. | .timeOffsetStep .. | .ppsOut | .ppsIn | .lineRefLost | .hostRefLost .. | .junctionDeliver
  | .classDispatch .. | .channelRebind .. | .engStall .. | .requestReply .. | .engRun .. | .threadRestart ..
  | .engMap .. | .classCfg .. | .thrAdd .. | .thrSub .. | .thrAnd .. | .thrOr .. | .thrXor .. | .thrSll ..
  | .thrSrl .. | .thrSra .. | .thrSlt .. | .thrSltu .. | .thrMul .. | .thrMulhu .. | .thrMin .. | .thrMax ..
  | .thrMinu .. | .thrMaxu .. | .thrSlli .. | .thrSrli .. | .thrSrai .. | .thrPopc .. | .thrClz .. | .thrCtz ..
  | .thrBswap64 .. | .thrBswap32 .. | .thrBswap16 .. | .thrAddi .. | .thrAndi .. | .thrOri .. | .thrXori ..
  | .thrSlti .. | .thrMovi .. | .thrMovk .. | .thrBfx .. | .thrBfxs .. | .thrBfi .. | .thrCrc32c8 ..
  | .thrCrc32c16 .. | .thrCrc32c32 .. | .thrCrc32c64 .. | .thrCrc32e8 .. | .thrCrc32e16 .. | .thrCrc32e32 ..
  | .thrCrc32e64 .. | .thrFold16 .. | .thrMix16 .. | .thrAadd .. | .thrAand .. | .thrAor .. | .thrAxor ..
  | .thrAswap .. | .thrAminu .. | .thrAmaxu .. | .thrAcas .. | .thrLdb .. | .thrLdh .. | .thrLdw .. | .thrLdd ..
  | .thrStb .. | .thrSth .. | .thrStw .. | .thrStd .. | .thrBeq .. | .thrBne .. | .thrBlt .. | .thrBge ..
  | .thrBltu .. | .thrBgeu .. | .thrJal .. | .thrJalr .. | .thrChrd .. | .thrChrdnb .. | .thrOrphrd .. | .thrChlvl ..
  | .thrChst .. | .thrChcmt .. | .thrChabort .. | .thrSprd .. | .thrSpwr .. | .thrPkttm .. | .thrPktcw ..
  | .thrPktdrop .. | .thrPktnew .. | .thrPktrd .. | .thrPktwr .. | .thrHbmrd .. | .thrHbmwr .. | .thrLkup ..
  | .thrWait .. | .thrNop .. | .thrEnd .. | .thrFence .. | .thrTstat .. | .thrTime .. | .thrSelf ..
  | .configRequest .. | .cfgReadySet .. | .barUnusedAccess .. | .completionTimeout .. | .tagRelease .. | .bmeClear ..
  | .bmeSet .. | .flrInitiate .. | .flrQuietPoint .. | .flrDone .. | .windowCommit .. | .windowDrained
  | .peerWindow .. | .peerRegionSet .. | .ideFault .. | .l0pRequest .. | .aspmL1Entry .. | .aspmL1Exit ..
  | .perstAssert .. | .perstRelease .. | .hostLinkDown .. | .linkCfg .. | .d3hotEntry .. | .d0Return ..
  | .pmeTurnOff .. | .instCreate .. | .instEnable .. | .instQuiesce .. | .quiesceTimeout .. | .quiesceComplete ..
  | .instResume .. | .instReset .. | .instRemove .. | .scrubComplete .. | .setTotalvfs .. | .tableGrant ..
  | .instInfo .. | .fnmIndRead .. | .fnmIndWrite .. | .klCmdStage .. | .klCmdPost .. | .klTake .. | .klCmdTimeout ..
  | .klWithdraw .. | .klRspPost .. | .klRspTake .. | .klRspTimeout .. | .ping .. | .fwStatus .. | .regRead ..
  | .regReadBlock .. | .klRead .. | .fwRestart | .fwReady | .maintenanceEnter .. | .maintenanceEnd
  | .maintenanceOverrun .. | .doorbell .. | .indexReadComplete .. | .coalesceTimeout ..
  | .nopDescriptor .. | .send .. | .sendPacked .. | .buf .. | .rxDeliver .. | .rxNobufTimeout .. | .ringCreate ..
  | .ringDestroy .. | .ringDestroyDone .. | .ringRestart .. | .levRingBind .. | .ringIndRead .. | .ringIndWrite ..
  | .qpCreate .. | .qpModify .. | .qpDestroy .. | .rdmaSend .. | .rdmaSendImm .. | .rdmaWrite .. | .rdmaWriteImm ..
  | .rdmaRead .. | .cmpSwap .. | .fetchAdd .. | .regMr .. | .invalMr .. | .ackTimer ..
  | .retransmitTimeout .. | .pathResume .. | .rnrWaitExpire .. | .rateIncrease .. | .trackerAged ..
  | .laybyTimeout .. | .rteIndRead .. | .ccEnable .. | .ccDisable .. | .shutdownNotify ..
  | .shutdownComplete .. | .nvmeDoorbell .. | .nvmeCommandFetch .. | .createIoSq .. | .deleteIoSq .. | .createIoCq ..
  | .deleteIoCq .. | .nvmeAbort .. | .setFeatures .. | .setFeaturesPowerManagement .. | .getFeatures ..
  | .asyncEventRequest .. | .nvmeFlush .. | .writeZeroes .. | .backendDown .. | .reconnectTimer ..
  | .ctrlLossTimeout .. | .ioTimeout .. | .scePacketReceive .. | .nvmeCtrlCfg .. | .nvmeNsAttach ..
  | .backendConnect .. | .sceIndRead .. | .saAdd .. | .saDelete .. | .saDeleteDone .. | .macsecTxSwitch ..
  | .coreFault .. | .deflateCompress .. | .deflateDecompress .. | .zstdCompress .. | .zstdDecompress .. | .crc32c ..
  | .crc32Ieee .. | .ciphIndRead .. | .stageComplete .. | .scrubRead .. | .pbufScrub .. | .pllLock ..
  | .pllLockTimeout | .pllUnlock | .warmReset | .clkrstResetReq .. | .warmRelease | .coldReset | .coldRelease ..
  | .blockReset .. | .blockResetRelease .. | .counterCrossingDeliver .. | .tripRecovery | .supplyTrip ..
  | .tetherRestart | .watchdogPing | .fwHang | .startWatchdogExpire | .trialTick | .trialExpired | .fieldMapWrite
  | .blockHang .. | .blockHangRelease .. | .trailheadStart .. | .pushWaitExpire | .controlComplexRestart ..
  | .coreRelease .. | .measurementExtend .. | .imageWrite .. | .imageCommit .. | .imageConfirm .. | .fwActivate ..
  | .ledgerRead .. | .measureRead .. | .verifyComplete | .applyComplete | .activateFirmware | .cwSelect ..
  | .rwCursor .. | .counterGrant .. | .traceLevelSet .. | .sinkConfigure .. | .sinkDisable .. | .tracePageClose ..
  | .counterSample .. | .idcode | .clamp | .highz | .bypass | .checkpoint .. | .recordWrite .. | .hourEnd
  | .recorderClear .. | .tableCfg .. | .alignmentRegained .. | .slewComplete | .lineRefReturn | .hostRefReturn ..
  | .eventCrossingAcknowledge .. | .ctrlFatal .. | .tcpRetransmitTimeout .. | .imageCommitted .. => true

end Sys2Proof
end

