-- ==== Sys2Proof/Tests/Slice0.lean ====
section
/-!
SUPPORT. Tests/Slice0.lean: the smoke tests of the well-formedness checks, small tests of single steps against values worked
out from the spec, and for each statement with hypotheses a state and operands that meet them.
-/
namespace Sys2Proof.Tests
open Sys2Proof Sys2Proof.Machine

set_option Elab.async false

/-- PF 0 on link 0, up, with memory space on and Bus Master Enable set. -/
def upState : State :=
  ({ State.reset with hiu := { State.reset.hiu with pfMap := 0x8 } }.setLink 0
    { HLink.reset with st := .l0, dlUp := true, speed := 5, width := 16 }).updFn 0 (fun h => { h with mse := true, bme := true })

/-- The same with the firmware running and the die in RUNNING. -/
def runState : State :=
  { upState with kite := { upState.kite with fw := .running }, clk := { upState.clk with dev := .running } }

/-- An open command that has begun, its block read. -/
def openCmd (code seq : Nat) (arg : Nat) (block : Option Bytes) : OpenCmd :=
  { seq := BitVec.ofNat 4 seq, code := BitVec.ofNat 8 code, version := 2, arg := BitVec.ofNat 48 arg, order := 0, begun := true
    head := none, got := [], block := block, outAddr := 0x1000, outLen := 4096, barrier := false, waiting := false, verdict := none, discard := false }

/-- A state in which channel `ch` holds one command open. -/
def withCmd (s : State) (ch code arg : Nat) (block : Option Bytes) : State := s.setOpened ch [openCmd code 3 arg block]

/-- A packet of no bytes with the Signpost of a reset pass. -/
def pktOf (n : Nat) : Pkt := ⟨0, List.replicate n 0, spReset, 0x1FFF, 0, 0, none, none, false, none, 0, none, 0⟩

/-- A fetched operation with nothing done yet. -/
def opOf (no : Nat) (desc : BitVec 512) : RingOp := RingOp.fresh no desc

/-- Ring `r` of function 0 with one fetched operation. -/
def withOp (s : State) (r no : Nat) (desc : BitVec 512) : State :=
  s.setRing r { Ring.absent with st := .active, ops := [opOf no desc] }

/-- A table-access descriptor of 4,096 bytes at 0x1000: operation, table, mask, START, COUNT. -/
def taDesc (op t mask start count : Nat) : BitVec 512 :=
  BitVec.ofNat 512 (0x4000 + op + at' 4096 32 + at' 0x1000 64 + at' t 192 + at' mask 200 + at' start 224 + at' count 256)

/-- One packet waiting in a leaf queue of subscriber 0, whose service and port nodes lead to port node 9. -/
def sendable : State :=
  (upState.setTmNode (svcKey 0) { TmNode.reset 65536 with control := 0x10009 }).setLeafQ 0 [⟨pktOf 64, 0⟩]

theorem witness_StepRunsFrontCommand : { State.reset with pending := [.fwEventTake, .bypass] }.pending = .fwEventTake :: [.bypass] := by decide +kernel

theorem witness_IdleStepAdvancesTime :
    (State.reset.pending = [] ∧ bit State.reset.clk.running 5 = true ∧ State.reset.line.slew = 0) ∧
    (let s := { State.reset with clk := { State.reset.clk with running := 0 } }
     s.pending = [] ∧ bit s.clk.running 5 = false) := by decide +kernel

theorem witness_CrossingsDeliver :
    ((State.reset.raise 5 0 0 0).xing 5 = ⟨.requested, false, evDetail 0 0 0, 0⟩ ∧
    bit (State.reset.raise 5 0 0 0).clk.running 5 = true ∧
    (State.reset.setXing 5 ⟨.acked, true, 0, 0⟩).xing 5 = ⟨.acked, true, 0, 0⟩ ∧
    (State.reset.setXing 5 ⟨.acked, false, 0, 0⟩).xing 5 = ⟨.acked, false, 0, 0⟩) ∧
    ((State.reset.blockHeld 5 = false ∧ State.reset.clocked 5 = true) ∧
    (State.reset.wr R.CLKRST_BLOCK_RESET 0x20).blockHeld 5 = true ∧
    (let s := { State.reset with clk := { State.reset.clk with running := 0 } }
     s.blockHeld 5 = false ∧ s.clocked 5 = false)) := by decide +kernel

theorem witness_InterruptsAndEventQueues :
    upState.exists_ 0 = true ∧ (upState.barOpen 0 = true ∧ 3 < (upState.setInst 0 { Inst.absent with alloc := { Inst.absent.alloc with vectors := 4 } }).vectors 0) ∧
    (runState.kite.fw = .running ∧ (runState.toFw 7).evt.fwQueue = [7]) ∧
    (let s := (runState.wr R.TETHER_STATE 0x40000000).toTether 7
     s.rdf R.TETHER_STATE 29 3 = 2 ∧ s.evt.tetherQueue = [7] ∧ mapGet (fun _ => false) s.evt.routed 7 = true) ∧
    (let s := (runState.wr R.TETHER_STATE 0x40000000).fixedWire 0x780
     s.evt.tetherQueue = [0x780] ∧ mapGet (fun _ => false) s.evt.routed 0x780 = false) := by decide +kernel

theorem witness_KitePostAccepted :
    upState.pageOpen 0 = true ∧ State.reset.pageOpen 0x1100 = true ∧ (upState.page 0).cmd = none ∧
    bit (upState.page 0).seqOpen (fld (0x0013000000000000 : DWord) 48 4) = false ∧
    (0x0013000000000005 : DWord).toNat = (0x00130000 : Nat) % 4294967296 * 4294967296 + 5 ∧
    (upState.setPage 0 { Kite.reset with cmd := some 7 }).pageOpen 0 = true ∧
    ((upState.setPage 0 { Kite.reset with cmd := some 7 }).page 0).cmd ≠ none := by decide +kernel

theorem witness_KitePostRefused :
    (let s := upState.setPage 0 { Kite.reset with cmd := some 7 }
     s.pageOpen 0 = true ∧ (s.page 0).cmd ≠ none) ∧
    (let s := upState.setPage 0 { Kite.reset with seqOpen := 8 }
     s.pageOpen 0 = true ∧ (s.page 0).cmd = none ∧
     bit (s.page 0).seqOpen (fld (postedWord (s.page 0) 0x0013000000000000 false) 48 4) = true) := by decide +kernel

theorem witness_KiteWithdraw :
    (let s := upState.setPage 0 { Kite.reset with cmd := some 7 }
     s.pageOpen 0 = true ∧ (s.page 0).cmd ≠ none) ∧ upState.pageOpen 0 = true ∧ (upState.page 0).cmd = none ∧
    (let s := upState.setPage sbCh { Kite.reset with cmd := some 7 }
     s.pageOpen sbCh = true ∧ (s.page sbCh).cmd = some 7) := by decide +kernel

theorem witness_KiteTake :
    ((let s := runState.setPage 0 { Kite.reset with cmd := some 0x0013000000000000 }
     (s.page 0).cmd = some 0x0013000000000000 ∧ s.takes 0 0 = true ∧
     (s.opened 0).any (fun c => c.seq.toNat == fld (0x0013000000000000 : DWord) 48 4) = false) ∧
    (let s := runState.setPage sbCh { Kite.reset with cmd := some 0x0013000000000000 }
     (s.page sbCh).cmd = some 0x0013000000000000 ∧ s.takes sbCh 0 = true ∧
     (s.opened sbCh).any (fun c => c.seq.toNat == fld (0x0013000000000000 : DWord) 48 4) = false)) ∧
    (runState.page 5).cmd = none ∧ (upState.takes 0 0 = false ∧
      ((upState.setPage 0 { Kite.reset with cmd := some 0x0013000000000000 }).page 0).cmd = some 0x0013000000000000) ∧
    (findOpen 3 [] ((withCmd runState 0 0x08 0 none).opened 0) = some ([], openCmd 0x08 3 0 none) ∧
    hasBlock 0x08 = true ∧ (openCmd 0x08 3 0 none).begun = true ∧ (openCmd 0x08 3 0 none).verdict = none) := by decide +kernel

theorem witness_KiteTimeouts :
    (let s := runState.setPage 0 { Kite.reset with cmd := some 7, rsp := some 9 }
     (s.page 0).cmd ≠ none ∧ (s.page 0).cmdTimeout = false ∧ s.effective 0 ≠ 0 ∧ (s.page 0).rsp = some 9 ∧
     (s.page 0).rspTimeout = false) ∧ runState.effective sbCh = 0 := by decide +kernel

theorem witness_KiteResponses :
    (let s := runState.setRspQ 0 [9]
     s.posts = true ∧ (s.page 0).rsp = none ∧ s.rspQ 0 = 9 :: []) ∧
    (let s := runState.setPage 0 { Kite.reset with rsp := some 9 }
     isFuncCh 0 = true ∧ s.barOpen 0 = true ∧ (s.page 0).rsp = some 9) ∧
    (let s := runState.setRspQ tetherCh [9]
     s.posts = true ∧ (s.page tetherCh).rsp = none ∧ s.rspQ tetherCh = 9 :: []) ∧
    (let s := runState.setPage sbCh { Kite.reset with rsp := some 9 }
     isFuncCh sbCh = false ∧ (s.page sbCh).rsp = some 9) ∧ (runState.page 0).rsp = none ∧ runState.barOpen 0 = true := by decide +kernel

theorem witness_FirmwareStates :
    (let s := { runState with kite := { runState.kite with fw := .starting } }
     s.kite.fw = .starting ∧ s.kite.lost = [] ∧ s.postable = false) ∧
    (runState.kite.fw = .running ∧ runState.kite.opened = []) ∧
    (let s := { runState with kite := { runState.kite with fw := .maintenance } }
     s.kite.fw = .maintenance) ∧
    (0 < 16 ∧ 0 ∉ runState.sbBusy ∧ ∀ j < 0, j ∈ runState.sbBusy) ∧
    (let s := { runState with kite := { runState.kite with sideband :=
        ((List.range 16).map (fun i => (⟨BitVec.ofNat 64 (at' i 48), [], none⟩ : SbReq))) } }
     ∀ i < 16, i ∈ s.sbBusy) := by decide +kernel

theorem witness_HostRegisterWritesDiscarded : (0 : Nat) = upState.manager ∧ upState.barOpen 0 = true := by decide +kernel

theorem witness_UnalignedAccessesReturnZero :
    upState.barOpen 0 = true ∧ ¬ (2 = 4 ∧ (6 : BitVec 24).toNat % 4 = 0 ∧ false = false) ∧
    ¬ (2 = 8 ∧ (6 : BitVec 24).toNat % 8 = 0) ∧ ¬ (4 = 4 ∧ (8 : BitVec 24).toNat % 4 = 0 ∧ true = false) ∧
    ¬ (8 = 8 ∧ (8 : BitVec 24).toNat % 8 = 0 ∧ true = false) := by decide +kernel

theorem witness_ManagerReadClearsRc :
    upState.barOpen upState.manager = true ∧
    (upState.readAt 0x242100).map (fun x => (x.1.acc, x.1.wide, x.2.1, x.2.2.1)) = some (.rc, true, 0x242100, 0) ∧
    upState.regHeld 0x242100 = false ∧
    (upState.readAt 0x080040).map (fun x => (x.1.acc, x.1.wide, x.2.1, x.2.2.1)) = some (.rc, false, 0x080040, 0) ∧
    upState.regHeld 0x080040 = false ∧
    (withCmd runState 0 0x02 0x10 none).ready 0 3 0x02 (openCmd 0x02 3 0x10 none) = true ∧
    (withCmd runState 0 0x03 0 (some [0x10, 0, 0, 0, 2, 0, 0, 0])).ready 0 3 0x03
      (openCmd 0x03 3 0 (some [0x10, 0, 0, 0, 2, 0, 0, 0])) = true ∧
    leAt [0x10, 0, 0, 0, 2, 0, 0, 0] 0 4 % 4 = 0 ∧ leAt [0x10, 0, 0, 0, 2, 0, 0, 0] 4 4 = 2 := by decide +kernel

theorem witness_RegisterWriteByAccess :
    (regFind R.TETHER_STATE regRows).map (fun x => x.1.acc) = some .tw ∧ R.TETHER_STATE % 4 = 0 ∧
    (regFind R.IDENT_ENG regRows).map (fun x => x.1.acc) = some .tw ∧
    regFind 0x000FF0 regRows = none ∧ upState.barOpen 0 = true ∧ upState.pageOpen 0x1100 = true := by decide +kernel

theorem witness_ReservedBitsKept :
    runState.kite.fw ≠ .absent ∧ runState.inReset = false ∧ R.PARSE_FOLLOW_CFG % 4 = 0 ∧
    (regFind R.PARSE_FOLLOW_CFG regRows).map (fun x => (x.1.acc, x.2)) = some (.rw, R.PARSE_FOLLOW_CFG, 0) ∧
    runState.regHeld R.PARSE_FOLLOW_CFG = false ∧
    ∀ x, runState.writeActs .firmware R.PARSE_FOLLOW_CFG x = none :=
  ⟨by decide, by decide, by decide, by decide, by decide, fun _ => rfl⟩

theorem witness_BoundaryScan :
    (let s := { State.reset with tether := { State.reset.tether with boardTest := true } }
     s.tether.boardTest = true) ∧ State.reset.boot.fuse.sec ≠ 2 ∧ State.reset.tether.boardTest = false ∧
    (let s := { State.reset with boot := { State.reset.boot with fuse := { State.reset.boot.fuse with sec := 2 } } }
     s.tether.boardTest = false ∧ s.boot.fuse.sec = 2) := by decide +kernel

theorem witness_ObservationCommands :
    (upState.barOpen 0 = true ∧ upState.grantOf 0 63 ≠ 0) ∧
    (withCmd runState 0 0x81 0 (some [1, 0, 2, 0, 0, 0, 0x05, 0])).ready 0 3 0x81
      (openCmd 0x81 3 0 (some [1, 0, 2, 0, 0, 0, 0x05, 0])) = true ∧
    (leAt [1, 0, 2, 0, 0, 0, 0x05, 0] 0 2 = 1 ∧ leAt [1, 0, 2, 0, 0, 0, 0x05, 0] 2 1 = 2 ∧
      byteAt [1, 0, 2, 0, 0, 0, 0x05, 0] 3 = 0 ∧ leAt [1, 0, 2, 0, 0, 0, 0x05, 0] 4 4 ∈ grantable) ∧
    ((withCmd runState 0 0x81 0 (some [1, 0, 63, 1])).ready 0 3 0x81 (openCmd 0x81 3 0 (some [1, 0, 63, 1])) = true ∧
      leAt [1, 0, 63, 1] 2 1 = 63 ∧ byteAt [1, 0, 63, 1] 3 = 1) ∧
    ((withCmd runState 0 0x80 0 (some [0, 3])).ready 0 3 0x80 (openCmd 0x80 3 0 (some [0, 3])) = true ∧
      leAt [0, 3] 1 1 ≤ runState.levelCeiling) ∧
    ((withCmd runState 0 0x80 0 (some [1, 7])).ready 0 3 0x80 (openCmd 0x80 3 0 (some [1, 7])) = true ∧
      leAt [1, 7] 1 1 = 7 ∧ leAt [1, 7] 2 6 = 0 ∧ leAt [1, 7] 20 4 = 0 ∧ (sinkImage [1, 7]).ok = true ∧ bit (sinkImage [1, 7]).cfg 30 = false ∧
      (withCmd runState 0 0x80 0 (some [1, 7])).listAllowed (sinkImage [1, 7]) = true) ∧
    (withCmd runState 0 0x80 0 (some [2, 7])).ready 0 3 0x80 (openCmd 0x80 3 0 (some [2, 7])) = true ∧
    (let s := (runState.wr (R.SND_SINK_CFG 0) 0x88000001).wrf R.IDENT_STATE 0 3 1
     bit (s.sinkCfg 0) 31 = true ∧ bit (s.sinkCfg 0) 27 = true ∧ fld (s.sinkCfg 0) 0 16 ≠ 0 ∧ s.level ≠ 0 ∧
     s.blockHeld 20 = false) := by decide +kernel

theorem witness_ParserCommands :
    (let s := State.reset.setUnitQ 0 [pktOf 0]
     s.unitQ 0 = pktOf 0 :: [] ∧ (pktOf 0).reparse = false ∧ s.unitTurn = 0 ∧ s.blockHeld 5 = false ∧ bit s.clk.running 2 = true) ∧
    (let s := State.reset.setUnitQ 4 [{ pktOf 0 with reparse := true }]
     s.unitQ 4 = { pktOf 0 with reparse := true } :: []) ∧
    (let s := State.reset.setHold 3 (some (1, [pktOf 0]))
     s.hold 3 = some (1, [pktOf 0]) ∧ s.laneBusy 1 3 = false) ∧
    ((State.reset.setFollow (followKey 1 9) { FollowEntry.empty with st := .holding }).follow (followKey 1 9)).st = .holding ∧
    ((State.reset.setFollow (followKey 1 9) { FollowEntry.empty with st := .following }).follow (followKey 1 9)).st =
      .following := by decide +kernel

theorem witness_RuleSetCommands :
    ((withCmd runState 0 0x33 0x50002 none).ready 0 3 0x33 (openCmd 0x33 3 0x50002 none) = true ∧
      (runState.cinst 2).role.serves = true) ∧
    ((withCmd runState 0 0x34 0 (some (List.replicate 320 0))).ready 0 3 0x34
      (openCmd 0x34 3 0 (some (List.replicate 320 0))) = true ∧
      ∀ o ∈ parseImageOffsets, leAt (List.replicate 320 0) o 4 &&& (0xFFFFFFFF ^^^ parseImageMask o) = 0) ∧
    (let s := State.reset.updCinst 2 (fun c => { c with retain := [⟨pktOf 0, 0, false, false⟩] })
     s.instRuns 2 = true ∧ (s.cinst 2).retain = [⟨pktOf 0, 0, false, false⟩]) ∧
    State.reset.blockHeld 6 = false ∧
    ((withCmd runState 0 0x30 0 (some [1, 0, 0, 0, 0, 0, 0, 0])).ready 0 3 0x30
      (openCmd 0x30 3 0 (some [1, 0, 0, 0, 0, 0, 0, 0])) = true ∧ runState.genIn .free = some 1) ∧
    ((withCmd runState 0 0x31 0 none).ready 0 3 0x31 (openCmd 0x31 3 0 none) = true ∧
     (withCmd runState 0 0x32 0 none).ready 0 3 0x32 (openCmd 0x32 3 0 none) = true ∧
     (runState.setGen 1 ⟨.loading, 0, 0⟩).genIn .loading = some 1) := by decide +kernel

theorem witness_GenerationSwapIsWhole :
    (1 : Nat) < 2 ∧ (let s := State.reset.setGen 1 ⟨.loading, 0, 0⟩
      (s.gen s.liveSlot).st = .live ∧ s.liveSlot = 1 - 1 ∧ (s.gen 1).st = .loading) := by decide +kernel

theorem witness_ShoulderCommands :
    (let s := State.reset.wr R.CWAY_SHLD_CFG 0x8000000F
     s.shld.st = .standing ∧ bit (s.rd R.CWAY_SHLD_CFG) 31 = true ∧ s.rotate s.shld.nextSlot = some 0 ∧ s.slotInst 0 = some 0) ∧
    (let s := State.reset.setShld { State.reset.shld with st := .shadowing, window := some 2 }
     s.shld.st = .shadowing ∧ s.shld.window = some 2) ∧
    (let c : ShadowCopy := ⟨pktOf 0, 1, [], [], [], 7, 8, true, 0, 1⟩
     let s := State.reset.setShld { State.reset.shld with copies := [c, { c with void := false }], replays := [c] }
     s.shld.copies = [c, { c with void := false }] ∧ s.shadowing = true ∧ s.blockHeld 28 = false ∧ c.void = true ∧
     s.shld.replays = [] ++ c :: [] ∧ s.instRuns (s.replayInst c.inst) = true ∧ (s.cinst (s.replayInst c.inst)).recirc = []) ∧
    (let s := State.reset.setShld { State.reset.shld with st := .substituting, target := 1 }
     s.shld.st = .substituting ∧ s.shld.target = 1) ∧
    (withCmd runState 0 0x37 2 none).ready 0 3 0x37 (openCmd 0x37 3 2 none) = true ∧
    (withCmd runState 0 0x36 0xF none).ready 0 3 0x36 (openCmd 0x36 3 0xF none) = true := by decide +kernel

theorem witness_LearningAndAging :
    (let q : LearnReq := ⟨1, 5, 6, 7, false, none⟩
     let s := (State.reset.setLearnQ 1 [q]).setCopyQ 2 [q]
     s.learnQ 1 = q :: [] ∧ s.copyQ 2 = q :: [] ∧ s.tablesRun = true ∧ (s.cinst 1).role ≠ .suspect) := by decide +kernel

theorem witness_TableAccessReads :
    (let s := withOp runState 5 0 (taDesc 2 1 1 0 2)
     s.opRuns 5 0 0x4002 true (opOf 0 (taDesc 2 1 1 0 2)) = true ∧ s.taScreen (s.ring 5) (taDesc 2 1 1 0 2) 2 = none) ∧
    (let s := withOp runState 5 0 (taDesc 3 1 1 0 2)
     s.opRuns 5 0 0x4003 true (opOf 0 (taDesc 3 1 1 0 2)) = true ∧ s.taScreen (s.ring 5) (taDesc 3 1 1 0 2) 3 = none) ∧
    (let s := withOp runState 5 0 (taDesc 1 1 1 0 0)
     s.opRuns 5 0 0x4001 true (opOf 0 (taDesc 1 1 1 0 0)) = true ∧ s.taScreen (s.ring 5) (taDesc 1 1 1 0 0) 1 = none ∧
     s.emFind (s.regionOf 0) 0 (taKey 1 []) = none) ∧
    (let e : EmEntry := ⟨0, emControl true true false 5, 0, 0⟩
     let s := (withOp runState 5 0 (taDesc 1 1 1 0 0)).emPut 0 0 (.slot (home 0 0) 0) e
     s.emFind (s.regionOf 0) 0 (taKey 1 []) = some (.slot (home 0 0) 0, e) ∧
     (e.bytes (s.bucket 0 0 (home 0 0)).word).length ≤ descLen (taDesc 1 1 1 0 0)) ∧
    (let q : PfxEntry := ⟨0, 0, 0x80000000, 0⟩
     let s := (withOp runState 5 0 (taDesc 1 6 1 0 0)).setPrefixes 6 [q]
     s.taScreen (s.ring 5) (taDesc 1 6 1 0 0) 1 = none ∧ (pfxOf (padTo 32 [])).ok 6 = true ∧
     (s.prefixes 6).find? (fun q => q.same (pfxOf (padTo 32 []))) = some q ∧
     (q.bytes false).length ≤ descLen (taDesc 1 6 1 0 0)) := by decide +kernel

theorem witness_TableAccessWrites :
    (let s := withOp runState 5 0 (taDesc 4 3 0 7 1)
     s.opRuns 5 0 0x4004 false (opOf 0 (taDesc 4 3 0 7 1)) = true ∧ s.taScreen (s.ring 5) (taDesc 4 3 0 7 1) 4 = none ∧
     1 * taWriteLen 3 ≤ descLen (taDesc 4 3 0 7 1)) ∧
    (let s := withOp runState 5 0 (taDesc 5 1 31 0 0)
     s.opRuns 5 0 0x4005 false (opOf 0 (taDesc 5 1 31 0 0)) = true ∧ s.taScreen (s.ring 5) (taDesc 5 1 31 0 0) 5 = none) ∧
    (let s := withOp runState 5 0 (taDesc 5 7 31 0 0)
     s.opRuns 5 0 0x4005 false (opOf 0 (taDesc 5 7 31 0 0)) = true ∧ s.taScreen (s.ring 5) (taDesc 5 7 31 0 0) 5 = none) ∧
    (withCmd runState 0 0x35 0 (some (List.replicate 40 0))).ready 0 3 0x35 (openCmd 0x35 3 0 (some (List.replicate 40 0))) = true ∧
    (∀ k < 10, leAt (List.replicate 40 0) (k * 4) 4 &&& (0xFFFFFFFF ^^^ tableImageMask (k * 4)) = 0) := by decide +kernel

theorem witness_TrafficManagerTraffic :
    (let s := { State.reset with tm := { State.reset.tm with input := [(pktOf 0, false)] } }
     s.tm.input = (pktOf 0, false) :: [] ∧ s.blockHeld 9 = false ∧ s.tmRuns = true) ∧
    (let s := sendable
     s.tmRuns = true ∧ s.nodeUp 9 = true ∧ (s.tmNode (portKey 9)).eligible = true ∧
     (match (s.portChoose 9 (s.portKids 9) classOrder).2 with | .send _ => true | _ => false) = true) ∧
    (let s := State.reset.setGate 1 { State.reset.gate 1 with pending := some 5 }
     s.tmRuns = true ∧ (s.gate 1).pending ≠ none) := by decide +kernel

theorem witness_ShaperBucketsBounded :
    ((TmNode.reset 0).written = (TmNode.reset 0).inForce ∧
      (TmNode.reset 0).cLevel + (TmNode.reset 0).written.cir.toNat ≤ burstOf (TmNode.reset 0).written.cbs) := by decide +kernel

theorem witness_TrafficManagerAccess :
    (State.reset.blockHeld 9 = false ∧ fld (0x4C000005 : Word) 30 2 = 1 ∧ fld (0x4C000005 : Word) 26 4 = 3 ∧
      fld (0x8C000005 : Word) 30 2 = 2 ∧ tmKind 3 = some (32, 65536) ∧
      State.reset.tmRefused 3 5 (List.replicate 32 0) = false) ∧
    (let c := openCmd 0x40 3 0 (some [3, 0, 0, 0, 5, 0, 0, 0, 1, 0, 0, 0])
     (runState.setOpened 0 [c]).ready 0 3 0x40 c = true ∧ c.tmRange = some (3, 5, 1, 32) ∧
     (runState.setOpened 0 [c]).tmMay 0 3 5 1 = true ∧ 32 ≤ outSpace 0 c) ∧
    (let c := openCmd 0x41 3 0 (some ([3, 0, 0, 0, 5, 0, 0, 0, 1, 0, 0, 0, 0, 0, 0, 0] ++ List.replicate 32 0))
     (runState.setOpened 0 [c]).ready 0 3 0x41 c = true ∧ c.tmRange = some (3, 5, 1, 32) ∧
     c.tooLong (16 + 32 * leAt c.args 8 4) = false ∧ tmReserved 3 (slice c.args 16 32) = 0 ∧
     (runState.setOpened 0 [c]).tmRefused 3 5 (slice c.args 16 32) = false) ∧
    ((withCmd runState 0 0x42 0x3000005 none).ready 0 3 0x42 (openCmd 0x42 3 0x3000005 none) = true ∧
      fld (openCmd 0x42 3 0x3000005 none).arg 24 4 = 3) ∧
    (let s := { State.reset with tm := { State.reset.tm with drains := [⟨3, 5, 0, 3, 9⟩] } }
     s.tm.drains.find? (fun d => d.ch == 0 && d.seq == 3) = some ⟨3, 5, 0, 3, 9⟩ ∧ s.busyBelow 3 5 = false) ∧
    (withCmd runState 0 0x43 15 none).ready 0 3 0x43 (openCmd 0x43 3 15 none) = true ∧
    (let c := openCmd 0x44 3 0 (some ([7, 0, 0, 0, 0, 0, 1, 0] ++ List.replicate 8 0))
     (runState.setOpened 0 [c]).ready 0 3 0x44 c = true ∧ leAt c.args 0 1 = 7 ∧ leAt c.args 6 2 = 1 ∧
     tmReserved 8 (slice c.args 8 8) = 0 ∧ (runState.gate 7).pending = none) ∧
    (let c := openCmd 0x45 3 0 (some (7 :: List.replicate 23 0))
     (runState.setOpened 0 [c]).ready 0 3 0x45 c = true ∧ leAt c.args 0 1 = 7 ∧ leAt c.args 1 7 = 0 ∧
     leAt c.args 16 4 < 1073741824 ∧ leAt c.args 20 2 < 2048) ∧
    (withCmd runState 0 0x46 0x0500000100 none).ready 0 3 0x46 (openCmd 0x46 3 0x0500000100 none) = true := by decide +kernel

theorem witness_LinePortStates :
    (let s := { State.reset with clk := { State.reset.clk with lineRef := true } }.setPort 7 { LinePort.reset with st := .up }
     (s.port 7).st = .up ∧ (s.port 7).alignLost = false ∧ s.clk.lineRef = true) ∧
    (let s := State.reset.setPort 7 { LinePort.reset with st := .up, alignLost := true }
     (s.port 7).st = .up ∧ (s.port 7).alignLost = true) ∧
    (let s := { State.reset with clk := { State.reset.clk with lineRef := true } }.setPort 0 { LinePort.reset with st := .training }
     (s.port 0).st = .training ∧ s.clk.lineRef = true) ∧
    (let s := { State.reset with clk := { State.reset.clk with lineRef := true } }.setPort 0 { LinePort.reset with st := .aligning }
     (s.port 0).st = .aligning ∧ s.clk.lineRef = true) ∧
    (let s := (State.reset.setPort 0 { LinePort.reset with st := .up, xoff := 4 }).wr (R.LINE_PORT_CFG 0) 0x98000000
     (s.port 0).st = .up ∧ s.flow 0 ≠ 0 ∧ bit (s.port 0).xoff 2 = true) := by decide +kernel

theorem witness_LineFramesReceived :
    (let s := State.reset.setPort 0 { LinePort.reset with st := .up }
     (s.port 0).st = .up ∧ 0 < s.portOpt.1 ∧ (s.port 0).alignLost = false ∧ (List.replicate 59 (0 : Byte)).length < 60 ∧
     s.maxFrame 0 < (List.replicate 9601 (0 : Byte)).length ∧ (List.replicate 60 (0 : Byte)).length ≤ s.maxFrame 0 ∧
     isPause (List.replicate 60 0) = false ∧
     isPause (List.replicate 12 0 ++ [0x88, 0x08, 0, 1] ++ List.replicate 44 0) = true) ∧
    ((State.reset.setPort 0 { LinePort.reset with st := .up, alignLost := true }).port 0).alignLost = true ∧
    (State.reset.port 0).st ≠ .up ∧
    { State.reset with line := { State.reset.line with mgmtUp := true } }.line.mgmtUp = true ∧
    (List.replicate 60 (0 : Byte)).length < 16384 ∧ State.reset.line.mgmtUp = false := by decide +kernel

theorem witness_LineAndTimeCommands :
    (withCmd runState 0 0x50 7 none).ready 0 3 0x50 (openCmd 0x50 3 7 none) = true ∧
    (withCmd runState 0 0x51 0x780000000 none).ready 0 3 0x51 (openCmd 0x51 3 0x780000000 none) = true ∧
    (withCmd runState 0 0x52 0x7FFFFFFFF none).ready 0 3 0x52 (openCmd 0x52 3 0x7FFFFFFFF none) = true ∧
    (withCmd runState 0 0x53 0x80000009 none).ready 0 3 0x53 (openCmd 0x53 3 0x80000009 none) = true ∧
    bit ((runState.wr R.LINE_MGMT_CFG 0x80000009).rd R.LINE_MGMT_CFG) 31 = true ∧
    (∀ op ∈ [0, 1, 2, 3], let c := openCmd 0x54 3 0 (some (op :: (List.replicate 7 0 ++ [0x40, 0x42, 0x0F, 0, 0, 0, 0, 0])))
      (runState.setOpened 0 [c]).ready 0 3 0x54 c = true ∧ leAt c.args 1 7 = 0 ∧ leAt c.args 8 8 = 1000000 ∧
      byteAt c.args 0 = op) ∧
    (let s := runState.wr R.TIME_PPS_CFG 0xC0000001
     s.now.toNat % 1000000000 ≤ 4 ∧ bit s.clk.running 5 = true ∧ bit (s.rd R.TIME_PPS_CFG) 31 = true ∧ s.rdf R.TIME_PPS_CFG 0 30 ≠ 0 ∧ bit (s.rd R.TIME_PPS_CFG) 30 = true) := by decide +kernel

/-- An instruction word of format R. -/
def insWord (major dst a b fn : Nat) : Word :=
  BitVec.ofNat 32 (major * 2 ^ 26 + dst * 2 ^ 20 + a * 2 ^ 14 + b * 2 ^ 8 + fn)

/-- Thread 7 of engine 135, given the role of a serving engine, READY at PC 100 with `w` there. -/
def issuing (w : Word) : State :=
  let s := { upState with eng := { upState.eng with role := mapSet (fun e => if e < 128 then 0 else 1) upState.eng.role 135 0 } }
  let s := { s with eng := { s.eng with imem := mapSet (fun _ => 0) s.eng.imem (135 * 16384 + 100) w } }
  (s.wr (R.JCT_ENG_RUN 4) 0x80).setThr 135 7 { Thread.reset with st := .ready, pc := 100, started := true }

theorem witness_EngineArithmetic :
    ((∀ f ∈ List.range 0x13, (issuing (insWord 0 63 31 63 f)).issues 135 7 (insWord 0 63 31 63 f) = true) ∧
    (∀ f ∈ List.range 6, (issuing (insWord 0 63 31 0 (0x13 + f))).issues 135 7 (insWord 0 63 31 0 (0x13 + f)) = true) ∧
    (∀ f ∈ List.range 8, (issuing (insWord 9 63 31 63 f)).issues 135 7 (insWord 9 63 31 63 f) = true) ∧
    (∀ f ∈ [8, 9], (issuing (insWord 9 63 31 0 f)).issues 135 7 (insWord 9 63 31 0 f) = true) ∧
    (∀ m ∈ List.range 7, (issuing (insWord (m + 1) 63 31 63 255)).issues 135 7 (insWord (m + 1) 63 31 63 255) = true) ∧
    (∀ o ∈ List.range 3, (issuing (insWord 8 63 31 63 (252 + o))).issues 135 7 (insWord 8 63 31 63 (252 + o)) = true) ∧
    ((issuing 0).thr 135 7).pc.toNat ≠ 16383 ∧
    iB (insWord 0x00 63 31 0 0x18) = 0 ∧ isFn 9 9 (insWord 9 63 31 0 9) = true ∧
    fld (insWord 8 63 31 63 (252 + 2)) 0 2 = 2) ∧
    ((∀ f ∈ List.range 8, ∀ a ∈ [0, 31, 32, 63], let w := insWord 0x0A 62 a 5 f
      (issuing w).issues 135 7 w = true ∧ ((issuing w).thr 135 7).pc.toNat ≠ 16383 ∧ isFn 0x0A f w = true ∧
      (a < 32 ∨ (32 ≤ iA w ∧ iDst w ≠ iA w)))) := by decide +kernel

theorem witness_EngineMemoryAndBranches :
    (∀ m ∈ List.range 8, let s := (issuing (insWord (0x10 + m) 5 1 0 0)).setReg 135 7 1 262136
      s.issues 135 7 (insWord (0x10 + m) 5 1 0 0) = true) ∧
    (let s := (issuing (insWord 0x17 5 1 0 0)).setReg 135 7 1 262136
     (s.thr 135 7).pc.toNat ≠ 16383 ∧ (s.reg 135 7 1 + iImm14 (insWord 0x17 5 1 0 0)).toNat = 262136 ∧
     s.dmemBad 135 262136 8 = false) ∧
    (let s := (issuing (insWord 0x10 5 1 0 0)).setReg 135 7 1 262144
     s.issues 135 7 (insWord 0x10 5 1 0 0) = true ∧
     262144 < (s.reg 135 7 1 + iImm14 (insWord 0x10 5 1 0 0)).toNat + 1) ∧
    (let s := (issuing (insWord 0x15 5 1 63 255)).setReg 135 7 1 262144
     s.issues 135 7 (insWord 0x15 5 1 63 255) = true ∧
     (s.reg 135 7 1 + iImm14 (insWord 0x15 5 1 63 255)).toNat = 262143) ∧
    (∀ m ∈ List.range 6, (issuing (insWord (0x18 + m) 0 1 2 2)).issues 135 7 (insWord (0x18 + m) 0 1 2 2) = true) ∧
    ((issuing (insWord 0x19 63 1 2 255)).issues 135 7 (insWord 0x19 63 1 2 255) = true) ∧
    (BitVec.ofNat 14 (63 * 256 + 255)).toInt = -1 ∧ (BitVec.ofNat 14 (32 * 256)).toInt = -8192 ∧
    ((issuing (insWord 0x1A 32 1 2 0)).issues 135 7 (insWord 0x1A 32 1 2 0) = true) ∧
    ((issuing (insWord 0x1E 5 32 0 7)).issues 135 7 (insWord 0x1E 5 32 0 7) = true) ∧
    ((issuing (insWord 0x1F 5 1 0 7)).issues 135 7 (insWord 0x1F 5 1 0 7) = true) ∧
    fld (insWord 0x1E 5 32 0 7) 14 5 = 0 := by decide +kernel

theorem witness_EngineRegisterFrame :
    (let w := insWord 0 5 1 2 0
     (issuing w).issues 135 7 w = true ∧ ((issuing w).thr 135 7).pc.toNat ≠ 16383 ∧ isFn 0 0 w = true ∧
     iDst w = 5 ∧ (issuing w).late 135 = []) := by decide +kernel

theorem witness_EngineFaults :
    ((issuing 0xFFFFFFFF).engClocked 135 = true ∧ (issuing 0xFFFFFFFF).turnThread 135 = some 7 ∧
      (upState.engClocked 100 = true ∧ upState.turnThread 100 = none ∧ ∀ t' < 8, (upState.thr 100 t').st ≠ .ready) ∧
      (issuing 0xFFFFFFFF).imem 135 100 = 0xFFFFFFFF ∧
      listed 0xFFFFFFFF = false) ∧
    (let s := issuing 0x94000000
     let s := { s with eng := { s.eng with badImem := [135 * 16384 + 100] } }
     135 * 16384 + 100 ∈ s.eng.badImem ∧ s.turnThread 135 = some 7) ∧
    (let s := (issuing 0).setPc 135 7 16383
     (s.thr 135 7).pc.toNat = 16383 ∧ s.turnThread 135 = some 7 ∧ isFn 0 0 (s.imem 135 16383) = true ∧ s.eng.badImem = []) := by decide +kernel

theorem witness_EngineChannels :
    (let s := (issuing (insWord 0x20 5 0 0 31)).wr (R.ENG_CH_BIND 135 31) 0x9C000000
     s.issues 135 7 (insWord 0x20 5 0 0 31) = true ∧ (s.thr 135 7).pc.toNat ≠ 16383 ∧ s.bindValid 135 31 = true ∧
     s.bindReader 135 31 = 7 ∧ (s.chan 135 31).msgs = [] ∧ s.orphans 135 = []) ∧
    ((issuing (insWord 0x20 5 0 0 0x3F)).issues 135 7 (insWord 0x20 5 0 0 0x3F) = true ∧
      (issuing (insWord 0x20 5 0 0 0x3F)).bindValid 135 31 = false ∧ iFn (insWord 0x20 5 0 0 0x3F) = 0x3F) ∧
    (let s := (issuing (insWord 0x20 5 0 0 31)).setChan 135 31 ⟨[⟨[1], 9, some (pktOf 64)⟩], none⟩
     (s.chan 135 31).msgs.length = 1 ∧ (s.thr 135 7).freeSlots ≠ []) ∧
    ((issuing (insWord 0x20 5 0 0 0x40)).issues 135 7 (insWord 0x20 5 0 0 0x40) = true ∧
      ((issuing 0).setOrphans 135 [⟨some 1, ⟨[1], 1, none⟩⟩]).orphans 135 ≠ []) ∧
    ((issuing (insWord 0x20 5 0 0 0x7F)).issues 135 7 (insWord 0x20 5 0 0 0x7F) = true) ∧
    (let s := (issuing (insWord 0x20 0 1 2 0x8F)).setReg 135 7 2 0x1FFF
     s.issues 135 7 (insWord 0x20 0 1 2 0x8F) = true ∧ (s.thr 135 7).target = none ∧ (s.thr 135 7).otherOpen 5 = false) ∧
    (let s := (issuing (insWord 0x20 0 1 2 0xAF)).setReg 135 7 2 0
     let s := { s with eng := { s.eng with logical := [135] } }
     s.issues 135 7 (insWord 0x20 0 1 2 0xAF) = true ∧ s.eng.logical[0]? = some 135 ∧ s.admitsThread 135 135 0 = true ∧
     s.chanLoad 135 0 + (15 + 1) ≤ 16 ∧ s.admitsThread 135 134 0 = true ∧ s.eng.jct = [] ∧ s.eng.logical[1]? = none ∧
     16 < (s.setChan 135 0 ⟨[⟨[1], 1, none⟩], none⟩).chanLoad 135 0 + (15 + 1) ∧
     (s.wr (R.ENG_CH_BIND 135 0) 0xC0000000).admitsThread 135 135 0 = false) ∧
    ((issuing (insWord 0x20 0 0 0 0xC0)).issues 135 7 (insWord 0x20 0 0 0 0xC0) = true) := by decide +kernel

/-- The same thread with a packet of 64 bytes in slot 15, register 1 naming it. -/
def holding (w : Word) : State :=
  ((issuing w).updThr 135 7 (fun x => x.setSlot 15 (some (pktOf 64)))).setReg 135 7 1 15

theorem witness_EnginePackets :
    (∀ f ∈ [0, 7, 0x80, 0x87], (holding (insWord 0x21 0 1 2 f)).issues 135 7 (insWord 0x21 0 1 2 f) = true) ∧
    (∀ f ∈ List.range 3, (holding (insWord 0x22 0 1 1 f)).issues 135 7 (insWord 0x22 0 1 1 f) = true) ∧
    (holding (insWord 0x22 0 1 7 2)).issues 135 7 (insWord 0x22 0 1 7 2) = true ∧
    (holding (insWord 0x22 0 1 8 2)).issues 135 7 (insWord 0x22 0 1 8 2) = true ∧
    (holding (insWord 0x21 1 1 8 0x80)).issues 135 7 (insWord 0x21 1 1 8 0x80) = true ∧
    ((holding 0).thr 135 7).pc.toNat ≠ 16383 ∧ ((holding 0).reg 135 7 1).toNat = 15 ∧
    ((holding 0).thr 135 7).slot 15 = some (pktOf 64) ∧ (((holding 0).setReg 135 7 1 16).reg 135 7 1).toNat = 16 ∧
    (let w := insWord 0x22 0 1 2 3
     let s := (issuing w).setReg 135 7 2 9600
     s.issues 135 7 w = true ∧ (s.thr 135 7).freeSlots ≠ [] ∧ (s.reg 135 7 2).toNat = 9600 ∧ ceilDiv 9600 256 ≤ s.cellsFor false) ∧
    (((issuing 0).updThr 135 7 (fun x => { x with slots := (List.range 16).map (fun k => (k, some (pktOf 64))) })).thr 135 7).freeSlots
      = [] := by decide +kernel

theorem witness_EngineRequestsAndControl :
    (let w := insWord 0x23 5 1 2 0
     let s := (holding w).setReg 135 7 2 0x3F0003FFC0
     s.issues 135 7 w = true ∧ fld (s.reg 135 7 2) 0 18 = 262080 ∧ fld (s.reg 135 7 2) 32 6 + 1 = 64 ∧
     s.dmemBad 135 262080 64 = false ∧ ((s.thr 135 7).tag 0).req = none ∧ (s.thr 135 7).pc.toNat ≠ 16383) ∧
    (holding (insWord 0x23 5 1 2 1)).issues 135 7 (insWord 0x23 5 1 2 1) = true ∧
    (∀ f ∈ [2, 3, 4], (issuing (insWord 0x23 5 1 2 f)).issues 135 7 (insWord 0x23 5 1 2 f) = true) ∧
    engHbm 135 0x3FFFFC0 = some 0x51FFFFFC0 ∧ engHbm 135 0x4000000 = none ∧ engHbm 135 0x7FFFFFC0 = some 0x57FFFFFC0 ∧
    (let d : DWord := 0x201C0000
     fld d 18 4 = 7 ∧ bit d 29 = true ∧ ((issuing 0).thr 135 7).held = [] ∧ ((holding 0).thr 135 7).held ≠ []) ∧
    (let s := (issuing 0).updThr 135 7 (fun x => x.setTag 7 ⟨some ⟨3, 0, [], 0, 0, 0, 0, [], false⟩, false, 0⟩)
     ((s.thr 135 7).tag 7).req.isSome = true) ∧
    (let s := (issuing (insWord 0x24 5 1 0 0)).setReg 135 7 1 0x80
     let done := s.updThr 135 7 (fun x => x.setTag 7 ⟨none, true, 0x1050⟩)
     s.issues 135 7 (insWord 0x24 5 1 0 0) = true ∧ done.issues 135 7 (insWord 0x24 5 1 0 0) = true ∧
     bit (s.reg 135 7 1) 7 = true ∧ ((done.thr 135 7).tag 7).done = true ∧ ((s.thr 135 7).tag 7).done = false) ∧
    (∀ f ∈ List.range 6, (issuing (insWord 0x25 0 0 0 f)).issues 135 7 (insWord 0x25 0 0 0 f) = true) ∧
    (issuing (insWord 0x25 0 1 0 5)).issues 135 7 (insWord 0x25 0 1 0 5) = true ∧
    ({ (issuing 0) with eng := { (issuing 0).eng with logical := [3, 135] } } : State).eng.logical[1]? = some 135 := by decide +kernel

/-- A bundle of one engine and one program of one instruction. -/
def bundle : Bytes := leBytes 4 0x564C5242 ++ [1, 0, 1, 0, 1, 0, 0, 0, 0, 0, 0, 0] ++ leBytes 4 120 ++ leBytes 4 3864649486 ++
  List.replicate 40 0 ++ [116, 0, 0, 0, 1, 0, 0, 0] ++ List.replicate 48 0

/-- Its CRC, 24 bytes at a time. -/
theorem bundle_crc : (crc32c (slice bundle 24 ((bundleAt bundle).length - 24))).toNat == leAt bundle 20 4 := by
  have h0 : crcFrom polyC 0xFFFFFFFF (slice bundle 24 24) = 0x7B041311 := by decide +kernel
  have h1 : crcFrom polyC 0x7B041311 (slice bundle 48 24) = 0xB85D4A8C := by decide +kernel
  have h2 : crcFrom polyC 0xB85D4A8C (slice bundle 72 24) = 0x92C763A7 := by decide +kernel
  have h3 : crcFrom polyC 0x92C763A7 (slice bundle 96 24) = 0x19A620F1 := by decide +kernel
  have hs : slice bundle 24 ((bundleAt bundle).length - 24) =
      slice bundle 24 24 ++ (slice bundle 48 24 ++ (slice bundle 72 24 ++ slice bundle 96 24)) := by decide +kernel
  have hc : ∀ (c : Word) (a b : Bytes), crcFrom polyC c (a ++ b) = crcFrom polyC (crcFrom polyC c a) b :=
    fun _ _ _ => List.foldl_append
  rw [hs, crc32c, hc, hc, hc, h0, h1, h2, h3]
  decide +kernel

theorem bundle_ok : bundleOk bundle = true := by
  simp only [bundleOk, bundle_crc, Bool.and_true, Bool.and_eq_true]
  decide +kernel

theorem witness_JunctionAndStalls :
    (let j : JMsg := ⟨135, 7, 135, 31, ⟨[1], 1, none⟩⟩
     let s := { issuing 0 with eng := { (issuing 0).eng with jct := [j] } }
     s.jctRuns = true ∧ s.jctCan j = true ∧ s.bindValid 135 31 = false ∧
     (s.wr (R.ENG_CH_BIND 135 31) 0x80000000).bindValid 135 31 = true ∧
     (s.wr (R.ENG_CH_BIND 135 31) 0x80000000).jctCan ⟨135, 7, 135, 31, ⟨List.replicate 17 1, 17, none⟩⟩ = false) ∧
    (let s := (((issuing 0).wr (R.JCT_MEMBER 1023) 0x8000871F).wr (R.ENG_CH_BIND 135 31) 0xDC000000).wr (R.JCT_CLASS_CFG 63)
       0x80007FFF000007FF
     s.member 1023 = some (135, 31) ∧ s.chooseMember 63 (pktOf 64) = some 1023) ∧
    ((issuing 0).setChan 0 0 ⟨[], some 0⟩).chan 0 0 = ⟨[], some 0⟩ ∧
    (let s := (issuing 0).setThr 135 7 { Thread.reset with st := .blockedRead, blockedCh := 31 }
     mapGet (fun _ => true) s.eng.armed 135 = true ∧ s.stalled 135 = true) := by decide +kernel

theorem witness_EngineCommands :
    (let c := openCmd 0x58 3 0 (some (List.replicate 8 0 ++ [128, 0, 0, 0]))
     (runState.setOpened 0 [c]).ready 0 3 0x58 c = true ∧ (runState.setOpened 0 [c]).hostStop 0 = none ∧
     padTo (leAt c.args 8 4) [] = List.replicate 128 0 ∧ bundleOk (List.replicate 128 0) = false ∧
     runState.inService.length = 128 ∧ (∀ e ∈ List.range 3, runState.engIdle e = true)) ∧
    (let c := openCmd 0x58 3 0 (some (List.replicate 8 0 ++ [120, 0, 0, 0]))
     (runState.setOpened 0 [c]).ready 0 3 0x58 c = true ∧ padTo (leAt c.args 8 4) bundle = bundle ∧
     (bundleAt bundle).engines = 1) ∧
    ((withCmd { runState with eng := { runState.eng with logical := [0] } } 0 0x59 0x10100 none).ready 0 3 0x59
      (openCmd 0x59 3 0x10100 none) = true ∧ fld (openCmd 0x59 3 0x10100 none).arg 17 31 = 0) ∧
    (let s := { (issuing 0) with kite := runState.kite, clk := runState.clk }
     let s := withCmd { s with eng := { s.eng with logical := [135] } } 0 0x5A 0x700 none
     s.ready 0 3 0x5A (openCmd 0x5A 3 0x700 none) = true ∧ s.eng.logical[0]? = some 135 ∧ (s.thr 135 7).st ≠ .unloaded) ∧
    (withCmd runState 0 0x5B 0 (some [])).ready 0 3 0x5B (openCmd 0x5B 3 0 (some [])) = true ∧
    (let c := openCmd 0x5C 3 0 (some ([63, 0, 0, 0, 0, 0, 0, 0] ++ leBytes 8 0xC0007FFF000007FF ++ leBytes 4 0x8000871F))
     (runState.setOpened 0 [c]).ready 0 3 0x5C c = true ∧ fld (BitVec.ofNat 64 (leAt c.args 8 8)) 10 11 = 1 ∧
     BitVec.ofNat 64 (leAt c.args 8 8) &&& 0x3FFF8000FFE00000 = 0 ∧ 16 + 4 * 1 ≤ c.args.length ∧
     BitVec.ofNat 64 (leAt c.args 16 4) &&& 0x7FFF00E0 = 0) ∧
    (let s := runState.setThr 0 0 { Thread.reset with st := .stopped }
     (s.thr 0 0).st = .stopped ∧ runState.role 128 ≠ 0) := by decide +kernel

theorem witness_HostLinks :
    ((runState.link 0).dlUp = true ∧ runState.kite.fw = .running ∧ (runState.link 0).st = .l0) ∧
    (let s := { upState with
       hiu := { upState.hiu with hostSplit := 2 } }.setLink 3 { HLink.reset with st := .detect, perst := false }
     let s := { s with clk := { s.clk with hostRef := 3 } }
     s.linkThere 3 = true ∧ (s.link 3).dlUp = false ∧ (s.link 3).perst = false ∧ (s.link 3).st ≠ .reset ∧
     bit s.clk.hostRef 1 = true ∧ s.maxSpeed 3 = 6 ∧ s.lanes 3 = 8) ∧
    (let s := upState.setLink 2 { HLink.reset with perst := true }
     s.linkThere 2 = true ∧ (s.link 2).perst = true) ∧
    (let s := upState.setLink 0 { HLink.reset with st := .l0p, speed := 6, width := 2, full := 16, flit := true }
     (s.link 0).st = .l0p ∧ bit ((s.wrf (R.HIU_LINK_CFG 0) 31 1 1).rd (R.HIU_LINK_CFG 0)) 31 = true ∧ (s.link 0).speed = 6 ∧ (s.link 0).flit = true ∧ (16 : BitVec 5).toNat ≤ (s.link 0).full.toNat) ∧
    ((upState.setLink 0 { HLink.reset with st := .l1 }).link 0).st = .l1 ∧
    (let kept : SMap Word := mapSet (fun _ => 0) (mapSet (fun _ => 0) [] (cfgKey .linkControl) 2) (cfgKey .l1ssControl) 12
     let s := ((List.range 8).foldl (fun s p => s.updFn p (fun h => { h with cfgRw := kept })) runState)
     s.aspmOn 0 0 = true ∧ s.aspmOn 0 1 = true ∧ s.aspmOn 0 2 = true) ∧
    (let s := withCmd runState 0 0x62 0x287000000 none
     s.ready 0 3 0x62 (openCmd 0x62 3 0x287000000 none) = true ∧ s.linkThere 2 = true ∧ s.linkThere 3 = false ∧
     (openCmd 0x62 3 0x287000000 none).arg &&& 0x78FFFFFF = 0) := by decide +kernel

theorem witness_HostFunctions :
    (runState.wrf (R.HIU_LINK_CFG 0) 0 1 1).cfgAnswers 0 = true ∧
    ((runState.updFn 0 (fun h => { h with flr := true })).fn 0).flr = true ∧
    ((runState.updFn 0 (fun h => { h with flr := true })).fn 0).portReset = false ∧
    (let t : HTag := ⟨0, 16383, 64, ⟨0, none, .gone, 0x1000, 0⟩, none⟩
     let s := { runState with hiu := { runState.hiu with tags := [t] } }
     s.outTag 0 16383 = some t ∧ s.outTag 0 16382 = none ∧ t.req.func = 0 ∧ (s.link 0).dlUp = true) ∧
    (let t : HTag := ⟨0, 5, 64, ⟨0, none, .gone, 0x1000, 0⟩, some 7⟩
     t ∈ { runState.hiu with tags := [t] }.tags ∧ t.quarUntil ≠ none) ∧
    (let t : HTag := ⟨0, 5, 2, ⟨0, none, .indexRead 0xFFFFF, 0x1000, 0⟩, none⟩
     { runState with hiu := { runState.hiu with tags := [t] } }.tagOf (.indexRead 0xFFFFF) = some t) ∧
    runState.fnLink 0 = 0 ∧
    mapGet (fun _ => 0) { runState.hiu with ide := mapSet (fun _ => 0) runState.hiu.ide 3 1 }.ide 3 = 1 := by decide +kernel

theorem witness_HostConfigAndWindows :
    (runState.link (runState.fnLink 8)).dlUp = true ∧ runState.exists_ 8 = false ∧ runState.exists_ 0 = true ∧
    runState.cfgAnswers 0 = false ∧ (runState.wrf (R.HIU_LINK_CFG 0) 0 1 1).cfgAnswers 0 = true ∧ runState.barOpen 0 = true ∧
    (let s := runState.wr (R.HIU_PEER_WIN_ACTIVE 0 7) 0xE000000880000000
     let w := s.rd (R.HIU_PEER_WIN_ACTIVE 0 (8388607 / 1048576))
     s.barOpen 0 = true ∧ bit w 63 = true ∧ bit w 61 = true ∧ bit w 62 = true ∧ 8388607 % 1048576 % 4096 + 1 ≤ 4096) ∧
    bit (runState.rd (R.HIU_PEER_WIN_ACTIVE 0 0)) 63 = false ∧
    (let s := { runState with hiu := { runState.hiu with peer := mapSet (fun _ => (0, 0)) runState.hiu.peer 0 (0x800000000, 0x100000) } }
     s.inRegion 0 0xE000000800000000 = true ∧ s.inRegion 0 0xE000000800100000 = false) ∧
    (let s := withCmd runState 0 0x60 0xF08000 none
     s.ready 0 3 0x60 (openCmd 0x60 3 0xF08000 none) = true) ∧
    (let c := openCmd 0x61 3 0 (some ([7] ++ List.replicate 7 0 ++ leBytes 8 0x800000000 ++ leBytes 8 (39 * 1073741824)))
     let s := runState.setOpened 0 [c]
     s.ready 0 3 0x61 c = true ∧ leAt (padTo 24 c.args) 0 1 = 7 ∧ leAt (padTo 24 c.args) 8 8 = 0x800000000 ∧
     (∀ q ∈ List.range 8, (s.peerRegion q).2 = 0) ∧
     (∀ w ∈ List.range 8, bit (s.rd (R.HIU_PEER_WIN_ACTIVE 7 w)) 63 = false) ∧
     (let s := ({ s with hiu := { s.hiu with peer := mapSet (fun _ => (0, 0)) s.hiu.peer 7 (0x800000000, 0x100000) } } : State).wr
        (R.HIU_PEER_WIN_ACTIVE 7 7) 0xE000000800000000
      s.peerRegion 7 ≠ (0x800000000, 39 * 1073741824) ∧ bit (s.rd (R.HIU_PEER_WIN_ACTIVE 7 7)) 63 = true ∧
      s.inRegion 7 (s.rd (R.HIU_PEER_WIN_ACTIVE 7 7)) = true)) := by decide +kernel

theorem witness_InstanceLife :
    (let c := openCmd 0x10 3 0 (some (List.replicate 8 0 ++ List.replicate 8 0 ++ [1, 0, 0, 0, 8] ++ List.replicate 51 0))
     let s := runState.setOpened 0 [c]
     s.ready 0 3 0x10 c = true ∧ requestOk (slice (padTo 72 c.args) 8 64) 0 = true ∧ s.hasFunc 0 = true ∧
     (s.inst 0).st = .absent ∧ (s.draw (Alloc.ofBytes (slice (padTo 72 c.args) 8 64)).rounded).toOption =
       some { (Alloc.ofBytes (slice (padTo 72 c.args) 8 64)).rounded with portId := 0 }) ∧
    (let q : Alloc := { Inst.absent.alloc with vectors := 2048 }
     let full := (List.range 8).foldl (fun s k => s.setInst k { Inst.absent with
       st := .created, alloc := { Inst.absent.alloc with vectors := 2048, vecBase := 2048 * k } }) runState
     (match full.draw q with | .error r => decide (r = 1) | .ok _ => false) = true) ∧
    (∀ k ∈ [0x11, 0x12, 0x13, 0x14, 0x15], (withCmd runState 0 k 0x1007 none).ready 0 3 k (openCmd k 3 0x1007 none) = true) ∧
    (∀ k ∈ [0x11, 0x12, 0x13, 0x14, 0x15, 0x18], (withCmd runState 0 k 0x1008 none).ready 0 3 k (openCmd k 3 0x1008 none) = true) ∧
    (let c := openCmd 0x10 3 0 (some (List.replicate 8 0 ++ List.replicate 8 0 ++ [1, 0, 0, 0, 8] ++ List.replicate 51 0))
     let d := openCmd 0x10 3 0 (some ([8, 0, 1, 0, 0, 0, 0, 0] ++ List.replicate 8 0 ++ [1, 0, 0, 0, 8] ++ List.replicate 51 0))
     let two := openCmd 0x10 3 0 (some ([0, 0, 2, 0, 0, 0, 0, 0] ++ List.replicate 8 0 ++ [1, 0, 0, 0, 8] ++ List.replicate 51 0))
     let bad := openCmd 0x10 3 0 (some (List.replicate 8 0 ++ List.replicate 64 0))
     let made := runState.setInst 0 { Inst.absent with st := .created }
     (runState.setOpened 0 [bad]).ready 0 3 0x10 bad = true ∧ requestOk (slice (padTo 72 bad.args) 8 64) 0 = false ∧
     (runState.setOpened 0 [two]).ready 0 3 0x10 two = true ∧ requestOk (slice (padTo 72 two.args) 8 64) 2 = true ∧
     (made.setOpened 0 [c]).ready 0 3 0x10 c = true ∧ (made.inst 0).st ≠ .absent ∧
     ((made.wr (R.FNM_PF_CFG 0) 1).setOpened 0 [d]).ready 0 3 0x10 d = true ∧
     requestOk (slice (padTo 72 d.args) 8 64) 1 = true ∧ (made.wr (R.FNM_PF_CFG 0) 1).hasFunc 8 = true ∧
     (made.wr (R.FNM_PF_CFG 0) 1).fnPf 8 = some 0 ∧ (made.inst 0).persona = 0 ∧ (runState.inst 0).st = .absent) ∧
    (withCmd runState 5 0x18 5 none).ready 5 3 0x18 (openCmd 0x18 3 5 none) = true ∧ 5 ≠ runState.manager ∧
    (withCmd runState 5 0x18 6 none).ready 5 3 0x18 (openCmd 0x18 3 6 none) = true ∧
    (withCmd runState 0 0x16 0x401 none).ready 0 3 0x16 (openCmd 0x16 3 0x401 none) = true ∧
    (withCmd runState 0 0x17 0x100800000000 none).ready 0 3 0x17 (openCmd 0x17 3 0x100800000000 none) = true ∧
    (∀ st ∈ [InstSt.created, .active, .quiesced, .removing, .quiescing],
      ((runState.setInst 0x1007 { Inst.absent with st := st }).inst 0x1007).st = st) ∧
    (runState.setInst 4103 { Inst.absent with st := .quiescing }).quiet 4103 = true ∧
    (withCmd runState 0 0x16 0x70400 none).ready 0 3 0x16 (openCmd 0x16 3 0x70400 none) = true ∧
    ((List.range 8).filter (· ≠ 7)).map runState.totalVfs = List.replicate 7 0 ∧ (runState.fn 7).vfEnable = false ∧
    (withCmd runState 0 0x17 0x1007FFFFFFFE none).ready 0 3 0x17 (openCmd 0x17 3 0x1007FFFFFFFE none) = true ∧
    runState.blockHeld 2 = false ∧ fld (0x40001007 : Word) 0 13 = 0x1007 := by decide +kernel

/-- One unconsumed descriptor on the last ring of function 0, whose completion ring is ring 1. -/
def fetching : State :=
  ((runState.setRing 1 { Ring.absent with st := .active, ctx := BitVec.ofNat 512 (at' 2 32 + at' 6 40) }).setRing 0xFFFFF
    { Ring.absent with st := .active, p := 1, ctx := BitVec.ofNat 512 (0xFFFFF + at' 6 40 + at' 1 192 + at' 1 272) }).setInst 0
    { Inst.absent with st := .active }

theorem witness_RingTraffic_fetch : fetching.fetchTurn = some (0xFFFFF, 1) ∧ fetching.canRead (fetching.ring 0xFFFFF).func = true ∧
    (fetching.ring 0xFFFFF).fill = 1 ∧ (fetching.ring 0xFFFFF).size - (fetching.ring 0xFFFFF).c.toNat % (fetching.ring 0xFFFFF).size = 64 ∧
    readStatus .timeout ≠ none ∧ readStatus (.cpl .ok) = none :=
  ⟨by decide +kernel, canRead_idle (by decide +kernel) (by decide +kernel), by decide +kernel, by decide +kernel,
    by decide +kernel, by decide +kernel⟩

theorem witness_RingTraffic :
    (let s := runState.setInst 0 { Inst.absent with
       st := .active, alloc := { Inst.absent.alloc with ringBase := 1048512, ringCount := 64 } }
     s.barOpen 0 = true ∧ (s.inst 0).st ≠ .absent ∧ s.ownsRing 0 1048575 = true ∧ s.ownsRing 0 0 = false ∧
     (s.ring 1048575).st = .absent ∧ ((s.setRing 1048575 { Ring.absent with st := .active }).ring 1048575).st = .active ∧
     ((s.setRing 1048575 { Ring.absent with st := .held }).ring 1048575).st = .held ∧ (s.inst 0).st = .active ∧
     (runState.inst 0).st = .absent ∧ ((s.setRing 1048575 { Ring.absent with st := .frozen }).ring 1048575).st = .frozen ∧
     fld (0x00001234000FFFFF : DWord) 0 20 = 1048575 ∧ (0x00001234000FFFFF : DWord) &&& 0xFFFF0000FFF00000 = 0 ∧
     (0x0010000000000000 : DWord) &&& 0xFFFF0000FFF00000 ≠ 0) ∧
    (let s := (runState.setRing 1 { Ring.absent with
       st := .active, ctx := BitVec.ofNat 512 (at' 2 32 + at' 6 40) }).setRing 0xFFFFF { Ring.absent with
       st := .active, p := 1, unnotified := 1, ctx := BitVec.ofNat 512 (0xFFFFF + at' 6 40 + at' 1 50 + at' 1 192 + at' 1 272) }
     s.fetches 0xFFFFF 0 = false ∧ fetching.fetches 0xFFFFF 0 = true ∧ 0 < (s.ring 0xFFFFF).unnotified ∧ bit (s.ring 0xFFFFF).ctx 50 = true) ∧
    ((withOp upState 0xFFFFF 3 0).opRuns 0xFFFFF 3 0 false (opOf 3 0) = true) ∧
    ((withOp upState 0xFFFFF 3 0x1001).opRuns 0xFFFFF 3 0x1001 false (opOf 3 0x1001) = true) ∧
    ((withOp upState 0xFFFFF 3 0x1002).opRuns 0xFFFFF 3 0x1002 false (opOf 3 0x1002) = true) ∧
    ((withOp upState 0xFFFFF 3 0x2001).opRuns 0xFFFFF 3 0x2001 false (opOf 3 0x2001) = true) ∧
    (withOp upState 0xFFFFF 3 0x2001).qpOfRq 0xFFFFF = none ∧ (withOp upState 0xFFFFF 3 0).qpOfSq 0xFFFFF = none ∧
    (runState.blockHeld 3 = false ∧ runState.rxRing (pktOf 64) = none) ∧
    (let s := (runState.setDeliver 0 0x800FFFFF).setRing 0xFFFFF { Ring.absent with
       st := .active, buffers := [0], ctx := BitVec.ofNat 512 (at' 1 32) }
     s.rxRing (pktOf 64) = some 0xFFFFF ∧ s.rxLive 0xFFFFF = true ∧ (s.ring 0xFFFFF).buffers = [0] ∧ s.rings.rxWait = []) ∧
    runState.rxLive 0xFFFFF = false := by decide +kernel

theorem witness_RingCommands :
    (let ctx := leBytes 8 (0xFFFFF + at' 2 32 + at' 15 40) ++ List.replicate 56 0
     let c := openCmd 0x20 3 0 (some ctx)
     let s := (runState.setInst 0 { Inst.absent with
       st := .active, alloc := { Inst.absent.alloc with ringBase := 1048512, ringCount := 64, vectors := 1 } }).setOpened 0 [c]
     s.ready 0 3 0x20 c = true ∧ (match s.ctxCheck 0 ctx with | .ok f => decide (f = 0) | .error _ => false) = true ∧
     ctxArgsOk ctx = true ∧ ctxShapeOk (bytesBv 512 ctx) = true ∧ (s.ringFor 0 0xFFFFF).isSome = true ∧
     runState.ringFor 0 0xFFFFF = none ∧ ctxArgsOk (List.replicate 64 0xFF) = false ∧
     ctxShapeOk (bytesBv 512 (List.replicate 64 0)) = false ∧ ctxArgsOk (List.replicate 64 0) = true) ∧
    (∀ code ∈ [0x21, 0x22, 0x23], (withCmd runState 0 code 0xFFFFF none).ready 0 3 code (openCmd code 3 0xFFFFF none) = true) ∧
    (let k := { Ring.absent with st := .bmLost, ops := [opOf 1 0], buffers := [BitVec.ofNat 512 (at' 7 16)] }
     descTag (opOf 1 0).desc = 0 ∧ (k.buffers ++ k.lent).map descTag = [7] ∧ (runState.fn 0).bme = true ∧ k.st = .bmLost) ∧
    (BitVec.ofNat 16 5 ∈ [(5 : BitVec 16)].take { Ring.absent with p := 1 }.fill ∧ runState.hostStop 0 = none) ∧
    ({ Ring.absent with st := .destroying }.outstanding = 0) ∧
    (withCmd runState 0 0x24 0x4FFFFF none).ready 0 3 0x24 (openCmd 0x24 3 0x4FFFFF none) = true ∧
    (∀ code ∈ [0x21, 0x22], (withCmd runState 0 code 0x100000 none).ready 0 3 code (openCmd code 3 0x100000 none) = true) ∧
    (withCmd runState 0 0x24 0x500000 none).ready 0 3 0x24 (openCmd 0x24 3 0x500000 none) = true ∧
    (withCmd runState 0 0x24 0xC00000 none).ready 0 3 0x24 (openCmd 0x24 3 0xC00000 none) = true ∧
    ctxType (BitVec.ofNat 512 (at' 3 32)) = 3 ∧
    (runState.blockHeld 3 = false ∧ (runState.ringObject 2 262143).isSome = true ∧ runState.ringObject 2 262144 = none) := by decide +kernel

/-- Queue pair 5 of function 0 in state `st`, its submission ring 1 with one fetched operation of code `op`. -/
def qpState (st : QpSt) (op : Nat) : State :=
  (withOp runState 1 0 (BitVec.ofNat 512 (op + at' 8 32))).setQp 5 { Qp.absent with
    gen := 3, st := st, sqRing := 1, flags := 1, paths := 4, mtu := 5, retry := 0x77 }

/-- Queue pair `i` named by the QP_MODIFY block `b` or the handle in `arg`, its command open on the manager's channel 0. -/
def qpCmd (st : QpSt) (code arg : Nat) (b : Option Bytes) : State := (qpState st 0x3001).setOpened 0 [openCmd code 3 arg b]

/-- Queue pair 5's context in the cache. -/
def cachedFive (s : State) : State := s.setQpcCache [5]

theorem witness_RdmaOperations :
    (∀ op ∈ [0, 0x3001, 0x3002, 0x3003, 0x3004, 0x3005, 0x3006, 0x3007, 0x3010, 0x3011],
      (qpState .rts op).rdmaRuns 1 0 op 5 (opOf 0 (BitVec.ofNat 512 (op + at' 8 32))) ((qpState .rts op).qp 5) = true ∧
      (qpState .error op).opReady 1 0 op = some (opOf 0 (BitVec.ofNat 512 (op + at' 8 32))) ∧
      (qpState .error op).qpOfSq 1 = some (5, (qpState .error op).qp 5) ∧ ((qpState .error op).qp 5).st = .error) ∧
    (let o := { opOf 0 (BitVec.ofNat 512 (0x3001 + at' 8 32)) with verdict := some 0x2060 }
     let s := (qpState .rts 0x3001).setRing 1 { Ring.absent with st := .active, ops := [o] }
     s.opReady 1 0 0x3001 = some o ∧ s.qpOfSq 1 = some (5, s.qp 5) ∧ (s.qp 5).st = .rts) ∧
    (let d := BitVec.ofNat 512 (0x3006 + at' 8 32 + at' 4 128); descB d % 8 ≠ 0) ∧
    (let d := BitVec.ofNat 512 (0x3010 + at' 1099511627776 256)
     fld d 256 64 = 2 ^ 40 ∧ fld (BitVec.ofNat 512 0x3010) 256 64 = 0) ∧
    (let d := BitVec.ofNat 512 (0x3010 + at' 1 256)
     let s := (withOp runState 1 0 d).setQp 5 { Qp.absent with st := .rts, sqRing := 1 }
     s.rdmaRuns 1 0 0x3010 5 (opOf 0 d) (s.qp 5) = true ∧ fld d 256 64 = 1 ∧ (s.mr 7).valid = false) ∧
    (let d := BitVec.ofNat 512 (0x3011 + at' 0x1202 192)
     let s := ((withOp runState 1 0 d).setQp 5 { Qp.absent with st := .rts, sqRing := 1 }).setMr 0x12
       { Mr.empty with valid := true, gen := 2 }
     s.rdmaRuns 1 0 0x3011 5 (opOf 0 d) (s.qp 5) = true ∧ fld d 192 32 = 0x1202 ∧ (s.mr 0x12).valid = true) := by decide +kernel

theorem witness_QueuePairs :
    (let b := leBytes 12 (at' 1 24) ++ leBytes 4 0x10 ++ leBytes 4 0xFFFFF ++ List.replicate 12 0
     let s := ((runState.setInst 0 { Inst.absent with
       st := .active, alloc := { Inst.absent.alloc with ringBase := 0, ringCount := 64, vectors := 1, qpQuota := 1 } }).setRing 16
         { Ring.absent with st := .active, ctx := BitVec.ofNat 512 (at' 3 272) }).setOpened 0 [openCmd 0x68 3 0 (some b)]
     s.ready 0 3 0x68 (openCmd 0x68 3 0 (some b)) = true ∧ s.qpArgsOk 0 (padTo 32 b) = true ∧ s.qpRing 0 16 0 = none ∧
     s.qpRing 0 17 0 = some 0x3091 ∧ s.newQpIndex false = some 2 ∧
     (s.qpsOf 0).length = 0 ∧ s.drew.qpcRoom.2 = true ∧ s.qpArgsOk 0 (List.replicate 32 0xFF) = false) ∧
    (∀ st ∈ [QpSt.reset, .init, .rtr, .rts, .error], ∀ n ∈ [0, 1, 2, 3, 4],
      let b := leBytes 52 (3 * 2 ^ 18 + 5 + at' n 32 + at' 5 40)
      let s := cachedFive (qpCmd st 0x69 0 (some b))
      s.ready 0 3 0x69 (openCmd 0x69 3 0 (some b)) = true ∧ s.qpNamed 0 (leAt (padTo 52 b) 0 4) = some (5, true) ∧
      ((s.useQpc 5).qp 5).st = st ∧ leAt b 4 1 = n ∧ leAt b 5 1 = 5) ∧
    ((qpCmd .error 0x69 0 none).qpNamed 0 6 = none ∧ (qpCmd .error 0x69 0 none).qpNamed 9 (3 * 2 ^ 18 + 5) = some (5, false) ∧
     (runState.setQp 5 { Qp.absent with st := .error }).qpBusy 5 = false ∧
     ((cachedFive (qpState .error 0x3001)).useQpc 5).qpBusy 5 = true ∧ addrOk false 0xFFFFFFFF = true) ∧
    (qpCmd .rts 0x6A 67108864 none).ready 0 3 0x6A (openCmd 0x6A 3 67108864 none) = true ∧
    (qpCmd .rts 0x6A (3 * 2 ^ 18 + 5) none).ready 0 3 0x6A (openCmd 0x6A 3 (3 * 2 ^ 18 + 5) none) = true ∧
    (runState.blockHeld 12 = false ∧ (runState.rteObject 3 1048575).isSome = true ∧ runState.rteObject 3 1048576 = none ∧
     runState.rteObject 4 0 = none) := by decide +kernel

theorem witness_RdmaTraffic :
    (let p := pktOf 64
     let s := { runState with rte := { runState.rte with input := [p] } }
     s.rte.input = [p] ∧ s.blockHeld 12 = false ∧ rteGsi p = none ∧
     (match rteParse p with | .error w => decide (w = 0) | .ok _ => false) = true ∧
     (s.wr R.CLKRST_BLOCK_RESET (BitVec.ofNat 64 (2 ^ 12))).blockHeld 12 = true) ∧
    (let h := beBytes 1 0x10 ++ beBytes 1 0x10 ++ beBytes 6 0 ++ beBytes 4 (3 * 2 ^ 18 + 5) ++ List.replicate 36 0
     let b := h ++ beBytes 4 (crc32c h).toNat
     let p := { pktOf 0 with sp := spSet (spSet spReset SP.L4_TYPE 6) SP.L4_OFF 0, bytes := beBytes 4 0 ++ beBytes 2 60 ++ beBytes 2 0 ++ b }
     let s := { qpState .rts 0x3001 with rte := { (qpState .rts 0x3001).rte with input := [p] } }
     (match rteParse p with | .ok r => decide (r.index = 5) && decide (r.gen = 3) | .error _ => false) = true ∧
     rteGsi p = none ∧ (s.qp 5).gen.toNat = 3 ∧ (s.qp 5).st ≠ .absent ∧ (s.qp 5).multipath = true ∧ 5 ∉ s.rte.cached) ∧
    ((qpState .rts 0x3001).hostStop 0 = none ∧ ((qpState .rts 0x3001).qp 5).partition.toNat % 2 ^ 24 = 0) ∧
    (let m : Mr := { Mr.empty with valid := true, gen := 1, base := 16, len := 16, access := 2 }
     let s := runState.setMr 1048575 m
     let key := 1048575 * 256 + 1
     s.mrCheck Qp.absent key 16 16 1 = none ∧ s.mrCheck Qp.absent key 16 17 1 = some 5 ∧ s.mrCheck Qp.absent key 15 1 1 = some 5 ∧
     s.mrCheck Qp.absent key 16 16 0 = some 4 ∧ s.mrCheck { Qp.absent with pd := 1 } key 16 16 1 = some 3 ∧
     s.mrCheck Qp.absent (key + 1) 16 16 1 = some 2 ∧ s.mrCheck Qp.absent 0 16 16 1 = some 1) ∧
    (let s := { qpState .rts 0x3001 with rte := { (qpState .rts 0x3001).rte with
       fetching := [5], layby := [⟨6, pktOf 64, 0⟩, ⟨5, pktOf 64, 0⟩] } }
     s.reads (.context 5) = false ∧ s.tagOf (.context 5) = none ∧
     (let x : HTag := ⟨0, 5, 256, ⟨0, none, .context 5, 0x1000, 0⟩, none⟩
      { s with hiu := { s.hiu with tags := [x] } }.tagOf (.context 5) = some x) ∧ 5 ∈ s.rte.fetching ∧ (s.laybyOf 5).length = 1 ∧ (s.qp 5).st ≠ .absent) ∧
    (let q := { (qpState .rts 0x3001).qp 5 with unacked := 1, timerOn := true, rate := 8000, retryCount := 7 }
     let s := (qpState .rts 0x3001).setQp 5 q
     s.qp 5 = q ∧ q.st ∈ [QpSt.rtr, .rts] ∧ q.retryCount.toNat = fld q.retry 0 4 ∧ q.rnrPsn = none) ∧
    (let m : RMsg := ⟨0, 900, 8192, 4096, 0, false, false, false, false, 0, 0⟩
     let s := (qpState .rts 0x3001).setQp 5 { (qpState .rts 0x3001).qp 5 with msgs := [m] }
     (s.setTracker 65535 (some ⟨5, false, 900, 8192, 4096, 0, 0⟩)).tracker 65535 = some ⟨5, false, 900, 8192, 4096, 0, 0⟩ ∧
     (s.qp 5).msgs = [] ++ m :: [] ∧ m.first = 900 ∧ 0 < m.total ∧ m.whole = false) := by decide +kernel

/-- Function 0 with persona STORAGE, its instance ACTIVE, its controller READY with queues 0 and 1 of 16 entries. -/
def nvState : State :=
  let s := runState.setInst 0 { Inst.absent with
    st := .active, persona := 1, alloc := { Inst.absent.alloc with nvmeIoq := 2, vectors := 2 } }
  let s := s.setCtrl 0 { Ctrl.reset with st := .ready, cc := 0x460001 }
  let s := (s.setNvSq 0 0 { NvQueue.absent with live := true, size := 16, tail := 1 }).setNvCq 0 0 { NvQueue.absent with live := true, size := 16 }
  s.setNvCq 0 1 { NvQueue.absent with live := true, size := 16 }

/-- The command of slot 7, fetched from queue `q` of function 0, with opcode, NSID and dwords 10 to 12. -/
def nvCmd (q op nsid d10 d11 d12 : Nat) : NCmd :=
  ⟨7, 0, q, BitVec.ofNat 512 (op + at' 9 16 + at' nsid 32 + at' d10 320 + at' d11 352 + at' d12 384), [], [], [], none, false⟩

/-- That state with one command in its slot. -/
def withNv (c : NCmd) : State := { nvState with sce := { nvState.sce with cmds := [c] } }

theorem witness_StorageControllers_fetch : nvState.sqTurn 0 = some (0, some 1) ∧ (nvState.ctrl 0).slotWait = false ∧
    (nvState.ctrl 0).st = .ready ∧ (nvState.inst 0).st = .active ∧ nvState.canRead 0 = true ∧ nvState.sce.cmds.length < 262144 :=
  ⟨by decide +kernel, by decide +kernel, by decide +kernel, by decide +kernel,
    canRead_idle (by decide +kernel) (by decide +kernel), by decide +kernel⟩

theorem witness_StorageControllers :
    (let s := nvState.setCtrl 0 { Ctrl.reset with aqa := 0xFFF0FFF }
     s.barOpen 0 = true ∧ s.isStorage 0 = true ∧ bit (s.ctrl 0).cc 0 = false ∧ (s.ctrl 0).enableOk 0x460001 = true ∧
     (s.ctrl 0).enableOk 0x460011 = false ∧ (s.inst 0).st = .active) ∧
    (runState.barOpen 0 = true ∧ runState.isStorage 0 = false ∧ nvState.barOpen 0 = true ∧ (0x3008 : BitVec 14).toNat = 0x3008) ∧
    (bit (nvState.ctrl 0).cc 0 = true ∧ (nvState.ctrl 0).st = .ready ∧ fld (BitVec.ofNat 32 0x464001) 14 2 = 1) ∧
    ((nvState.nvSq 0 0).live = true ∧ (nvState.nvSq 0 0).head ≠ (nvState.nvSq 0 0).tail ∧ (nvState.nvSq 0 1024).live = false ∧
     (nvState.nvCq 0 1).size = 16 ∧ nvState.hostStop 0 = none ∧ nvState.sce.cmds.length < 262144 ∧ nvSupported true 0 = true ∧ nvSupported true 4 = false) ∧
    ((BitVec.ofNat 14 0x3004).toNat = 0x1004 + 8 * 1024) ∧
    (let c := nvCmd 0 0x05 0 0x3FFF0002 0x10001 0
     (withNv c).nvRuns 7 false 0x05 c = true ∧ (withNv c).qidOk 0 2 = true ∧ c.dw 10 % 65536 = 2 ∧ c.dw 10 / 65536 = 16383 ∧
     c.dw 11 / 65536 < (withNv c).vectors 0 ∧ c.dw 11 % 2 = 1 ∧ ((withNv c).nvCq 0 2).live = false) ∧
    (let c := nvCmd 0 0x01 0 0x10002 0x10001 0
     (withNv c).nvRuns 7 false 0x01 c = true ∧ (withNv c).qidOk 0 (c.dw 11 / 65536) = true ∧
     ((withNv c).nvCq 0 (c.dw 11 / 65536)).live = true) ∧
    (let c := nvCmd 0 0x00 0 1 0 0
     let s := (withNv c).setNvSq 0 1 { NvQueue.absent with live := true, cq := 1 }
     s.nvRuns 7 false 0x00 c = true ∧ s.qidOk 0 1 = true ∧ (s.nvSq 0 1).live = true) ∧
    (let c := nvCmd 0 0x04 0 1 0 0
     (withNv c).nvRuns 7 false 0x04 c = true ∧ ((withNv c).nvCq 0 1).live = true) := by decide +kernel

theorem witness_StorageAdmin :
    (let c := nvCmd 0 0x02 0 0x03 0 0
     (withNv c).nvRuns 7 false 0x02 c = true ∧ ((withNv c).logPage 0 (c.dw 10 % 256)).isSome = true ∧
     ((withNv c).logPage 0 0x06).isNone = true) ∧
    (let c := nvCmd 0 0x06 0 1 0 0
     (withNv c).nvRuns 7 false 0x06 c = true ∧ c.dw 10 % 256 = 1 ∧
     (dptrRanges (BitVec.ofNat 512 (at' 0x1000 192)) 4096 4096 []).toOption = some [(0x1000, 4096)] ∧
     (withNv c).hostStop 0 = none) ∧
    (let c := nvCmd 0 0x08 0 0x90001 0 0
     (withNv c).nvRuns 7 false 0x08 c = true ∧ (withNv c).nvWaiting 0 8 = 0) ∧
    (let c := nvCmd 0 0x09 0 2 2 0
     (withNv c).nvRuns 7 false 0x09 c = true ∧ c.dw 10 % 256 = 2 ∧ c.dw 11 % 32 ≤ 2 ∧ ((withNv c).ctrl 0).psEntry = none ∧
     5 ∉ featureIds) ∧
    (let c := nvCmd 0 0x0A 0 7 0 0
     (withNv c).nvRuns 7 false 0x0A c = true ∧ 1 ≤ ((withNv c).inst 0).alloc.nvmeIoq) ∧
    (let c := nvCmd 0 0x0C 0 0 0 0
     (withNv c).nvRuns 7 false 0x0C c = true ∧ (withNv c).nvWaiting 0 0x0C < 4 ∧ ((withNv c).ctrl 0).events = []) ∧
    (let b := List.replicate 8 (0 : Byte)
     (nvState.setOpened 0 [openCmd 0x6B 3 0 (some b)]).ready 0 3 0x6B (openCmd 0x6B 3 0 (some b)) = true ∧
     nvState.isStorage 0 = true ∧ leAt (padTo 8 b) 2 2 = 0 ∧ nvState.isStorage 4103 = false) ∧
    (let b := leBytes 20 (at' 1024 48 + at' 4095 80 + at' 0xFFFF 96)
     (nvState.setOpened 0 [openCmd 0x6C 3 0 (some b)]).ready 0 3 0x6C (openCmd 0x6C 3 0 (some b)) = true ∧
     leAt b 6 2 = 1024 ∧ nvState.attached 0 1024 = none ∧ leAt b 12 2 = 0xFFFF ∧
     (nvState.setAttached 0 1024 1).attached 0 1024 = some 0) ∧
    (let b := leBytes 48 (4095 + at' 64 32 + at' 16 48) ++ List.replicate 520 (0 : Byte)
     (nvState.setOpened 0 [openCmd 0x6D 3 0 (some b)]).ready 0 3 0x6D (openCmd 0x6D 3 0 (some b)) = true ∧
     backendArgsOk b = true ∧ (nvState.conn 4095).opened = false ∧ backendArgsOk (leBytes 568 4096) = false ∧
     backendArgsOk (leBytes 568 (at' 16 24)) = true) ∧
    (nvState.blockHeld 13 = false ∧ fld (0x40001007 : Word) 0 24 = 4103) := by decide +kernel

theorem witness_StorageIo :
    (let k : Conn := { Conn.closed with opened := true, up := true, blockBytes := 512, mdtsBytes := 131072 }
     let at' := fun (c : NCmd) => (((withNv c).setNsEntry 9 ⟨true, false, 3, 0xFFFF, 1, false⟩).setAttached 0 1024 10).setConn 3 k
     (∀ f ∈ List.range 10, f ∈ [0, 1, 2, 8, 9] →
       (at' (nvCmd 1 f 1024 0 4 4095)).nvRuns 7 true f (nvCmd 1 f 1024 0 4 4095) = true) ∧
     (at' (nvCmd 1 2 1024 0 0 4095)).attached 0 1024 = some 9 ∧ (at' (nvCmd 1 2 1024 0 0 4095)).nsPath ⟨true, false, 3, 0xFFFF, 1, false⟩ = some 3 ∧
     ((at' (nvCmd 1 2 1024 0 0 4095)).nsEntry 9).readOnly = false ∧
     ((nvCmd 1 2 1024 0 0 4095).dw 12 % 65536 + 1) * ((at' (nvCmd 1 2 1024 0 0 4095)).conn 3).blockBytes = 2097152 ∧
     ((nvCmd 1 2 1024 0 0 4096).dw 12 % 65536 + 1) * 512 = 2097152 + 512 ∧ (nvCmd 1 9 1024 0 4 0).dw 11 % 8 = 4) ∧
    ((dptrRanges (BitVec.ofNat 512 (Sys2Proof.Machine.at' 0x1000 192)) 4096 512 []).toOption = some [(0x1000, 512)] ∧
     (dptrRanges (BitVec.ofNat 512 (Sys2Proof.Machine.at' 1 192)) 4096 512 []).toOption = none) ∧
    ((withNv (nvCmd 1 2 5 0 0 0)).nvRuns 7 true 2 (nvCmd 1 2 5 0 0 0) = true ∧ nvState.attached 0 5 = none ∧
     nvState.nsPath ⟨true, false, 3, 0xFFFF, 1, false⟩ = none) ∧
    (let p : NPiece := ⟨0, 1, 3, false, none⟩
     let c := { nvCmd 1 2 5 0 0 0 with pieces := [{ p with result := some 0 }, p] }
     (withNv c).cmd 7 = some c ∧ c.pieces[1]? = some p ∧ p.result = none ∧ c.op = 2) ∧
    (let c : Conn := { Conn.closed with opened := true, connecting := true }
     ((nvState.setConn 4095 c).conn 4095) = c ∧ c.waiter = none) ∧
    (let c : Conn := { Conn.closed with opened := true, up := true, unacked := [1], timeouts := 6 }
     ((nvState.setConn 4095 c).conn 4095).up = true ∧ c.unacked ≠ [] ∧ 6 ≤ c.timeouts) ∧
    (((nvState.setNsEntry 65535 ⟨true, false, 3, 0xFFFF, 1, false⟩).nsEntry 65535).used = true) ∧
    (let s := { nvState with sce := { nvState.sce with input := [pktOf 64] } }
     s.sce.input = [pktOf 64] ∧ s.blockHeld 13 = false ∧ s.connOf (pktOf 64) = none ∧
     (s.wr R.CLKRST_BLOCK_RESET (BitVec.ofNat 64 (2 ^ 13))).blockHeld 13 = true) ∧
    (let p := { pktOf 64 with sp := spSet spReset SP.L4_TYPE 1, bytes := List.replicate 13 0 ++ [2] ++ List.replicate 50 0 }
     let s := nvState.setConn 0 { Conn.closed with opened := true, connecting := true }
     s.connOf p = some 0 ∧ (s.conn 0).connecting = true ∧ beAt p.bytes (spGet p.sp SP.L4_OFF + 13) 1 / 2 % 2 = 1) ∧
    (let p := { pktOf 64 with sp := spSet spReset SP.L4_TYPE 1, bytes := List.replicate 64 0 }
     let s := nvState.setConn 0 { Conn.closed with opened := true, up := true }
     let old := nvState.setConn 0 { Conn.closed with opened := true, up := true, rcvNxt := 1 }
     s.connOf p = some 0 ∧ (s.conn 0).up = true ∧ beAt p.bytes (spGet p.sp SP.L4_OFF + 13) 1 / 2 % 2 = 0 ∧
     ((0 : Word) - (s.conn 0).rcvNxt).toNat = 0 ∧ ((0 : Word) - (old.conn 0).rcvNxt).toNat = 4294967295) ∧
    (let p : NPiece := ⟨0, 1, 3, false, none⟩
     let c := { nvCmd 1 2 5 0 0 0 with pieces := [p] }
     let e : NsEntry := ⟨true, false, 3, 4, 1, false⟩
     let two := ((nvState.setConn 4 { Conn.closed with opened := true, up := true }).setNsEntry 9 e).setAttached 0 5 10
     p.conn = 3 ∧ p.result = none ∧ two.nsEntry ((two.attached c.func c.nsid).getD 0) = e ∧ (two.conn 4).up = true ∧
     (nvState.conn 4).up = false) ∧
    ((nvState.setNsEntry 9 ⟨true, true, 3, 4, 1, true⟩).nsEntry 9).readOnly = true := by decide +kernel

theorem witness_CipherAndBuffers :
    (let b := leBytes 8 (1048575 + at' 0x90 56) ++ List.replicate 248 (0 : Byte)
     let s := runState.setOpened 0 [openCmd 0x6E 3 0 (some b)]
     s.ready 0 3 0x6E (openCmd 0x6E 3 0 (some b)) = true ∧ saFieldsOk b = true ∧ leAt b 0 4 = 1048575 ∧ s.maySa 0 1048575 1 = true ∧
     s.maySa 9 1048575 1 = false ∧ (s.sa 1048575).valid = false ∧ saFieldsOk (List.replicate 256 0) = false) ∧
    ((runState.setTxNext 7 3).txNext 7 ≠ 0xFFFFF) ∧
    ((withCmd runState 0 0x6F 1048575 none).ready 0 3 0x6F (openCmd 0x6F 3 1048575 none) = true) ∧
    (({ SaRec.empty with window := 64, seq := 10 }.commit 9).accepts 9 = false ∧ max (10 : Nat) 9 < 11) ∧
    (bit runState.ciph.cores 19 = true ∧ runState.txNext 0 = 0xFFFFF ∧
     (withCmd runState 0 0x6F 1048576 none).ready 0 3 0x6F (openCmd 0x6F 3 1048576 none) = true ∧
     bit ((runState.wr R.HBMC_PATROL_CFG 0).rd R.HBMC_PATROL_CFG) 31 = false ∧ (runState.leafQ 0)[0]? = none) ∧
    (∀ op ∈ [0x5001, 0x5002, 0x5003, 0x5004, 0x5010, 0x5011], (withOp runState 1 0 (BitVec.ofNat 512 (op + at' 8 32))).opRuns 1 0 op true
      (opOf 0 (BitVec.ofNat 512 (op + at' 8 32))) = true) ∧
    (runState.blockHeld 14 = false ∧ fld (0x400FFFFF : Word) 30 2 = 1) ∧
    (bit ((runState.wr R.HBMC_PATROL_CFG 0x80000000).rd R.HBMC_PATROL_CFG) 31 = true ∧ runState.blockHeld 16 = false) ∧
    (runState.blockHeld 15 = false ∧ (31 : Nat) / 4 = 524287 % 8) ∧
    (let e : QPkt := ⟨{ pktOf 64 with place := 1 }, 0⟩
     ((runState.setLeafQ 262143 [e]).leafQ 262143)[0]? = some e ∧ e.pkt.cells ≤ runState.stageCells) := by decide +kernel

theorem witness_ClocksAndResets :
    (runState.inReset = false ∧ { State.reset with clk := { ClkState.reset with dev := .coldHeld } }.inReset = true) ∧
    (fld (0x57520001 : Word) 16 16 = 0x5752 ∧ bit (0x57520001 : Word) 0 = true) ∧
    (runState.linkThere 0 = true ∧ (runState.link 0).perst = false ∧ runState.hiu.perstFull = false ∧ (runState.link 0).dlUp = true ∧
     ({ runState with hiu := { runState.hiu with perstFull := true } }).linkThere 0 = true ∧
     (runState.setLink 0 { runState.link 0 with dlUp := false }).linkThere 0 = true) ∧
    ((runState.warmReset 5).clk.dev = .warmHeld ∧ (runState.warmReset 1).clk.lock = true) ∧
    ((runState.coldReset 1).clk.dev = .coldHeld ∧ (runState.coldReset 1).clk.suppliesValid = true ∧ bit (0x1FF : BitVec 12) 9 = false) ∧
    (let s := { State.reset with clk := { ClkState.reset with dev := .pllLock, lock := false } }
     s.clk.lock = false ∧ s.tether.trip = none ∧ s.clk.unlockObj = none) ∧
    ((runState.lockLost 1 6).clk.unlockObj = some 1 ∧ (runState.lockLost 1 6).clk.lock = false ∧ (runState.lockLost 1 6).tether.trip = none) ∧
    (((392000 : Int) - 400000).natAbs * 50 ≤ 400000 ∧ 400000 < ((391999 : Int) - 400000).natAbs * 50) ∧
    (runState.linkThere 3 = false ∨ (runState.link 3).perst = true) ∧
    (runState.clk.dev ≠ .warmHeld ∧ runState.clk.dev ≠ .coldHeld ∧ runState.clk.lock = true ∧ bit (0x200 : BitVec 12) 9 = true ∧
     (runState.lockLost 0 5).clk.lock = false) ∧
    (blockCan 28 = true ∧ runState.blockHeld 28 = false ∧ (runState.wr R.CLKRST_BLOCK_RESET 0x10000000).blockHeld 28 = true ∧
     blockCan 22 = false) := by decide +kernel

theorem witness_TetherAndRecorder :
    (let s := { State.reset with clk := { ClkState.reset with dev := .tetherStart } }
     s.tether.boardTest = false ∧ s.tether.mapFlash = [] ∧ s.boot.fuse.factory = []) ∧
    ((runState.cwayPlan []).healthy = 5 ∧ (runState.cwayPlan [0, 1, 4]).healthy = 2) ∧
    (runState.rdf R.TETHER_THERM_STATUS 30 2 = 0 ∧ runState.rdf R.TETHER_THERM_CFG 24 8 = 115) ∧
    (runState.tether.trip = none ∧ runState.clk.dev ≠ .coldHeld) ∧
    ((runState.tripStart true 0 1800 0).tether.trip.isSome = true ∧ railWithin 0 1800 5 = true ∧
     (runState.tripStart true 0 1800 0).inReset = true) ∧
    (runState.trialArmed = false ∧ runState.tether.marks = [] ∧ 6 ∉ watchedBlocks ∧ runState.tether.boardTest = false ∧
     State.reset.kite.fw ∉ [.running, .maintenance]) ∧
    (runState.kite.fw ∈ [.running, .maintenance] ∧ (runState.page tetherCh).cmd = none ∧
     (List.range 16).find? (fun i => !bit (runState.page tetherCh).seqOpen i) = some 0) ∧
    (runState.inReset = false ∧ runState.tether.startRuns = true ∧ runState.kite.fw ≠ .recovery ∧
     (runState.wr R.TETHER_TRIAL 0x40000000).trialArmed = true ∧ bit ((runState.wr R.TETHER_TRIAL 0x40000000).rd R.BOOT_TRIAL) 30 = false) ∧
    ((List.range 1024).find? (fun i => mapGet (fun _ => (0 : DWord)) runState.tether.mapFlash i == 0) = some 0) ∧
    (23 ∈ watchedBlocks ∧ runState.blockHeld 23 = false ∧ runState.clocked 23 = true) ∧
    (runState.obs.pendCnt = [] ∧ runState.obs.queue = []) ∧
    ((withCmd runState 0 0x82 0 (some [3])).ready 0 3 0x82 (openCmd 0x82 3 0 (some [3])) = true ∧ runState.manager = 0 ∧
     (withCmd runState 0 0x82 0 (some [4])).ready 0 3 0x82 (openCmd 0x82 3 0 (some [4])) = true ∧
     (withCmd runState 5 0x82 0 (some [3])).ready 5 3 0x82 (openCmd 0x82 3 0 (some [3])) = true) := by decide +kernel

/-- A state whose primary flash holds one good ledger copy: slot A CANDIDATE, its trial unused; slot A runs. -/
def candState : State :=
  { runState with boot := { runState.boot with
    running := some 0
    flash0 := [(0, 0x52), (1, 0x47), (2, 0x44), (3, 0x4C), (16, 2), (17, 0), (252, 0x88), (253, 0x64), (254, 0xC4), (255, 0xE5)] } }

theorem crcFrom_append (p c : Word) (a b : Bytes) : crcFrom p c (a ++ b) = crcFrom p (crcFrom p c a) b := List.foldl_append

theorem cand_bytes : (candState.ledgerCopy 0).take 252 = [0x52, 0x47, 0x44, 0x4C] ++ List.replicate 12 0xFF ++ [2, 0] ++
    List.replicate 18 0xFF ++ List.replicate 36 0xFF ++ List.replicate 36 0xFF ++ List.replicate 36 0xFF ++
    List.replicate 36 0xFF ++ List.replicate 36 0xFF ++ List.replicate 36 0xFF := by decide +kernel

theorem cand_crc0 : crcFrom polyC 0xFFFFFFFF ([0x52, 0x47, 0x44, 0x4C] ++ List.replicate 12 0xFF ++ [2, 0] ++
    List.replicate 18 0xFF) = 0x1DE815BE := by decide +kernel

theorem cand_crc1 : crcFrom polyC 0x1DE815BE (List.replicate 36 0xFF) = 0x9D5AF605 := by decide +kernel

theorem cand_crc2 : crcFrom polyC 0x9D5AF605 (List.replicate 36 0xFF) = 0xE96CFE3D := by decide +kernel

theorem cand_crc3 : crcFrom polyC 0xE96CFE3D (List.replicate 36 0xFF) = 0x4500D31A := by decide +kernel

theorem cand_crc4 : crcFrom polyC 0x4500D31A (List.replicate 36 0xFF) = 0x4E6AAF85 := by decide +kernel

theorem cand_crc5 : crcFrom polyC 0x4E6AAF85 (List.replicate 36 0xFF) = 0x09EFBCE3 := by decide +kernel

theorem cand_crc6 : crcFrom polyC 0x09EFBCE3 (List.replicate 36 0xFF) = 0x1A3B9B77 := by decide +kernel

theorem cand_crc : crc32c ((candState.ledgerCopy 0).take 252) = 0xE5C46488 := by
  rw [cand_bytes]
  simp only [crc32c, crcFrom_append _ _ _ (List.replicate 36 0xFF), cand_crc0, cand_crc1, cand_crc2, cand_crc3, cand_crc4,
    cand_crc5, cand_crc6]
  decide

theorem cand_good : ledgerGood (candState.ledgerCopy 0) = true := by
  have h1 : leAt (candState.ledgerCopy 0) 0 4 = 0x4C444752 := by decide +kernel
  have h2 : leAt (candState.ledgerCopy 0) 252 4 = 0xE5C46488 := by decide +kernel
  simp only [ledgerGood, h1, h2, cand_crc]
  decide

theorem cand_bad1 : ledgerGood (candState.ledgerCopy 1) = false := by
  have h : leAt (candState.ledgerCopy 1) 0 4 = 0xFFFFFFFF := by decide +kernel
  simp [ledgerGood, h]

/-- A good ledger read has slot A as the running CANDIDATE, its trial unused. -/
theorem cand_ledger : candState.ledger = candState.ledgerCopy 0 := ledger_first cand_good cand_bad1

theorem cand_running : candState.runningCandidate = some 0 := by
  have h : slotState (candState.ledgerCopy 0) 0 = 2 := by decide +kernel
  have hr : candState.boot.running = some 0 := rfl
  simp only [State.runningCandidate, hr, cand_ledger, h]
  decide

theorem cand_fresh : candState.freshCandidate = true := by
  have h : slotState (candState.ledgerCopy 0) 0 = 2 := by decide +kernel
  have h2 : bit (slotFlags (candState.ledgerCopy 0) 0) 0 = false := by decide +kernel
  simp [State.freshCandidate, cand_ledger, h, h2]

/-- A state with an image of one segment of 4 bytes in the staging buffer (Tables 20-3 and 20-4). -/
def stagedState : State :=
  { runState with hbm := { runState.hbm with byte :=
    [(0x2CC000000, 0x54), (0x2CC000001, 0x4C), (0x2CC000002, 0x48), (0x2CC000003, 0x57), (0x2CC000004, 1), (0x2CC000006, 1),
      (0x2CC000008, 4), (0x2CC000200, 0xC7), (0x2CC000201, 0x4B), (0x2CC000202, 0x67), (0x2CC000203, 0x48),
      (0x2CC000204, 4), (0x2CC000207, 4)] } }

theorem staged_zero (off n : Nat) (h : ∀ e ∈ stagedState.hbm.byte, e.1 < slotBase 3 + off ∨ slotBase 3 + off + n ≤ e.1) :
    allZero (stagedState.imgBytes 3 off n) = true := by
  have : stagedState.imgBytes 3 off n = List.replicate n 0 := mapGetList_unlisted 0 _ n _ h
  rw [this]; simp [allZero]

theorem staged_header : stagedState.headerOk 3 = true := by
  have h1 : stagedState.imgSegs 3 = 1 := by decide +kernel
  have z1 := staged_zero 21 3 (by decide +kernel)
  have z2 := staged_zero 36 28 (by decide +kernel)
  have z3 := staged_zero 112 304 (by decide +kernel)
  have z4 := staged_zero 520 15864 (by decide +kernel)
  have z5 := staged_zero 17152 48384 (by decide +kernel)
  have f1 : ([0, 4, 8, 12, 14, 15, 16, 20, 32].map (fun o => stagedState.imgField 3 o (if o = 4 ∨ o = 12 then 2 else
    if o = 14 ∨ o = 15 ∨ o = 20 then 1 else 4))) = [0x57484C54, 1, 4, 0, 0, 0, 0, 0, 0] := by decide +kernel
  have f2 : stagedState.segLen 3 0 = 4 := by decide +kernel
  have f3 : stagedState.segOk 3 1 0 = true := by decide +kernel
  simp only [List.map_cons, List.cons.injEq] at f1
  simp at f1
  simp [State.headerOk, h1, z1, z2, z3, z4, z5, f1, f2, f3]

theorem staged_passes : (stagedState.imageCheck 3).1 = none := by
  have h2 : stagedState.crcsOk 3 = true := by decide +kernel
  have he : stagedState.enforced = false := by decide +kernel
  have hf : (stagedState.findings 3).find? (fun e => e.1 && stagedState.enforced) = none := by simp [he]
  simp only [State.imageCheck, staged_header, h2, hf, Bool.not_true, Bool.false_eq_true, if_false]

theorem witness_BootAndImages :
    (State.reset.kite.fw = .absent ∧ State.reset.inReset = false ∧
     ({ State.reset with boot := { State.reset.boot with fuse := { State.reset.boot.fuse with orderOverride := true, order := 6 } } }).inReset
       = false) ∧
    (runState.bootWrites = true ∧ fld (0x43430001 : Word) 16 16 = 0x4343 ∧ bit (0x43430001 : Word) 0 = true) ∧
    (let s := { runState with kite := { runState.kite with fw := .booting } }
     let t := ((s.wr R.BOOT_STATUS 0x30000000).wrf R.BOOT_CTL_RELEASE 1 3 (s.rdf R.BOOT_CTL_RELEASE 1 3 ||| fld (0xE : Word) 1 3))
     (s.wr R.BOOT_STATUS 0x30000000).bootWrites = true ∧ t.rdf R.BOOT_STATUS 28 4 = 3 ∧ t.rdf R.BOOT_CTL_RELEASE 1 3 = 7) ∧
    (bit (0x80000002 : Word) 31 = true ∧ bit ((runState.wr R.BOOT_MEAS_LOCK 1).rd R.BOOT_MEAS_LOCK) 0 = true ∧
     fld (0x80000002 : Word) 0 4 ∈ lockedSlots ∧ bit (runState.rd R.BOOT_MEAS_LOCK) 0 = false) ∧
    (let b := leBytes 4 8 ++ leBytes 4 4 ++ leBytes 8 0 ++ [1, 2, 3, 4]
     (withCmd runState 0 0x70 0 (some b)).ready 0 3 0x70 (openCmd 0x70 3 0 (some b)) = true ∧ leAt b 0 4 = 8 ∧ leAt b 4 4 = 4 ∧
     runState.boot.pldm = false ∧ runState.boot.pushFrom = none ∧ (withCmd runState 0 0x70 0 (some [])).ready 0 3 0x70 (openCmd 0x70 3 0 (some [])) = true) ∧
    ((withCmd runState 0 0x71 1 none).ready 0 3 0x71 (openCmd 0x71 3 1 none) = true ∧
     (withCmd runState 0 0x71 1 none).ledgerFind.headerOk 3 = false ∧
     (withCmd runState 0 0x71 3 none).ready 0 3 0x71 (openCmd 0x71 3 3 none) = true ∧ runState.boot.commit = none ∧
     runState.ledgerFind.slotBusy 1 = false ∧ (withCmd stagedState 0 0x71 2 none).ready 0 3 0x71 (openCmd 0x71 3 2 none) = true ∧
     (withCmd stagedState 0 0x71 2 none).ledgerFind.slotBusy 2 = false) ∧
    (({ runState with boot := { runState.boot with commit := some ⟨1, some (0, 3), 0⟩ } }).boot.commit = some ⟨1, some (0, 3), 0⟩) ∧
    ((withCmd runState 0 0x72 0 none).ready 0 3 0x72 (openCmd 0x72 3 0 none) = true ∧
     (withCmd runState 0 0x72 0 none).ledgerFind.runningCandidate = none) ∧
    ((withCmd runState 0 0x73 0 none).ready 0 3 0x73 (openCmd 0x73 3 0 none) = true ∧
     (withCmd runState 0 0x73 0 none).loneCommand = true ∧ runState.pushOn 0 = false ∧ runState.ledgerFind.freshCandidate = false) ∧
    (let s := { runState with kite := { runState.kite with fw := .recovery } }
     (withCmd s 0x1120 0x73 3 none).ready 0x1120 3 0x73 (openCmd 0x73 3 3 none) = true ∧ s.pushOn 0x1120 = true) ∧
    ((withCmd runState 0 0x74 0 (some [])).ready 0 3 0x74 (openCmd 0x74 3 0 (some [])) = true ∧
     512 ≤ outSpace 0 (openCmd 0x74 3 0 (some [])) ∧ State.reset.bootWrites = false ∧ runState.boot.pldm = false ∧
     (withCmd runState 0 0x73 4 none).ready 0 3 0x73 (openCmd 0x73 3 4 none) = true ∧
     (withCmd runState 0 0x75 0 (some [0, 0])).ready 0 3 0x75 (openCmd 0x75 3 0 (some [0, 0])) = true) ∧
    ((3 : BitVec 26).toNat + [(1 : Byte)].length ≤ slotSize ∧ runState.kite.opened = [] ∧ runState.kite.rspQ = []) ∧
    ({ runState with boot := { runState.boot with pldm := true } }.boot.pldm = true ∧
     [0, 1].find? (fun i => !runState.ledgerFind.slotBusy i) = some 0) := by decide +kernel

/-- The clauses of the commit, the confirmation, the activation and the update that need a good image or a good ledger. -/
theorem witness_BootAndImages_images :
    ((withCmd stagedState 0 0x71 2 none).ledgerFind.imageCheck 3).1 = none ∧
    (withCmd candState 0 0x72 0 none).ledgerFind.runningCandidate = some 0 ∧
    (withCmd candState 0 0x73 0 none).ledgerFind.freshCandidate = true ∧
    (withCmd candState 0 0x72 0 none).ready 0 3 0x72 (openCmd 0x72 3 0 none) = true ∧
    (withCmd candState 0 0x73 0 none).ready 0 3 0x73 (openCmd 0x73 3 0 none) = true := by
  refine ⟨?_, ?_, ?_, by decide +kernel, by decide +kernel⟩
  · rw [imageCheck_of (ledgerFind_hbm _) (congrArg BootState.fuse (ledgerFind_boot _)), imageCheck_of (t := withCmd stagedState 0 0x71 2 none) (s := stagedState) rfl rfl]
    exact staged_passes
  · rw [runningCandidate_of_boot (ledgerFind_boot _), runningCandidate_of_boot (t := withCmd candState 0 0x72 0 none) (s := candState) rfl]
    exact cand_running
  · rw [freshCandidate_of_boot (ledgerFind_boot _), freshCandidate_of_boot (t := withCmd candState 0 0x73 0 none) (s := candState) rfl]
    exact cand_fresh

theorem witness_SidebandAnswers :
    ((withCmd runState 0 0x00 0 none).ready 0 3 0x00 (openCmd 0x00 3 0 none) = true ∧
     (withCmd runState 0 0x00 1 none).ready 0 3 0x00 (openCmd 0x00 3 1 none) = true ∧
     (withCmd runState 0 0x01 0 none).ready 0 3 0x01 (openCmd 0x01 3 0 none) = true ∧
     (withCmd runState 0 0x01 1 none).ready 0 3 0x01 (openCmd 0x01 3 1 none) = true ∧
     (withCmd runState 0 0x08 0 (some [0x20, 0x11])).ready 0 3 0x08 (openCmd 0x08 3 0 (some [0x20, 0x11])) = true ∧
     isChannel (leAt [0x20, 0x11] 0 2) = true ∧ isChannel (leAt [0x08, 0x10] 0 2) = false ∧
     (withCmd runState 0 0x08 0 (some [0x08, 0x10])).ready 0 3 0x08 (openCmd 0x08 3 0 (some [0x08, 0x10])) = true ∧
     (withCmd runState 0 0x04 0x2A90000002 none).ready 0 3 0x04 (openCmd 0x04 3 0x2A90000002 none) = true ∧
     fld (openCmd 0x04 3 0x2A90000002 none).arg 43 5 = 0 ∧ fld (openCmd 0x04 3 0x2A90000002 none).arg 24 4 = 0 ∧
     fld (openCmd 0x04 3 0x080000000000 none).arg 43 5 ≠ 0 ∧
     (withCmd runState 0 0x04 0x080000000000 none).ready 0 3 0x04 (openCmd 0x04 3 0x080000000000 none) = true) ∧
    (runState.sbAnswers = true ∧ bit (0x80 : Byte) 7 = true ∧ fld (3 : Byte) 0 2 = 3 ∧ byteAt [0, 0x80, 1] 2 ≠ 2 ∧
     leAt [1, 0x80, 2, 0x11, 26, 0] 4 2 < 27 ∧ 27 ≤ leAt [1, 0x80, 2, 0x11, 27, 0] 4 2 ∧ runState.cfgAnswers 7 = false ∧
     outSpace 0 (openCmd 0x08 3 0 (some [])) = 4096 ∧ runState.doeAnswer 0 3 [] = (runState, none)) ∧
    (runState.spdm ⟨none, none⟩ [0x12, 0xE8] = (runState, [0x12, 0x7F, 0x0B, 0])) ∧
    (let s := { runState with boot := { runState.boot with spdm := [⟨0x00010002, false, none, 0⟩] } }
     (s.session (bytesBv 32 [2, 0, 1, 0])).isSome = true ∧
     (some (0x00010002 : Word)).bind s.session = some ⟨0x00010002, false, none, 0⟩) ∧
    (let s := { runState with boot := { runState.boot with spdm := [⟨0x00010002, true, none, 0⟩] } }
     s.inSession ⟨none, some 0x00010002⟩ = some ⟨0x00010002, true, none, 0⟩ ∧ runState.inSession ⟨none, none⟩ = none) ∧
    (runState.measBusy = false ∧ (runState.warmReset 1).measBusy = true ∧ runState.boot.spdm.length < 8 ∧
     fld (0x80 : Byte) 0 4 = 0) ∧
    (8 ≤ ({ runState with boot := { runState.boot with spdm := List.replicate 8 ⟨1, true, none, 0⟩ } }).boot.spdm.length) ∧
    (spdmLimit ⟨none, none⟩ < (List.replicate 1024 (0 : Byte)).length ∧ [(0 : Byte)].length ≤ spdmLimit ⟨none, some 1⟩) ∧
    (let s := runState.wrf (R.HIU_LINK_CFG 0) 0 1 1
     s.cfgAnswers 0 = true ∧ (s.doeBox 0).error = false ∧
     fld (([0x00000001, 3, 0] : List Word).getD 1 0) 0 18 = ([0x00000001, 3, 0] : List Word).length ∧
     fld (([0x00000001, 3, 0] : List Word).getD 0 0) 0 16 = 1 ∧
     s.doeAnswer (s.fnLink 0) 0 (wordsBytes [0]) = (s, some [1, 0, 0, 1]) ∧
     ((s.setDoe 0 ⟨true, []⟩).doeBox 0).error = true) := by decide +kernel

theorem witness_FusesOnlyBlown :
    Fuses.Kept .blank { Fuses.blank with revoked := 4, svn := 3 } ∧ State.reset.enforced = false ∧
    (∃ t, step { State.reset with pending := [.coldReset] } = .next t) := by
  refine ⟨⟨rfl, rfl, rfl, rfl, rfl, rfl, rfl, by decide, fun k h => ?_⟩, by decide, ⟨_, rfl⟩⟩
  simp [bit, Fuses.blank] at h

/-- Each check of Instr.wf refuses an ill-formed command: host accesses and offsets. -/
theorem test_wf_refuses_accesses :
    [Instr.unalignedAccess 0 false 8 4 false, .unalignedAccess 0 true 8 8 true, .rcRead 2 false, .rcRead 4 true, .registerWrite .firmware 6 false 0,
     .registerWrite .firmware 4 true 0, .registerWrite .firmware 4 false 0x100000000, .registerWrite (.driver 0) 0x10000 false 0,
     .registerWrite (.driver 8) 0x4000 false 0, .registerWrite (.party 0) 0x1000 false 0, .registerWrite (.party 0x1121) 0 false 0,
     .msixUnmask 0 none 4 0 false, .msixUnmask 0 none 0 1 false, .msixUnmask 0 none 0 0 true, .msiUnmask 8 0,
     .fctlIntxStatus 8 0, .doeAbort 8, .doeObject 8 [0, 2], .doeObject 0 [0]].all (fun i => !i.wf) = true := by decide +kernel

/-- The checks on data that comes with a completion, and on lengths and ranges. -/
theorem test_wf_refuses_data :
    [Instr.carriagewayPass 0 0 [3, 3], .carriagewayPass 0 0 (List.replicate 25 0), .lineFrameReceive 0 [] true false,
     .mgmtFrameReceive [] true, .bundleLoad 0 0 (.cpl .ur) [1], .rtePacketReceive [] .linkDown,
     .rtePacketReceive [1] (.cpl .ur), .contextFetchComplete 0 .ok [(.timeout, [1])], .descriptorFetch 0 [] (.cpl .ur),
     .completionReceive 0 0 0 .ca [1],
     .completionReceive 0 0 0 .ok (List.replicate 4097 0), .peerRequest 0 false 0 0 [] false,
     .peerRequest 0 false 0 4097 [] false, .peerRequest 0 false 8388600 16 [] false, .peerRequest 0 true 0 4 [] false,
     .peerRequest 0 true 0 1 [1] true, .atsInvalidate 0 0 none 0 0 0, .atsInvalidate 0 0 none 0xFFFFFFFFFFFFF 2 0,
     .hostLinkUp 0 0 16 false 10, .hostLinkUp 0 7 16 false 10, .hostLinkUp 0 5 3 false 10, .hostLinkUp 0 5 16 false 9,
     .commandBlockRead 0 0 .ur [1], .commandBlockRead 0 0 .ok (List.replicate 65537 0)].all (fun i => !i.wf) = true := by decide +kernel

/-- The checks on storage, clock, self-test, sensor, scan, supply and sideband commands. -/
theorem test_wf_refuses_rest :
    [Instr.sidebandRequest 0x1000000000000 [] none, .sidebandRequest 0 (List.replicate 1025 0) (some 3), .ringAbort 0 0 (List.replicate 65537 0),
     .getLogPage 0 (List.replicate 514 0) (.cpl .ok), .getLogPage 0 [] .timeout,
     .identify 0 (List.replicate 514 0) (.cpl .ok), .identify 0 [] .linkDown, .nvmeRead 0 (List.replicate 514 0) (.cpl .ok),
     .nvmeRead 0 [] (.cpl .ur), .nvmeWrite 0 (List.replicate 514 0) (.cpl .ok) [], .nvmeWrite 0 [] (.cpl .ur) [1],
     .datasetManagement 0 [] .timeout [1],
     .backendCompletion 0 0 1 [1], .clockMeasure [0], .wordCrossingDeliver 3 3 [],
     .selfTest ⟨[1, 1], [], [], true, [], 0⟩, .selfTest ⟨[], [1, 1], [], true, [], 0⟩, .selfTest ⟨[], [], [1, 1], true, [], 0⟩,
     .selfTest ⟨[], [], [], true, [⟨0, 0, true⟩], 0⟩, .selfTest ⟨[], [], [], true, [⟨16, 0, true⟩], 0⟩,
     .tempSample [] false, .supplySample [] [], .setEndpointId [], .getDigests (List.replicate 4097 0), .finish [],
     .requestFirmwareData 0x3FFFFFF [0, 0], .extest [0] [], .samplePreload [] [0], .recorderSample 0 0 0 0 0 1025, .powerUp 256,
     .powerDown 256].all (fun i => !i.wf) = true := by decide +kernel

/-- The lane hash example of chapter 2: client to server, the reply, and the fragments. -/
theorem test_lane_hash_example :
    laneHash 0xC6336417 0xCB00710A (0xC294 ^^^ 0x01BB) 0x2B7A (6 * 0x101) = 0x1ADB ∧
    laneHash 0xCB00710A 0xC6336417 (0x01BB ^^^ 0xC294) 0x2B7A (6 * 0x101) = 0x1ADB ∧
    laneHash 0xC6336417 0xCB00710A 0 0x2B7A (6 * 0x101) = 0x109E := by decide +kernel

/-- The words of the example of chapter 9 do there what it says: 0x20D2303C takes SRC_L4 out of Signpost word 6. -/
theorem test_bfx_example :
    (match exec (.thrBfx 135 7 .clean) ((issuing 0x20D2303C).setReg 135 7 8 0xC29401BB00000000) with
     | .next t => some ((t.reg 135 7 13).toNat, (t.thr 135 7).pc.toNat)
     | _ => none) = some (0xC294, 101) := by decide +kernel

/-- 0x00D36004 is xor p13, p13, s0: 0xC32F with the seed gives 0xE855 (chapter 9, example). -/
theorem test_xor_example :
    (match exec (.thrXor 135 7 .clean) (((issuing 0x00D36004).setReg 135 7 13 0xC32F).setReg 135 7 32 0x2B7A) with
     | .next t => some (t.reg 135 7 13).toNat
     | _ => none) = some 0xE855 := by decide +kernel

/-- mix16 p13, p13 of 0xF67D gives 0x1ADB (chapter 9, example; major opcode 9, function 9). -/
theorem test_mix16_example :
    (match exec (.thrMix16 135 7 .clean) ((issuing (insWord 9 13 13 0 9)).setReg 135 7 13 0xF67D) with
     | .next t => some (t.reg 135 7 13).toNat
     | _ => none) = some 0x1ADB := by decide +kernel

/-- A step on an empty queue adds 2.5 ns, which is 0x2_8000_0000 in units of 2⁻³² ns (R170, chapter 7, example). -/
theorem test_idle_step : (match step State.reset with
    | .next t => some t.line.now.toNat
    | _ => none) = some 0x280000000 := by decide +kernel

/-- The shaper example of chapter 6: a debt of 147,072 units meets PIR 160 and PBS 64; and 30,000 bytes are clamped to 4,096. -/
theorem test_refill_example :
    (TmNode.refill { TmNode.reset 0 with written := ⟨0, 160, 0, 64⟩, inForce := ⟨0, 1600, 0, 512⟩, pLevel := -147072 }).pLevel =
      -146912 ∧
    (TmNode.refill { TmNode.reset 0 with written := ⟨0, 160, 0, 64⟩, inForce := ⟨0, 1600, 0, 512⟩, pLevel := 1920000 }).pLevel =
      262144 := by decide +kernel

/-- The command word of the example of chapter 12 is posted and taken: sequence 5, code 0x40, its block at 0x12_3456_7800
(with Bus Master Enable 0 the read is not sent and the answer is HOST_BM_OFF). -/
theorem test_kite_example :
    (match exec (.klCmdPost 0 0x4025000048D159E0 false) runState with
     | .next s => (match exec (.klTake 0) (s.updFn 0 (fun h => { h with bme := false })) with
       | .next t => some ((t.page 0).seqOpen.toNat, (t.rspQ 0).map BitVec.toNat,
           (blockReadOf 0 (s.openOf 0 0x4025000048D159E0)).addr.toNat)
       | _ => none)
     | _ => none) = some (0x20, [0x4025206000000000], 0x1234567800) ∧
    rspWord (openCmd 0x40 5 0 none) 0 256 = 0x4025000000000100 := by decide +kernel

/-- The crossing example of chapter 18: of four pulses before the delivery two are merged and counted, of the fifth one more. -/
theorem test_event_merge_example :
    (let s := (((State.reset.raise 0x246 noFunc 0 0).raise 0x246 noFunc 0 0).raise 0x246 noFunc 0 0).raise 0x246 noFunc 0 0
     (s.rd R.CLKRST_EVT_MERGE_CNT).toNat = 2 ∧
     (match exec (.eventCrossingDeliver 0x246) s with
      | .next t => ((t.raise 0x246 noFunc 0 0).rd R.CLKRST_EVT_MERGE_CNT).toNat
      | _ => 0) = 3) := by decide +kernel

/-- The detail of an event for FUNC 0x0019 with object 0x12345 and code 0xABCD (Table 1-12). -/
theorem test_event_detail : evDetail 0x19 0x12345 0xABCD = 0x00C812345000ABCD := by decide +kernel

/-- With no boot flash answering and only the primary source listed, Trailhead ends in RECOVERY (R449). -/
theorem test_trailhead_recovery :
    (let s := { State.reset with boot := { State.reset.boot with fuse := { Fuses.blank with orderOverride := true, order := 6 } } }
     match exec (.trailheadStart 0) s with
     | .next t => some (t.kite.fw, t.rdf R.BOOT_STATUS 28 4)
     | _ => none) = some (.recovery, 2) := by decide +kernel

/-- The trip threshold is 115 °C and the start watchdog and the rail band stand at their reset values (Table 19-7). -/
theorem test_tether_resets :
    State.reset.rdf R.TETHER_THERM_CFG 24 8 = 115 ∧ State.reset.rdf R.TETHER_RAIL_CFG 0 8 = 3 ∧
    State.reset.rdf R.TETHER_RAIL_CFG 8 8 = 6 := by decide +kernel

end Sys2Proof.Tests
end

section
/-!
Chapter 0: who reads and writes the device register space and what a read or a write of each access code does (R1, R12 to R19),
and the state after reset.
-/
namespace Sys2Proof.Machine
open Sys2Proof

/-! ### Which accesses are aligned (R12) -/

@[simp] theorem accessOk_four (a : Nat) : accessOk a 4 = decide (a % 4 = 0) := by
  rw [Bool.eq_iff_iff]; simp [accessOk]

@[simp] theorem accessOk_eight (a : Nat) : accessOk a 8 = decide (a % 8 = 0) := by
  rw [Bool.eq_iff_iff]; simp [accessOk]

/-- The accesses that R12 and R302 let pass: aligned ones of 32 or 64 bits, of which the doorbell page takes only the write of
64 bits. -/
theorem accessPasses_iff (a len : Nat) (write db : Bool) :
    (accessOk a len && (!db || (write && len == 8))) = true ↔
      len = 4 ∧ a % 4 = 0 ∧ db = false ∨ len = 8 ∧ a % 8 = 0 ∧ (db = false ∨ write = true) := by
  by_cases h4 : len = 4
  · simp [accessOk, h4]
  · by_cases h8 : len = 8
    · simp [accessOk, h8]
    · simp [accessOk, h4, h8]

@[simp] theorem badAccess_write (s : State) (f len : Nat) : s.badAccess f true len = s.bump R.HIU_BAD_ACCESS_CNT := rfl

@[simp] theorem badAccess_read (s : State) (f len : Nat) : s.badAccess f false len =
    (s.bump R.HIU_BAD_ACCESS_CNT).emit (.completion f 0 (List.replicate len 0)) := rfl

/-- Any other access is turned away where the BAR is open. -/
theorem exec_unalignedAccess_turnedAway {s : State} {f : Fin 4104} {write db : Bool} {a : BitVec 24} {len : Nat}
    (ho : s.barOpen f.val = true) (h : ¬ (len = 4 ∧ a.toNat % 4 = 0 ∧ db = false ∨
      len = 8 ∧ a.toNat % 8 = 0 ∧ (db = false ∨ write = true))) :
    exec (.unalignedAccess f write a len db) s = .next (s.badAccess f.val write len) := by
  have hg := mt (accessPasses_iff a.toNat len write db).mp h
  cases write with
  | false => simp only [exec, execUnalignedAccess, if_neg hg, Bool.false_eq_true, if_false, barRead_open ho]
  | true => simp only [exec, execUnalignedAccess, if_neg hg, if_true, barWrite_open ho]

/-! ### Reads that clear (R16, R17) -/

/-- A manager's read of an RC register outside reset clears it, a 64-bit one only when it is read whole. -/
theorem clearRc_of_rc {s : State} {a e b : Nat} {d : RegDesc} {v : DWord} (hr : s.readAt a = some (d, e, b, v))
    (hd : d.acc = .rc) (hh : s.regHeld e = false) (wide : Bool) :
    s.clearRc a wide = if (!d.wide || (wide && b == 0)) = true then s.wr e 0 else s := by
  simp [State.clearRc, hr, hd, hh]

/-- Whatever lies at `a`, the read leaves the state alone or clears one register. -/
theorem clearRc_eq_or (s : State) (a : Nat) (wide : Bool) :
    s.clearRc a wide = s ∨ ∃ e, s.clearRc a wide = s.wr e 0 := by
  unfold State.clearRc
  split
  · split
    · exact .inr ⟨_, rfl⟩
    · exact .inl rfl
  · exact .inl rfl

theorem clearRc_frame (s : State) (a : Nat) (wide : Bool) :
    s.clearRc a wide = { s with regs := (s.clearRc a wide).regs } := by
  obtain h | ⟨e, h⟩ := clearRc_eq_or s a wide
  · rw [h]
  · rw [h]; rfl

/-- A register that reads 0 still does after another read that clears. -/
theorem rd_clearRc_eq_zero {s : State} {e : Nat} (h : s.rd e = 0) (a : Nat) (wide : Bool) : (s.clearRc a wide).rd e = 0 := by
  obtain h' | ⟨x, h'⟩ := clearRc_eq_or s a wide
  · rw [h', h]
  · rw [h']
    by_cases hx : e = x
    · rw [hx, rd_wr_same]
    · rw [rd_wr_ne s 0 hx, h]

theorem exec_rcRead_word {s : State} {a : BitVec 24} (ho : s.barOpen s.manager = true) (ha : a.toNat % 4 = 0) :
    exec (.rcRead a false) s =
      .next ((s.clearRc a.toNat false).emit (.completion s.manager 0 (bvBytes (s.read32 a.toNat)))) := by
  simp [exec, execRcRead, barRead_open ho, ha, State.managerRead]

theorem exec_rcRead_dword {s : State} {a : BitVec 24} (ho : s.barOpen s.manager = true) (ha : a.toNat % 8 = 0) :
    exec (.rcRead a true) s = .next (((s.clearRc a.toNat true).clearRc (a.toNat + 4) true).emit
      (.completion s.manager 0 (bvBytes (s.read64 a.toNat)))) := by
  simp [exec, execRcRead, barRead_open ho, ha, State.managerRead]

@[simp] theorem length_leBytes (n x : Nat) : (leBytes n x).length = n := by
  induction n generalizing x with
  | zero => rfl
  | succ n ih => rw [leBytes, List.length_cons, ih]

theorem length_bvBytes_word (w : Word) : (bvBytes w).length = 4 := length_leBytes 4 w.toNat

/-- The bytes of `n` registers of 32 bits. -/
theorem length_words (f : Nat → Word) (n : Nat) : ((List.range n).flatMap (fun k => bvBytes (f k))).length = 4 * n := by
  induction n with
  | zero => rfl
  | succ n ih =>
    rw [List.range_succ, List.flatMap_append, List.length_append, ih, List.flatMap_singleton, length_bvBytes_word,
      Nat.mul_succ]

theorem exec_regRead_ready {s : State} {ch : BitVec 13} {seq : BitVec 4} {c : OpenCmd} (hc : s.ready ch seq 0x02 c = true)
    (ha : c.imm % 4 = 0) (hi : c.imm < 2 ^ 24) :
    exec (.regRead ch seq) s = .next (s.answered ch c 0 (s.read32 c.imm).toNat) := by
  have hok : ¬ (c.imm % 4 ≠ 0 ∨ 2 ^ 24 ≤ c.imm) := by omega
  simp only [exec, execRegRead, gcs_ready hc, if_neg hok, closed_ok]

theorem exec_regReadBlock_ready {s : State} {ch : BitVec 13} {seq : BitVec 4} {c : OpenCmd}
    (hc : s.ready ch seq 0x03 c = true) (ha : leAt c.args 0 4 % 4 = 0) (h1 : 1 ≤ leAt c.args 4 4)
    (h2 : leAt c.args 4 4 ≤ 16384) (h3 : leAt c.args 0 4 + 4 * leAt c.args 4 4 ≤ 2 ^ 24)
    (hs : 4 * leAt c.args 4 4 ≤ outSpace ch.toNat c) :
    exec (.regReadBlock ch seq) s = .next (s.answeredOut ch c
      ((List.range (leAt c.args 4 4)).flatMap (fun k => bvBytes (s.read32 (leAt c.args 0 4 + 4 * k))))) := by
  have hok : ¬ (leAt c.args 0 4 % 4 ≠ 0 ∨ leAt c.args 4 4 = 0 ∨ 16384 < leAt c.args 4 4 ∨
      2 ^ 24 < leAt c.args 0 4 + 4 * leAt c.args 4 4) := by omega
  simp only [exec, execRegReadBlock, gcs_ready hc, if_neg hok]
  rw [closed_out]
  rw [length_words (fun k => s.read32 (leAt c.args 0 4 + 4 * k))]
  exact hs

/-! ### Writes by access code and writer (R13, R14, R18, R19) -/

theorem mayWrite_tw_of_ne {w : Writer} (h : w ≠ .tether) (s : State) : s.mayWrite w .tw = false := by
  cases w with
  | tether => exact absurd rfl h
  | _ => rfl

theorem mayWrite_other (s : State) (acc : Access) : s.mayWrite .other acc = false := by cases acc <;> rfl

theorem mayWrite_firmware_rw {s : State} (hf : s.kite.fw ≠ .absent) (hr : s.inReset = false) :
    s.mayWrite .firmware .rw = true := by
  simp [State.mayWrite, hf, hr]

theorem regWrite_refused {s : State} {w : Writer} {d : RegDesc} (h : s.mayWrite w d.acc = false) (a : Nat)
    (v written : DWord) : s.regWrite w d a v written = s := by
  simp [State.regWrite, h]

/-- An RW register whose write only holds the value takes the written bits and no other. -/
theorem regWrite_rw_holds {s : State} {w : Writer} {d : RegDesc} {a : Nat} (hd : d.acc = .rw)
    (hm : s.mayWrite w .rw = true) (hh : s.regHeld a = false) (v written : DWord)
    (hx : s.writeActs w a (merged d (s.shown a) v written) = none) :
    s.regWrite w d a v written = s.wr a (merged d (s.shown a) v written) := by
  simp [State.regWrite, hd, hm, hh, hx]

theorem write32_undefined {a : Nat} (h : regFind a regRows = none) (s : State) (w : Writer) (v : Word) :
    s.write32 w a v = s := by
  simp [State.write32, h]

theorem write32_defined {a e b : Nat} {d : RegDesc} (h : regFind a regRows = some (d, e, b)) (s : State) (w : Writer)
    (v : Word) : s.write32 w a v =
      s.regWrite w d e (BitVec.ofNat 64 (at' v.toNat (b * 8))) (BitVec.ofNat 64 (at' 0xFFFFFFFF (b * 8))) := by
  simp [State.write32, h]

theorem write64_whole {a e : Nat} {d : RegDesc} (h : regFind a regRows = some (d, e, 0)) (hw : d.wide = true) (s : State)
    (w : Writer) (v : DWord) : s.write64 w a v = s.regWrite w d e v 0xFFFFFFFFFFFFFFFF := by
  simp [State.write64, h, hw]

/-- A write that the access code refuses changes nothing, whichever half it is of. -/
theorem write32_refused {a e b : Nat} {d : RegDesc} (h : regFind a regRows = some (d, e, b)) {s : State} {w : Writer}
    (hm : s.mayWrite w d.acc = false) (v : Word) : s.write32 w a v = s := by
  rw [write32_defined h, regWrite_refused hm]

theorem write32_other (s : State) (a : Nat) (v : Word) : s.write32 .other a v = s := by
  cases h : regFind a regRows with
  | none => exact write32_undefined h s .other v
  | some r => exact write32_refused h (mayWrite_other s r.1.acc) v

/-- The parties without a page write the device register space itself. -/
theorem exec_registerWrite_word {w : Writer} (hw : w = .firmware ∨ w = .tether ∨ w = .other) {a : BitVec 24}
    (ha : a.toNat % 4 = 0) (v : DWord) (s : State) :
    exec (.registerWrite w a false v) s = .next (s.write32 w a.toNat (v.setWidth 32)) := by
  rcases hw with rfl | rfl | rfl <;> simp [exec, execRegisterWrite, ha]

theorem exec_registerWrite_dword {w : Writer} (hw : w = .firmware ∨ w = .tether ∨ w = .other) {a : BitVec 24}
    (ha : a.toNat % 8 = 0) (v : DWord) (s : State) :
    exec (.registerWrite w a true v) s = .next (s.write64 w a.toNat v) := by
  rcases hw with rfl | rfl | rfl <;> simp [exec, execRegisterWrite, ha]

theorem exec_registerWrite_driver {f : Fin 4104} {a : BitVec 24} {s : State} (ho : s.barOpen f.val = true)
    (ha : a.toNat % 4 = 0) (v : DWord) :
    exec (.registerWrite (.driver f) a false v) s = .next (s.pageWrite32 f a.toNat (v.setWidth 32)) := by
  simp [exec, execRegisterWrite, ha, barWrite_open ho]

theorem exec_registerWrite_party {ch : BitVec 13} {a : BitVec 24} {s : State} (ho : s.pageOpen ch.toNat = true)
    (ha : a.toNat % 4 = 0) (v : DWord) :
    exec (.registerWrite (.party ch) a false v) s = .next (s.kiteWrite32 ch.toNat a.toNat (v.setWidth 32)) := by
  simp [exec, execRegisterWrite, ha, pageWrite_open ho]

theorem exec_registerWrite_misaligned {a : BitVec 24} (ha : a.toNat % 4 ≠ 0) (w : Writer) (v : DWord) (s : State) :
    exec (.registerWrite w a false v) s = .next (s.bump R.HIU_BAD_ACCESS_CNT) := by
  simp [exec, execRegisterWrite, ha]

/-! ### What a write of part of a register leaves (R18) -/

theorem merged_and_written (d : RegDesc) (old v written : DWord) :
    merged d old v written &&& (written &&& BitVec.ofNat 64 d.wmask) = v &&& (written &&& BitVec.ofNat 64 d.wmask) := by
  generalize hm : written &&& BitVec.ofNat 64 d.wmask = m
  simp only [merged, hm]
  ext i hi
  cases hb : m[i] <;> simp [hb]

theorem merged_and_not_written (d : RegDesc) (old v written : DWord) :
    merged d old v written &&& ~~~(written &&& BitVec.ofNat 64 d.wmask) =
      old &&& ~~~(written &&& BitVec.ofNat 64 d.wmask) := by
  generalize hm : written &&& BitVec.ofNat 64 d.wmask = m
  simp only [merged, hm]
  ext i hi
  cases hb : m[i] <;> simp [hb]

/-! ### Reset -/

/-- After reset every register holds its reset value. -/
@[simp] theorem rd_reset (a : Nat) : State.reset.rd a = resetVal a := rfl

theorem Fuses.Kept.refl (f : Fuses) : Fuses.Kept f f :=
  ⟨rfl, rfl, rfl, rfl, rfl, rfl, rfl, Nat.le_refl _, fun _ h => h⟩

/-- After reset no Kite line page holds a command or a response, whichever party's it is. -/
theorem page_reset (n : Nat) : (State.reset.page n).cmd = none ∧ (State.reset.page n).rsp = none := by
  change (Kite.resetOf n).cmd = none ∧ (Kite.resetOf n).rsp = none
  unfold Kite.resetOf
  split <;> exact ⟨rfl, rfl⟩

/-- The registers of a line port, a traffic group and a MACsec port each hold the same value at every port. -/
theorem resetVal_ports : ∀ p, p < 8 → resetVal (R.LINE_PORT_CFG p) = 0x40002580 ∧ resetVal (R.TM_TG_CFG p) = 0x606 ∧
    resetVal (R.LINE_PFC_THRESH p) = 0xFFFFFFFF ∧ resetVal (R.CIPH_MACSEC_CFG p) = 0x50000000 := by decide

/-! ### The statements -/

/-- Settles O15: the read's effect is `clearRc` of its offset (of both halves for 64 bits), and the two commands answer with
`read32` alone. -/
theorem managerReadClearsRc : Obligations.ManagerReadClearsRc := by
  refine ⟨fun a d e b v s ho ha hr hd hh => ?_, fun a d e v s ho ha hr hd hw hh => ?_,
    fun ch seq c s hc ha hi => exec_regRead_ready hc ha hi, fun ch seq c n s hc ha hn h1 h2 h3 hs => ?_⟩
  · rw [exec_rcRead_word ho ha, clearRc_of_rc hr hd hh]
    cases d.wide <;> rfl
  · have hclr : s.clearRc a.toNat true = s.wr e 0 := by simp [clearRc_of_rc hr hd hh, hw]
    refine ⟨_, exec_rcRead_dword ho ha, ?_, ?_, ?_⟩
    · exact rd_clearRc_eq_zero (by rw [hclr, rd_wr_same]) _ _
    · rw [hclr, clearRc_frame]; rfl
    · rw [hclr, clearRc_frame]; rfl
  · subst hn
    exact exec_regReadBlock_ready hc ha h1 h2 h3 hs

/-- Settles O16: by who writes, and for TW registers because only the Tether may. -/
theorem registerWriteByAccess : Obligations.RegisterWriteByAccess := by
  refine ⟨fun w a v d e b s hw ha hf hd => ?_, fun a v s ha => ?_, fun w a v s hw ha hf => ?_, fun w a v s hw => ?_,
    fun f a v s ho ha => exec_registerWrite_driver ho ha v, fun ch a v s ho ha => exec_registerWrite_party ho ha v,
    fun w a v s ha => exec_registerWrite_misaligned ha w v s⟩
  · have hdev := hw.imp_right (Or.inr (a := w = .tether))
    have hm : s.mayWrite w d.acc = false := by
      rw [hd]; exact mayWrite_tw_of_ne (by rcases hw with rfl | rfl <;> nofun) s
    refine ⟨?_, fun ha8 hwide hb => ?_⟩
    · rw [exec_registerWrite_word hdev ha, write32_refused hf hm]
    · subst hb
      rw [exec_registerWrite_dword hdev ha8, write64_whole hf hwide, regWrite_refused hm]
  · rw [exec_registerWrite_word (.inr (.inr rfl)) ha, write32_other]
  · rw [exec_registerWrite_word hw ha, write32_undefined hf]
  · have hdev := hw.imp_right (Or.inl (b := w = .other))
    exact ⟨fun ha => exec_registerWrite_word hdev ha v s, fun ha => exec_registerWrite_dword hdev ha v s⟩

/-- Settles O17: the register holds the merge of what it showed with the written half under its writable bits. -/
theorem reservedBitsKept : Obligations.ReservedBitsKept := by
  intro a v d e b s hf hr ha hfind hd hh hacts
  have hexec : exec (.registerWrite .firmware a false v) s = .next (s.wr e (merged d (s.shown e)
      (BitVec.ofNat 64 (at' (v.setWidth 32).toNat (b * 8))) (BitVec.ofNat 64 (at' 0xFFFFFFFF (b * 8))))) := by
    rw [exec_registerWrite_word (.inl rfl) ha, write32_defined hfind,
      regWrite_rw_holds hd (mayWrite_firmware_rw hf hr) hh _ _ (hacts _)]
  refine ⟨_, hexec, rfl, ?_, ?_, ?_⟩
  · rw [rd_wr_same, merged_and_not_written]
  · rw [rd_wr_same, merged_and_written]
  · exact fun x hx => rd_wr_ne s _ hx

/-- Settles O13: a write to an open BAR0 of the manager's function does nothing but count. -/
theorem hostRegisterWritesDiscarded : Obligations.HostRegisterWritesDiscarded := by
  intro f a v s hm ho
  simp only [exec, execHostRegisterWriteDiscard, barWrite_open ho, if_pos hm]
  rfl

/-- Settles O14: the statement's two conditions are that the access is none of those that pass. -/
theorem unalignedAccessesReturnZero : Obligations.UnalignedAccessesReturnZero := by
  intro f db a len s ho
  refine ⟨fun h4 h8 => exec_unalignedAccess_turnedAway ho ?_, fun h4 h8 => exec_unalignedAccess_turnedAway ho ?_⟩
  · rintro (h | ⟨hl, ha, -⟩)
    · exact h4 h
    · exact h8 ⟨hl, ha⟩
  · rintro (h | ⟨hl, ha, hdb | hw⟩)
    · exact h4 h
    · exact h8 ⟨hl, ha, hdb⟩
    · exact Bool.false_ne_true hw

/-- Settles O59: the fields by definition, the registers by the table of reset values. -/
theorem resetState : Obligations.ResetState := by
  have hobjects : ∀ n, State.reset.opened n = [] ∧ State.reset.rspQ n = [] ∧ (State.reset.page n).cmd = none ∧
      (State.reset.page n).rsp = none ∧ State.reset.ring n = Ring.absent ∧ (State.reset.xing n).phase = .idle := by
    intro n
    obtain ⟨hcmd, hrsp⟩ := page_reset n
    exact ⟨rfl, rfl, hcmd, hrsp, rfl, rfl⟩
  refine ⟨by decide, hobjects, by decide, resetVal_ports, ?_, rfl, rfl, Fuses.Kept.refl Fuses.blank⟩
  simp only [rd_reset]
  decide

end Sys2Proof.Machine
end

section
/-!
Chapter 0: what an unmask sends (R235, R236) and what the firmware and the Tether take from their event queues (R33, R36).
-/
namespace Sys2Proof.Machine
open Sys2Proof

/-! ### Unmasking (R235, R236) -/

theorem exec_msiUnmask_pf {f : Fin 4104} {s : State} (hf : f.val < 8) (he : s.exists_ f.val = true) (v : Fin 32) :
    exec (.msiUnmask f v) s =
      .next ((s.updFn f.val (fun h => { h with msiMask := setBit h.msiMask v.val false })).release f.val v.val) := by
  have hg : ¬ (8 ≤ f.val ∨ (!s.exists_ f.val) = true) := by
    rintro (h8 | hn)
    · exact Nat.not_le_of_lt hf h8
    · rw [he] at hn
      exact Bool.false_ne_true hn
  simp only [exec, execMsiUnmask, if_neg hg]

theorem exec_msixUnmask_entry {f : Fin 4104} {v : Fin 2048} {s : State} (ho : s.barOpen f.val = true)
    (hv : v.val < s.vectors f.val) (addr : DWord) (data : Word) (m : Bool) :
    exec (.msixUnmask f (some v) addr data m) s = .next ((s.updFn f.val (fun h => { h with
      msixTable := mapSet (fun _ => MsixEntry.reset) h.msixTable v.val ⟨addr, data, m⟩ })).release f.val v.val) := by
  simp only [exec, execMsixUnmask, barWrite_open ho, if_neg (Nat.not_le_of_lt hv)]

/-- Function Mask is cleared whatever an entry's write would have carried. -/
theorem exec_msixUnmask_function {f : Fin 4104} {s : State} (ho : s.barOpen f.val = true) (addr : DWord) (data : Word)
    (m : Bool) : exec (.msixUnmask f none addr data m) s =
      .next ((s.updFn f.val (fun h => { h with msixFnMask := false })).releaseAll f.val) := by
  simp only [exec, execMsixUnmask, barWrite_open ho]

/-! ### Taking from the event queues (R33, R36) -/

/-- The firmware also takes occurrences in maintenance. -/
theorem exec_fwEventTake_cons {n : Nat} {rest : List Nat} {s : State}
    (hf : s.kite.fw = .running ∨ s.kite.fw = .maintenance) (hq : s.evt.fwQueue = n :: rest) :
    exec .fwEventTake s = .next ({ s with evt := { s.evt with fwQueue := rest } }.setPend n false) := by
  have hg : ¬ (s.kite.fw ≠ .running ∧ s.kite.fw ≠ .maintenance) := fun ⟨hr, hm⟩ => hf.elim hr hm
  simp only [exec, execFwEventTake, if_neg hg, hq]

/-- Whether the oldest occurrence came by the route decides what becomes of its source's pending bit. -/
theorem exec_tetherEventTake_cons {n : Nat} {rest : List Nat} {s t : State} (hm : s.rdf R.TETHER_STATE 29 3 = 2)
    (hq : s.evt.tetherQueue = n :: rest)
    (ht : t = { s with evt := { s.evt with tetherQueue := rest, routed := mapDel s.evt.routed n } }) :
    exec .tetherEventTake s =
      .next (if mapGet (fun _ => false) s.evt.routed n = true then t.setPend n false else t) := by
  subst ht
  have hg : ¬ s.rdf R.TETHER_STATE 29 3 ≠ 2 := fun hne => hne hm
  simp only [exec, execTetherEventTake, if_neg hg, hq]

/-- Settles O5: one clause for each command's effect, the Tether's split by whether the occurrence came by the route. -/
theorem interruptsAndEventQueues : Obligations.InterruptsAndEventQueues := by
  refine ⟨fun f v s hf he => exec_msiUnmask_pf hf he v, fun f v addr data m s ho hv => exec_msixUnmask_entry ho hv addr data m,
    fun f s ho => exec_msixUnmask_function ho 0 0 false, fun n rest s hf hq => exec_fwEventTake_cons (.inl hf) hq,
    fun n rest s t hm hq ht => ⟨fun hrouted => ?_, fun hwired => ?_⟩⟩
  · rw [exec_tetherEventTake_cons hm hq ht, if_pos hrouted]
  · rw [exec_tetherEventTake_cons hm hq ht, if_neg (Bool.eq_false_iff.mp hwired)]

end Sys2Proof.Machine
end

section
/-!
Chapter 2: the parse units in order, the end of a lane hold and the expiry of follow entries (R37, R38, R50, R54, R55).

`exec` computes to the meaning of one instruction, which `change` names: unfolding the whole dispatch instead costs memory.
-/
namespace Sys2Proof.Machine
open Sys2Proof

/-! ### The parse units (R37, R38) -/

/-- Units 2 to 4 wait for no other; units 0 and 1 take turns. -/
theorem unitNext_of_turn {s : State} {u : Nat} (h : u < 2 → s.unitTurn = u) : s.unitNext u = true := by
  by_cases hu : 2 ≤ u
  · simp [State.unitNext, hu]
  · simp [State.unitNext, h (Nat.lt_of_not_le hu)]

theorem parserRuns_of_clock {s : State} (hb : s.blockHeld 5 = false) (hc : bit s.clk.running 2 = true) :
    s.parserRuns = true := by
  simp [State.parserRuns, hb, hc]

theorem exec_packetParse_cons {u : Fin 5} {p : Pkt} {rest : List Pkt} {s : State} (hq : s.unitQ u.val = p :: rest)
    (hp : p.reparse = false) (hn : s.unitNext u.val = true) (hb : s.blockHeld 5 = false) (hr : s.parserRuns = true) :
    exec (.packetParse u) s = .next ((s.setUnitQ u.val rest).parseNew u.val p) := by
  change execPacketParse u s = _
  simp [execPacketParse, hq, hp, hn, hb, hr]

theorem exec_reparse_cons {p : Pkt} {rest : List Pkt} {s : State} (hq : s.unitQ 4 = p :: rest) (hp : p.reparse = true)
    (hb : s.blockHeld 5 = false) (hr : s.parserRuns = true) :
    exec .reparse s = .next ((s.setUnitQ 4 rest).parseAgain p) := by
  change execReparse s = _
  simp [execReparse, hq, hp, hb, hr]

/-! ### Lane holds (R50) -/

theorem endHold_some {s : State} {i old : Nat} {held : List Pkt} (h : s.hold i = some (old, held)) :
    s.endHold i = (s.setHold i none).each held (fun s p => s.dispatchTo (s.laneInst p.sp) p) := by
  simp [State.endHold, h]

theorem exec_laneHoldRelease_passed {i : Fin 16} {old : Nat} {held : List Pkt} {s : State}
    (h : s.hold i.val = some (old, held)) (hb : s.laneBusy old i.val = false) :
    exec (.laneHoldRelease i) s = .next (s.endHold i.val) := by
  change execLaneHoldRelease i s = _
  simp [execLaneHoldRelease, h, hb]

/-! ### Expiry of follow entries (R54, R55) -/

theorem exec_followWaitExpire_holding {slot : Fin 4} {idx : Fin 65536} {s : State}
    (h : (s.follow (followKey slot idx)).st = .holding) :
    exec (.followWaitExpire slot idx) s =
      .next ((s.setFollow (followKey slot idx) .empty).orphan slot.val (idx.val / 8)
        ((s.slotInst slot.val).getD slot.val) (s.follow (followKey slot idx)).held) := by
  change execFollowWaitExpire slot idx s = _
  simp only [execFollowWaitExpire, if_neg (not_not_intro h)]

theorem exec_followAgeExpire_following {slot : Fin 4} {idx : Fin 65536} {s : State}
    (h : (s.follow (followKey slot idx)).st = .following) :
    exec (.followAgeExpire slot idx) s =
      .next ((s.setFollow (followKey slot idx) .empty).bump (R.PARSE_FOLLOW_AGED_CNT slot.val)) := by
  change execFollowAgeExpire slot idx s = _
  simp only [execFollowAgeExpire, if_neg (not_not_intro h)]

/-- Settles O20: each command's guards hold, so it does its own work; a hold's end is that of `State.endHold`. -/
theorem parserCommands : Obligations.ParserCommands := by
  refine ⟨fun u p rest s hq hp hturn hb hc => ?_, fun p rest s hq hp hb hc => ?_, fun i old held s hh hb => ?_,
    fun slot idx s h => exec_followWaitExpire_holding h, fun slot idx s h => exec_followAgeExpire_following h⟩
  · exact exec_packetParse_cons hq hp (unitNext_of_turn hturn) hb (parserRuns_of_clock hb hc)
  · exact exec_reparse_cons hq hp hb (parserRuns_of_clock hb hc)
  · rw [exec_laneHoldRelease_passed hh hb, endHold_some hh]

end Sys2Proof.Machine
end

section
/-!
Chapters 2 and 3: the lane map, the parser image, a pass, a classifier commit, and the loading, committing and discarding of a
rule set (R49, R50, R63, R72, R76, R78, R79, R281).
-/
namespace Sys2Proof.Machine
open Sys2Proof

/-! ### The lane map and the parser image (R49, R50) -/

theorem exec_laneMapSet_ready {s : State} {ch : BitVec 13} {seq : BitVec 4} {c : OpenCmd}
    (hc : s.ready ch seq 0x33 c = true) (hz : c.imm &&& 0xFFFFFFF0FFF8 = 0) (hi : fld c.arg 0 3 ≤ 4)
    (hs : (s.cinst (fld c.arg 0 3)).role.serves = true) :
    exec (.laneMapSet ch seq) s = .next ((s.setLane (fld c.arg 16 4) (fld c.arg 0 3)).answered ch c 0 0) := by
  have hok : ¬ (c.imm &&& 0xFFFFFFF0FFF8 ≠ 0 ∨ 4 < fld c.arg 0 3 ∨
      (!(s.cinst (fld c.arg 0 3)).role.serves) = true) := by simp [hz, hs, Nat.not_lt.mpr hi]
  change execLaneMapSet ch seq s = _
  simp only [execLaneMapSet, gcs_ready hc, if_neg hok, closed_ok]

/-- The state after the image's words are written, before any hold begins. -/
def State.parseImage (s : State) (b : Bytes) : State :=
  s.each (parseImageOffsets.filter (fun o => parseImageMask o != 0)) (fun s o =>
    s.wr (R.PARSE_HASH_CFG + o) (BitVec.ofNat 64 (leAt b o 4)))

theorem exec_parseCfg_ready {s : State} {ch : BitVec 13} {seq : BitVec 4} {c : OpenCmd}
    (hc : s.ready ch seq 0x34 c = true) (hl : 320 ≤ c.args.length)
    (hz : ∀ o ∈ parseImageOffsets, leAt c.args o 4 &&& (0xFFFFFFFF ^^^ parseImageMask o) = 0) :
    exec (.parseCfg ch seq) s = .next ((if (s.parseImage c.args).hashMode = s.hashMode then s.parseImage c.args else
      (s.parseImage c.args).each (List.range 16) (fun s i =>
        s.beginHold (s.rdf (R.PARSE_LANE_MAP i) 0 3) i)).answered ch c 0 0) := by
  have hok : ¬ (c.args.length < 320 ∨ parseImageOffsets.any (fun o =>
      leAt c.args o 4 &&& (0xFFFFFFFF ^^^ parseImageMask o) != 0) = true) := by
    simpa [Nat.not_lt.mpr hl] using hz
  change execParseCfg ch seq s = _
  simp only [execParseCfg, gcs_ready hc, if_neg hok, closed_ok]
  rfl

/-! ### A pass and a classifier commit (R63, R72) -/

theorem exec_carriagewayPass_cons {i : Fin 5} {h : Held} {rest : List Held} {s : State} (hr : s.instRuns i.val = true)
    (hq : (s.cinst i.val).retain = h :: rest) (flip : Word) (bad : List (Fin 24)) :
    exec (.carriagewayPass i flip bad) s =
      .next ((s.runPass false i.val bad flip h.pkt.bytes (.start h.pkt.sp [] [] [])).1.endPass i.val h rest
        (s.runPass false i.val bad flip h.pkt.bytes (.start h.pkt.sp [] [] [])).2) := by
  change execCarriagewayPass i flip bad s = _
  simp [execCarriagewayPass, hr, hq]

theorem exec_tcamCommit_running {s : State} (hb : s.blockHeld 6 = false) (v : Word) :
    exec (.tcamCommit v) s = .next (s.tcamWrite (fld v 0 14) s.tcamStaged).1 := by
  change execTcamCommit v s = _
  simp [execTcamCommit, hb]

/-! ### Rule sets (R76, R78, R79, R281) -/

/-- Where the classifier records of a RULESET_LOAD begin, with an image before them or without. -/
def tcamBase (image : Bool) : Nat := if image then 2248 else 8

/-- Slot `g` goes to LOADING, and an image's stage programs and key templates are written into it. -/
def State.loadImage (s : State) (g : Nat) (image : Bool) (b : Bytes) : State :=
  if image then ((s.setGen g { s.gen g with st := .loading }).loadStages g (b.drop 8)).loadTemplates g (b.drop 200)
  else s.setGen g { s.gen g with st := .loading }

/-- No record is refused where no slot blocks one (R73). -/
theorem tcamRefused_none {s : State} {l : List (Nat × TcamEntry)} (h : ∀ r ∈ l, s.tcamBlocks r.1 r.2 = none) :
    l.find? (fun r => (s.tcamBlocks r.1 r.2).isSome) = none := by
  simpa using h

theorem exec_rulesetLoad_ready {s : State} {ch : BitVec 13} {seq : BitVec 4} {c : OpenCmd} {g n : Nat} {image : Bool}
    (hc : s.ready ch seq 0x30 c = true) (hflags : byteAt c.args 0 &&& 0xFC = 0) (hz : leAt c.args 1 3 = 0)
    (hn : leAt c.args 4 4 = n) (himage : image = bit (byteAt c.args 0) 1)
    (hlen : tcamBase image + n * 138 ≤ c.args.length) (hv : c.version ≠ 1 ∨ (image = false ∧ n ≤ 1))
    (hidx : ∀ k < n, leAt c.args (tcamBase image + k * 138) 2 < 16384)
    (hg : s.genIn (if bit (byteAt c.args 0) 0 then .free else .loading) = some g)
    (hw : ∀ r ∈ tcamRecords n (c.args.drop (tcamBase image)), s.tcamBlocks r.1 r.2 = none) :
    exec (.rulesetLoad ch seq) s = .next (((s.loadImage g image c.args).each
      (tcamRecords n (c.args.drop (tcamBase image))) (fun s r => (s.tcamWrite r.1 r.2).1)).answered ch c 0 g) := by
  have hsize : ¬ (c.version = 1 ∧ (image = true ∨ 1 < n)) := by
    rintro ⟨h1, himg | hmany⟩
    · simp [h1, himg] at hv
    · simp [h1, Nat.not_le.mpr hmany] at hv
  have hform : ¬ (c.args.length < tcamBase image + n * 138 ∨ (byteAt c.args 0 &&& 0xFC != 0) = true ∨
      leAt c.args 1 3 ≠ 0 ∨
      (List.range n).any (fun k => decide (16384 ≤ leAt c.args (tcamBase image + k * 138) 2)) = true) := by
    simpa [Nat.not_lt.mpr hlen, hz] using And.intro hflags hidx
  have hslot : (if bit (byteAt c.args 0) 0 = true then s.genIn .free else s.genIn .loading) = some g := by
    rw [← hg]; split <;> rfl
  subst hn himage
  unfold tcamBase at hform hw ⊢
  change execRulesetLoad ch seq s = _
  simp only [execRulesetLoad, gcs_ready hc, if_neg hsize, if_neg hform, hslot, tcamRefused_none hw, closed_ok,
    State.loadImage]

theorem exec_rulesetCommit_ready {s : State} {ch : BitVec 13} {seq : BitVec 4} {c : OpenCmd} {g : Nat}
    (hc : s.ready ch seq 0x31 c = true) (hi : c.imm = 0) (hg : s.genIn .loading = some g) :
    exec (.rulesetCommit ch seq) s = .next (((s.commitGen g).1.extend 9 none none
      (Config.sha384 ((s.commitGen g).1.ruleSetBytes g))).answered ch c 0 (s.commitGen g).2) := by
  change execRulesetCommit ch seq s = _
  simp only [execRulesetCommit, gcs_ready hc, if_neg (not_not_intro hi), hg, closed_ok]

theorem exec_rulesetDiscard_ready {s : State} {ch : BitVec 13} {seq : BitVec 4} {c : OpenCmd} {g : Nat}
    (hc : s.ready ch seq 0x32 c = true) (hi : c.imm = 0) (hg : s.genIn .loading = some g) :
    exec (.rulesetDiscard ch seq) s = .next ((s.setGen g { s.gen g with st := .free }).answered ch c 0 0) := by
  change execRulesetDiscard ch seq s = _
  simp only [execRulesetDiscard, gcs_ready hc, if_neg (not_not_intro hi), hg, closed_ok]

/-- Settles O21: one clause for each command, which passes its own checks and so does its work. -/
theorem ruleSetCommands : Obligations.RuleSetCommands := by
  refine ⟨fun ch seq c s hc hz hs hi => exec_laneMapSet_ready hc hz hi hs, fun ch seq c t s hc hl hz ht => ?_,
    fun i flip bad h rest s hr hq => exec_carriagewayPass_cons hr hq flip bad,
    fun v s hb => exec_tcamCommit_running hb v,
    fun ch seq c g n base image s hc hflags hz hn himage hbase hlen hv hidx hg hw => ?_,
    fun ch seq c g s hc hi hg => exec_rulesetCommit_ready hc hi hg,
    fun ch seq c g s hc hi hg => exec_rulesetDiscard_ready hc hi hg⟩
  · subst ht
    exact exec_parseCfg_ready hc hl hz
  · subst hbase
    exact exec_rulesetLoad_ready hc hflags hz hn himage hlen hv hidx hg hw

end Sys2Proof.Machine
end

section
/-!
Chapter 3: what a rule-set commit leaves in the two generation slots (R76, R78).
-/
namespace Sys2Proof.Machine
open Sys2Proof

/-! ### The generation slots -/

@[simp] theorem gen_setGen_same (s : State) (g : Nat) (v : GenSlot) : (s.setGen g v).gen g = v := by
  by_cases hg : g = 0 <;> simp [State.setGen, State.gen, hg]

/-- A number is slot 0 or, whatever its value, slot 1: the hypothesis says that `g` and `k` are different slots. -/
theorem gen_setGen_other {s : State} {g k : Nat} (h : g = 0 ↔ k ≠ 0) (v : GenSlot) :
    (s.setGen g v).gen k = s.gen k := by
  by_cases hk : k = 0 <;> simp [State.setGen, State.gen, h, hk]

@[simp] theorem gen_bump (s : State) (a g : Nat) : (s.bump a).gen g = s.gen g := rfl

/-- Raising an event touches crossings and counters alone (R414, R415). -/
@[simp] theorem gen_raise (s : State) (n f o c g : Nat) : (s.raise n f o c).gen g = s.gen g := by
  unfold State.raise
  dsimp only
  split <;> rfl

/-! ### A commit (R76, R78) -/

/-- What the LIVE slot becomes when another takes its place (Table 3-7). -/
def GenSlot.replaced (v : GenSlot) : GenSlot := { v with st := if v.inflight = 0 then .free else .draining }

/-- What the loaded slot becomes when it takes the place of `old` (Table 3-7). -/
def GenSlot.after (old : GenSlot) : GenSlot := ⟨.live, old.waymark + 1, 0⟩

/-- Both outcomes of a commit leave the same slots and differ in the drain event: the loaded slot is written first, then the
old one. -/
theorem gen_commitGen (s : State) (g k : Nat) : (s.commitGen g).1.gen k =
    (((s.setGen g (s.gen s.liveSlot).after).bump R.CWAY_SWAP_CNT).setGen s.liveSlot (s.gen s.liveSlot).replaced).gen k := by
  unfold State.commitGen GenSlot.after GenSlot.replaced
  by_cases h : (s.gen s.liveSlot).inflight = 0
  · simp only [if_pos h, gen_raise]
  · simp only [if_neg h]

theorem gen_commitGen_old (s : State) (g : Nat) :
    (s.commitGen g).1.gen s.liveSlot = (s.gen s.liveSlot).replaced := by
  rw [gen_commitGen, gen_setGen_same]

theorem gen_commitGen_loaded {s : State} {g : Nat} (h : s.liveSlot = 0 ↔ g ≠ 0) :
    (s.commitGen g).1.gen g = (s.gen s.liveSlot).after := by
  rw [gen_commitGen, gen_setGen_other h, gen_bump, gen_setGen_same]

theorem commitGen_waymark (s : State) (g : Nat) : (s.commitGen g).2 = ((s.gen s.liveSlot).waymark + 1).toNat := by
  unfold State.commitGen
  dsimp only
  split <;> rfl

/-- Settles O22: the LIVE slot is the one not committed, so writing it leaves the loaded slot as the commit wrote it. -/
theorem generationSwapIsWhole : Obligations.GenerationSwapIsWhole := by
  intro s g hg _ hother _
  have hslots : s.liveSlot = 0 ↔ g ≠ 0 := by omega
  rw [← hother]
  exact ⟨gen_commitGen_loaded hslots, gen_commitGen_old s g, commitGen_waymark s g⟩

end Sys2Proof.Machine
end

section
/-!
Chapter 4: learning, station copies, aging and the sweeper, and the operations and the command that read and write the route
tables (R93, R99, R102, R104 to R109, R111 to R115).
-/
namespace Sys2Proof.Machine
open Sys2Proof

/-! ### Learning, station copies and aging (R93, R102, R104, R105, R108, R109) -/

theorem exec_learnApply_cons {i : Fin 5} {q : LearnReq} {rest : List LearnReq} {s : State} (hq : s.learnQ i.val = q :: rest)
    (hr : s.tablesRun = true) : exec (.learnApply i) s = .next ((s.setLearnQ i.val rest).learnOne i.val q) := by
  change execLearnApply i s = _
  simp [execLearnApply, hq, hr]

theorem exec_stationCopyApply_cons {i : Fin 5} {q : LearnReq} {rest : List LearnReq} {s : State}
    (hq : s.copyQ i.val = q :: rest) (hr : s.tablesRun = true) :
    exec (.stationCopyApply i) s = .next ((s.setCopyQ i.val rest).copyOne i.val q) := by
  change execStationCopyApply i s = _
  simp [execStationCopyApply, hq, hr]

theorem exec_ageTick_running {s : State} (hr : s.tablesRun = true) :
    exec .ageTick s = .next (s.wr R.RTBL_AGE_NOW ((s.rd R.RTBL_AGE_NOW + 1) &&& 0xFFFF)) := by
  change execAgeTick s = _
  simp [execAgeTick, hr]

/-- The state in which the sweeper at position `k` stands at bucket `b`. -/
def State.setSweep (s : State) (k b : Nat) : State :=
  { s with rtbl := { s.rtbl with sweep := mapSet (fun _ => 0) s.rtbl.sweep k b } }

/-- The sweeper moves on whether or not aging is enabled for the table. -/
theorem exec_sweeperVisit_running {i : Fin 5} {tbl : Fin 2} {s t : State} (hr : s.tablesRun = true)
    (hs : (s.cinst i.val).role ≠ .suspect)
    (ht : t = s.setSweep (i.val * 2 + tbl.val) ((s.sweepAt (i.val * 2 + tbl.val) + 1) % bucketsOf tbl.val)) :
    exec (.sweeperVisit i tbl) s = .next (if bit (s.rd (R.RTBL_AGE_LIMIT tbl.val)) 31 then
      t.sweepBucket i.val tbl.val (s.sweepAt (i.val * 2 + tbl.val)) else t) := by
  have hg : ¬ ((!s.tablesRun) = true ∨ (s.cinst i.val).role = .suspect) := by simp [hr, hs]
  subst ht
  change execSweeperVisit i tbl s = _
  simp only [execSweeperVisit, if_neg hg]
  rfl

/-- Settles O24: the table engines run, so each command does its own work. -/
theorem learningAndAging : Obligations.LearningAndAging :=
  ⟨fun _ _ _ _ hq hr => exec_learnApply_cons hq hr, fun _ _ _ _ hq hr => exec_stationCopyApply_cons hq hr,
    fun _ hr => exec_ageTick_running hr, fun _ _ _ _ hr hs ht => exec_sweeperVisit_running hr hs ht⟩

/-! ### Table-access operations (R111) -/

/-- A table-access operation that passes its screening does its own work. -/
theorem taRun_screened {s : State} {r no op : Nat} {o : RingOp}
    (hr : s.opRuns r no (0x4000 + op) (decide (op ≤ 3)) o = true) (hs : s.taScreen (s.ring r) o.desc op = none)
    (body : State → Ring → RingOp → State) : s.taRun r no op body = body s (s.ring r) o := by
  simp only [State.taRun, runOp_runs hr, hs]

/-! ### READ_KEY of an exact-match table (R115) -/

/-- BUCKET_WORD as the record of an entry at a location gives it: `b`'s in slot 0, reserved elsewhere (Table 4-3). -/
def Loc.recordWord (b : Bucket) : Loc → Nat
  | .slot _ 0 => b.word
  | _ => 0

@[simp] theorem recordWord_slot_succ (b : Bucket) (x k : Nat) : (Loc.slot x (k + 1)).recordWord b = 0 := rfl

/-- The completion gives the home bucket's BUCKET_WORD wherever the entry lies (R115), the record only in slot 0. -/
theorem exec_taReadKey_found {ring : BitVec 20} {no t i : Nat} {b : Bucket} {e : EmEntry} {l : Loc} {o : RingOp} {s : State}
    (hr : s.opRuns ring.toNat no 0x4001 true o = true) (hs : s.taScreen (s.ring ring.toNat) o.desc 1 = none)
    (ht : t = taTable o.desc) (h6 : t ≠ 6) (h7 : t ≠ 7) (hi : i = s.readInst t (taMask o.desc))
    (hf : s.emFind (s.regionOf i) (t - 1) (taKey t o.data) = some (l, e))
    (hb : s.bucket (s.regionOf i) (t - 1) (home (t - 1) (taKey t o.data)) = b) :
    exec (.taReadKey ring no) s = .next (if descLen o.desc < (e.bytes (l.recordWord b)).length then
        s.taEnd ring.toNat no 3 0 0 0 b.word l.code
      else s.taGive (s.ring ring.toNat) ring.toNat o 0 (e.bytes (l.recordWord b)) 0 1 b.word l.code) := by
  have hpfx : ¬ (t = 6 ∨ t = 7) := by omega
  subst ht hi hb
  change execTaReadKey ring no s = _
  simp only [execTaReadKey, taRun_screened (op := 1) hr hs, if_neg hpfx, hf]
  rfl

/-! #### An entry in slot 1 of a bucket that has been written

`Obligations.TableAccessReads` has the completion give the word of the record, which is 0 outside slot 0. -/

/-- A READ_KEY of flow key 0 with mask 1, into a buffer of no bytes. -/
def slotOneRead : RingOp := RingOp.fresh 0 (BitVec.ofNat 512 (0x4001 + at' 1 192 + at' 1 200))

def slotOneEntry : EmEntry := ⟨0, emControl true true false 5, 0, 0⟩

/-- A bucket of VERSION 1 with the entry in slot 1. -/
def slotOneBucket : Bucket := ⟨.empty, slotOneEntry, .empty, .empty, false, 1⟩

/-- PF 0 makes requests, ring 5 holds the READ_KEY, its completion ring 0 is active, and the entry lies in its home bucket. -/
def slotOneState : State :=
  (((({ State.reset with hiu := { State.reset.hiu with pfMap := 0x8 } }.setLink 0
    { HLink.reset with st := .l0, dlUp := true }).updFn 0 (fun h => { h with bme := true })).setRing 0
    { Ring.absent with st := .active }).setRing 5 { Ring.absent with st := .active, ops := [slotOneRead] }).setBucket 0 0
    (home 0 0) slotOneBucket

theorem slotOne_opRuns : slotOneState.opRuns 5 0 0x4001 true slotOneRead = true := by decide +kernel

theorem slotOne_taScreen : slotOneState.taScreen (slotOneState.ring 5) slotOneRead.desc 1 = none := by decide +kernel

theorem slotOne_taTable : 1 = taTable slotOneRead.desc := by decide +kernel

theorem slotOne_readInst : 0 = slotOneState.readInst 1 (taMask slotOneRead.desc) := by decide +kernel

theorem slotOne_emFind : slotOneState.emFind (slotOneState.regionOf 0) 0 (taKey 1 slotOneRead.data) =
    some (.slot (home 0 0) 1, slotOneEntry) := by decide +kernel

theorem slotOne_bucket : slotOneState.bucket (slotOneState.regionOf 0) 0 (home 0 (taKey 1 slotOneRead.data)) =
    slotOneBucket := by decide +kernel

/-- The record does not fit, so that READ_KEY writes nothing but its completion. -/
theorem slotOne_short : descLen slotOneRead.desc < (slotOneEntry.bytes 0).length := by decide +kernel

/-- The completion entry written to host memory shows the BUCKET_WORD it was given. -/
theorem slotOne_completion_ne : (slotOneState.taEnd 5 0 3 0 0 0 slotOneBucket.word (Loc.slot (home 0 0) 1).code).out ≠
    (slotOneState.taEnd 5 0 3 0 0 0 0 (Loc.slot (home 0 0) 1).code).out := by decide +kernel

/-- Refutes O25: the completion of a READ_KEY gives the home bucket's BUCKET_WORD (R115), also for an entry that is not in
slot 0, for which the third clause has 0 there. -/
theorem not_tableAccessReads : ¬ Obligations.TableAccessReads := by
  rintro ⟨-, -, hclause, -⟩
  have hclaimed := hclause 5 0 1 0 0 slotOneEntry (.slot (home 0 0) 1) slotOneRead slotOneState slotOne_opRuns
    slotOne_taScreen slotOne_taTable (by decide) (by decide) slotOne_readInst slotOne_emFind rfl
  have hdone := exec_taReadKey_found (ring := 5) slotOne_opRuns slotOne_taScreen slotOne_taTable (by decide)
    (by decide) slotOne_readInst slotOne_emFind slotOne_bucket
  rw [if_pos slotOne_short] at hclaimed
  rw [recordWord_slot_succ, if_pos slotOne_short, hclaimed] at hdone
  injection hdone with hstates
  exact slotOne_completion_ne (congrArg State.out hstates.symm)

/-! ### WRITE and DELETE (R99, R107, R113) -/

/-- A WRITE whose records lie in the buffer and, in tables 6 and 7, are all well formed (R99, R112). -/
theorem exec_taWrite_wellFormed {ring : BitVec 20} {no n t done : Nat} {st : Status} {recs : Bytes} {o : RingOp}
    {s s' : State} (hr : s.opRuns ring.toNat no 0x4004 false o = true)
    (hs : s.taScreen (s.ring ring.toNat) o.desc 4 = none) (ht : t = taTable o.desc) (hn : n = taCount o.desc)
    (hlen : n * taWriteLen t ≤ descLen o.desc) (hrecs : recs = padTo (n * taWriteLen t) o.data)
    (hpfx : t ≠ 6 ∧ t ≠ 7 ∨ ∀ k < n, (pfxOf (slice recs (k * 32) 32)).ok t = true)
    (hw : s.taWriteAll t ((maskInsts (taMask o.desc)).map s.taInst).eraseDups n (taStart o.desc) recs 0 0 = (s', st, done)) :
    exec (.taWrite ring no) s =
      .next (s'.taEnd ring.toNat no st (n * taWriteLen t) (taStart o.desc + done) done 0 0) := by
  have hok : ¬ (descLen o.desc < n * taWriteLen t ∨ ((t = 6 ∨ t = 7) ∧
      (List.range n).any (fun k => !(pfxOf (slice recs (k * 32) 32)).ok t) = true)) := by
    rintro (hshort | ⟨ht67, hbad⟩)
    · exact Nat.not_lt.mpr hlen hshort
    · obtain ⟨h6, h7⟩ | hall := hpfx
      · exact ht67.elim h6 h7
      · simp only [List.any_eq_true, List.mem_range] at hbad
        obtain ⟨k, hk, hkbad⟩ := hbad
        simp [hall k hk] at hkbad
  subst ht hn hrecs
  change execTaWrite ring no s = _
  simp only [execTaWrite, taRun_screened (op := 4) hr hs, if_neg hok, hw]

/-- What a removal in one of the named instances adds to the state and to the count of those that held the key. -/
def deleteIn (t : Nat) (key : BitVec 320) (a : State × Nat) (i : Nat) : State × Nat :=
  ((a.1.taRemove t i key).1, a.2 + cond ((a.1.taRemove t i key).2 == 0) 1 0)

theorem exec_taDelete_exact {ring : BitVec 20} {no t n : Nat} {o : RingOp} {s s' : State}
    (hr : s.opRuns ring.toNat no 0x4005 false o = true) (hs : s.taScreen (s.ring ring.toNat) o.desc 5 = none)
    (ht : t = taTable o.desc) (hem : t = 1 ∨ t = 2)
    (hd : ((maskInsts (taMask o.desc)).map s.taInst).eraseDups.foldl (deleteIn (t - 1) (taKey t o.data)) (s, 0) = (s', n)) :
    exec (.taDelete ring no) s = .next (s'.taEnd ring.toNat no (if n = 0 then 2 else 0) 0 0 n 0 0) := by
  have hpfx : ¬ (t = 6 ∨ t = 7) := by omega
  subst ht
  change execTaDelete ring no s = _
  unfold deleteIn at hd
  simp only [execTaDelete, taRun_screened (op := 5) hr hs, if_neg hpfx, hd]

theorem exec_taDelete_prefix {ring : BitVec 20} {no t : Nat} {o : RingOp} {s s' : State} {st : Status}
    (hr : s.opRuns ring.toNat no 0x4005 false o = true) (hs : s.taScreen (s.ring ring.toNat) o.desc 5 = none)
    (ht : t = taTable o.desc) (hpfx : t = 6 ∨ t = 7) (hd : s.pfxRemove t (pfxOf (padTo 32 o.data)) = (s', st)) :
    exec (.taDelete ring no) s =
      .next (s'.taEnd ring.toNat no (if st = 0 then 0 else 2) 0 0 (if st = 0 then 1 else 0) 0 0) := by
  subst ht
  change execTaDelete ring no s = _
  simp only [execTaDelete, taRun_screened (op := 5) hr hs, if_pos hpfx, hd]
  by_cases hst : st = 0 <;> simp [hst, cond_eq_ite]

/-! ### TABLE_CFG (Table 12-12) -/

theorem exec_tableCfg_ready {s : State} {ch : BitVec 13} {seq : BitVec 4} {c : OpenCmd} (hc : s.ready ch seq 0x35 c = true)
    (hl : 40 ≤ c.args.length)
    (hz : ∀ k < 10, leAt c.args (k * 4) 4 &&& (0xFFFFFFFF ^^^ tableImageMask (k * 4)) = 0) :
    exec (.tableCfg ch seq) s = .next ((s.each [0, 8, 12, 16, 20, 24, 32, 36] (fun s o =>
      s.wr (R.RTBL_AGE_TICK + o) (BitVec.ofNat 64 (leAt c.args o 4)))).answered ch c 0 0) := by
  have hok : ¬ (c.args.length < 40 ∨ ((List.range 10).map (· * 4)).any (fun o =>
      leAt c.args o 4 &&& (0xFFFFFFFF ^^^ tableImageMask o) != 0) = true) := by
    rintro (hshort | hbits)
    · exact Nat.not_lt.mpr hl hshort
    · simp only [List.any_map, List.any_eq_true, List.mem_range] at hbits
      obtain ⟨k, hk, hkbits⟩ := hbits
      simp [hz k hk] at hkbits
  have hwritten : ((List.range 10).map (· * 4)).filter (fun o => tableImageMask o != 0) =
      [0, 8, 12, 16, 20, 24, 32, 36] := by decide
  change execTableCfg ch seq s = _
  simp only [execTableCfg, gcs_ready hc, if_neg hok, hwritten, closed_ok]

/-- Settles O26: one clause for each operation, DELETE's split by the kind of table. -/
theorem tableAccessWrites : Obligations.TableAccessWrites :=
  ⟨fun _ _ _ _ _ _ _ _ _ _ hr hs ht hn hlen hrecs hpfx hw => exec_taWrite_wellFormed hr hs ht hn hlen hrecs hpfx hw,
    fun _ _ _ _ _ _ _ hr hs ht hem hd => exec_taDelete_exact hr hs ht hem hd,
    fun _ _ _ _ _ _ _ hr hs ht hpfx hd => exec_taDelete_prefix hr hs ht hpfx hd,
    fun _ _ _ _ hc hl hz => exec_tableCfg_ready hc hl hz⟩

end Sys2Proof.Machine
end

section
/-!
Chapter 5: shadow windows, the comparison of a copy, the tie-break replay and its vote, the substitution, and the manager's two
commands (R118, R119, R121, R124, R126, R127).
-/
namespace Sys2Proof.Machine
open Sys2Proof

/-! ### Shadow windows (R118, Table 5-1) -/

theorem exec_shadowWindowOpen_standing {slot i : Nat} {s : State} (hst : s.shld.st = .standing)
    (hen : bit (s.rd R.CWAY_SHLD_CFG) 31 = true) (hslot : s.rotate s.shld.nextSlot = some slot)
    (hi : s.slotInst slot = some i) :
    exec .shadowWindowOpen s = .next ((s.setShld { s.shld with
      st := .shadowing, window := some slot, target := i }).bump R.CWAY_SHLD_WINDOW_CNT) := by
  have hopens : ¬ (s.shld.st ≠ .standing ∨ (!bit (s.rd R.CWAY_SHLD_CFG) 31) = true) := by simp [hst, hen]
  change execShadowWindowOpen s = _
  simp only [execShadowWindowOpen, if_neg hopens, hslot, hi]

theorem exec_shadowWindowEnd_shadowing {slot : Nat} {s : State} (hst : s.shld.st = .shadowing)
    (hw : s.shld.window = some slot) :
    exec .shadowWindowEnd s =
      .next (s.setShld { s.shld with st := .standing, window := none, nextSlot := (slot + 1) % 4 }) := by
  change execShadowWindowEnd s = _
  simp only [execShadowWindowEnd, hst, hw]

/-! ### The comparison of a copy (R119, R123, R124) -/

/-- A copy whose digests differ, with the Shoulder's digest `d`, and the time and number of its mismatch in `u` (R125). -/
def ShadowCopy.differing (c : ShadowCopy) (d : Word) (u : State) : ShadowCopy :=
  { c with shoulder := d, seen := u.now, no := u.shld.mmNo + 1 }

/-- The next mismatch is numbered, counted and recorded (R123, R125). -/
def State.recordMismatch (u : State) (c : ShadowCopy) : State :=
  ((u.setShld { u.shld with mmNo := u.shld.mmNo + 1 }).bump R.CWAY_SHLD_MISMATCH_CNT).mismatch c

/-- A mismatch waits for its replay, or goes without one where 64 wait (R124). -/
def State.queueReplay (v : State) (c : ShadowCopy) : State :=
  if 64 ≤ v.shld.replays.length then v.bump R.CWAY_SHLD_NO_REPLAY_CNT
  else v.setShld { v.shld with replays := v.shld.replays ++ [c] }

/-- What the Shoulder's digest `d` of a copy comes to, once the comparison is counted (R123, R124). -/
def State.compareDigests (u : State) (c : ShadowCopy) (d : Word) : State :=
  if d = c.digest then u.bump R.CWAY_SHLD_MATCH_CNT
  else (u.recordMismatch (c.differing d u)).queueReplay (c.differing d u)

section
variable {c : ShadowCopy} {rest : List ShadowCopy} {s : State} (hq : s.shld.copies = c :: rest) (hon : s.shadowing = true)
  (hb : s.blockHeld 28 = false)
include hq hon hb

theorem exec_shadowPass_void (hv : c.void = true) (flip : Word) :
    exec (.shadowPass flip) s = .next ((s.setShld { s.shld with copies := rest }).bump R.CWAY_SHLD_VOID_CNT) := by
  change execShadowPass flip s = _
  simp [execShadowPass, hq, hon, hb, hv]

theorem exec_shadowPass_compared {flip d : Word} {t : State} (hv : c.void = false)
    (hrun : (s.setShld { s.shld with copies := rest }).runCopy 4 flip c = (t, d)) :
    exec (.shadowPass flip) s = .next ((t.bump R.CWAY_SHLD_CMP_CNT).compareDigests c d) := by
  have htakes : ¬ ((!s.shadowing) = true ∨ s.blockHeld 28 = true) := by simp [hon, hb]
  change execShadowPass flip s = _
  simp only [execShadowPass, hq, if_neg htakes, if_neg (Bool.eq_false_iff.mp hv), hrun]
  unfold State.compareDigests State.queueReplay State.recordMismatch ShadowCopy.differing
  by_cases hd : d = c.digest
  · simp only [if_pos hd]
  · simp only [if_neg hd, apply_ite Host.Outcome.next]

end

/-! ### The tie-break replay (R124, R126) -/

theorem takeFirst_append_cons {α : Type} {p : α → Bool} {before : List α} {a : α} (rest : List α)
    (hbefore : ∀ b ∈ before, p b = false) (ha : p a = true) :
    takeFirst p (before ++ a :: rest) = some (a, before ++ rest) := by
  induction before with
  | nil => simp [takeFirst, ha]
  | cons b before ih =>
    obtain ⟨hb, hbefore⟩ := List.forall_mem_cons.mp hbefore
    simp [takeFirst, hb, ih hbefore]

theorem replayOpen_iff {s : State} {c : ShadowCopy} : s.replayOpen c = true ↔
    s.instRuns (s.replayInst c.inst) = true ∧ (s.cinst (s.replayInst c.inst)).recirc = [] := by
  simp [State.replayOpen]

theorem replayOpen_eq_false_iff {s : State} {c : ShadowCopy} : s.replayOpen c = false ↔
    s.instRuns (s.replayInst c.inst) = false ∨ (s.cinst (s.replayInst c.inst)).recirc ≠ [] := by
  rw [State.replayOpen, Bool.and_eq_false_iff, List.isEmpty_eq_false_iff]

/-- The replays before the one that runs cannot enter, and keep their places. -/
theorem exec_tieBreakReplay_oldestOpen {flip d : Word} {c : ShadowCopy} {before rest : List ShadowCopy} {s t : State}
    (hq : s.shld.replays = before ++ c :: rest) (hbefore : ∀ b ∈ before, s.replayOpen b = false)
    (hopen : s.replayOpen c = true)
    (hrun : (s.setShld { s.shld with replays := before ++ rest }).runCopy (s.replayInst c.inst) flip c = (t, d)) :
    exec (.tieBreakReplay flip) s = .next
      (((t.bump R.CWAY_SHLD_REPLAY_CNT).vote c (s.replayInst c.inst) d).startPasses (s.replayInst c.inst)) := by
  have htaken : takeFirst s.replayOpen s.shld.replays = some (c, before ++ rest) := by
    rw [hq]
    exact takeFirst_append_cons rest hbefore hopen
  change execTieBreakReplay flip s = _
  simp only [execTieBreakReplay, htaken, hrun]

/-! ### The substitution and the manager's commands (R118, R127) -/

/-- Steps 3 to 5 of R127 for the suspect `n`, whose passes are abandoned first. -/
def State.replaceBySpare (s : State) (n : Nat) : State :=
  (((((s.abandonRuns n).pauseEnd n (s.paused n)).freeze n).adopt n).remap n).takeOver n

/-- What software observes of a substitution of `n` that replayed `k` passes (R127 step 6). -/
def State.showSubstitution (u : State) (n k : Nat) : State :=
  (((u.drew.wr R.CWAY_SHLD_SUB_NS (BitVec.ofNat 64 (u.fresh.toNat % 5001))).wrf R.IDENT_CWAY 7 1 0).wrf R.IDENT_CWAY 4 3
    n).raise 0x285 noFunc n k

/-- SUBSTITUTED carries the time of the decision (R127). -/
theorem exec_substitution_substituting {n : Nat} {s v : State} (hst : s.shld.st = .substituting)
    (hn : s.shld.target = n) (hv : v = (s.replaceBySpare n).showSubstitution n (s.cinst n).retain.length) :
    exec .substitution s = .next (v.setXing 0x285 { v.xing 0x285 with time := v.rd R.CWAY_SHLD_SUB_TIME }) := by
  change execSubstitution s = _
  simp only [execSubstitution, if_neg (not_not_intro hst), hn, hv]
  rfl

theorem exec_shoulderForce_ready {s : State} {ch : BitVec 13} {seq : BitVec 4} {c : OpenCmd}
    (hc : s.ready ch seq 0x37 c = true) (hslot : c.imm ≤ 3) :
    exec (.shoulderForce ch seq) s = .next ((s.force c.imm).answered ch c 0 0) := by
  change execShoulderForce ch seq s = _
  simp only [execShoulderForce, gcs_ready hc, if_neg (Nat.not_lt.mpr hslot), closed_ok]

theorem exec_shoulderCfg_ready {s : State} {ch : BitVec 13} {seq : BitVec 4} {c : OpenCmd}
    (hc : s.ready ch seq 0x36 c = true) (hhigh : fld c.arg 32 16 = 0) (hreserved : c.arg &&& 0x7C0000F0 = 0) :
    exec (.shoulderCfg ch seq) s = .next ((s.wr R.CWAY_SHLD_CFG (BitVec.ofNat 64 c.imm)).answered ch c 0 0) := by
  have hok : ¬ (fld c.arg 32 16 ≠ 0 ∨ c.arg &&& 0x7C0000F0 ≠ 0) :=
    not_or_intro (not_not_intro hhigh) (not_not_intro hreserved)
  change execShoulderCfg ch seq s = _
  simp only [execShoulderCfg, gcs_ready hc, if_neg hok, closed_ok]

/-- Settles O23: the comparison is split by what the two digests are, the replay by which replays can enter. -/
theorem shoulderCommands : Obligations.ShoulderCommands := by
  refine ⟨fun _ _ _ hst hen hslot hi => exec_shadowWindowOpen_standing hst hen hslot hi,
    fun _ _ hst hw => exec_shadowWindowEnd_shadowing hst hw,
    fun flip _ _ _ hq hon hb hv => exec_shadowPass_void hq hon hb hv flip,
    fun flip c rest s t hq hon hb hv hrun => ?matching, fun flip d c rest s t u hq hon hb hv hrun hd hu => ?differing,
    fun flip d c before rest s t u hq hbefore hruns hempty hrun hu => ?replay,
    fun n s u v hst hn hu hv => ?substitution,
    fun _ _ _ _ hc hslot => exec_shoulderForce_ready hc hslot,
    fun _ _ _ _ hc hhigh hreserved => exec_shoulderCfg_ready hc hhigh hreserved⟩
  case matching =>
    rw [exec_shadowPass_compared hq hon hb hv hrun, State.compareDigests, if_pos rfl]
  case differing =>
    rw [hu]
    refine ⟨_, _, rfl, rfl, ?_⟩
    rw [exec_shadowPass_compared hq hon hb hv hrun, State.compareDigests, if_neg hd, State.queueReplay,
      State.recordMismatch, ShadowCopy.differing]
  case replay =>
    rw [hu]
    exact exec_tieBreakReplay_oldestOpen hq (fun b hb => replayOpen_eq_false_iff.mpr (hbefore b hb))
      (replayOpen_iff.mpr ⟨hruns, hempty⟩) hrun
  case substitution =>
    rw [hu] at hv
    exact exec_substitution_substituting hst hn hv

end Sys2Proof.Machine
end

section
/-!
Chapter 6: admission, sending, refill and the gates of the traffic manager (R137 to R156), its indirect window and its commands
(R133, R156, R158, R285).
-/
namespace Sys2Proof.Machine
open Sys2Proof

/-! ### Admission, sending and refill (R137, R138, R139, R142) -/

theorem exec_tmAdmit_cons {p : Pkt} {mirror : Bool} {rest : List (Pkt × Bool)} {s : State}
    (hq : s.tm.input = (p, mirror) :: rest) (hb : s.blockHeld 9 = false) (hr : s.tmRuns = true) :
    exec .tmAdmit s = .next ({ s with tm := { s.tm with input := rest } }.admitPkt p mirror) := by
  change execTmAdmit s = _
  simp [execTmAdmit, hq, hb, hr]

/-- A port node that may send and whose choice is a packet sends that packet, and no other (R138). -/
theorem portSend_of_send {n : Nat} {c : Pick} {s t : State} (hup : s.nodeUp n = true)
    (hel : (s.tmNode (portKey n)).eligible = true) (hc : s.portChoose n (s.portKids n) classOrder = (t, .send c))
    (bad cut : Bool) (fuel : Nat) : s.portSend n bad cut (fuel + 1) = t.sendPick n c bad cut := by
  simp [State.portSend, hup, hel, hc]

theorem exec_tmSend_running {s : State} (hr : s.tmRuns = true) (n : Fin 16) (bad : Bool) :
    exec (.tmSend n bad) s = .next (s.portSend n.val bad false (s.queued + 1)) := by
  change execTmSend n bad s = _
  simp [execTmSend, hr]

theorem exec_shaperRefill_running {s : State} (hr : s.tmRuns = true) :
    exec .shaperRefill s =
      .next (s.each (s.tm.node.map (fun e => e.1)) (fun s k => s.setTmNode k (s.tmNode k).refill)) := by
  change execShaperRefill s = _
  simp [execShaperRefill, hr]

/-! ### The gates (R152, R155, R156) -/

theorem exec_timeGateEntry_running {s : State} (hr : s.tmRuns = true) (p : Fin 8) :
    exec (.timeGateEntry p) s = .next (s.gateNow p.val) := by
  change execTimeGateEntry p s = _
  simp [execTimeGateEntry, hr]

/-- The gates of entry 0 of the list in force at port `p`; all are open where the list has no entry. -/
def State.firstGates (s : State) (p : Nat) : Byte := ((s.activeSegs p).head?.map (fun x => x.gates)).getD 0xFF

/-- The gate of a port as its new list begins: TM_TG_CFG is taken, and the gates stay open unless it enables them (R152, R156). -/
def State.gateBegin (s : State) (p : Nat) : TimeGate :=
  let cfg := (s.rd (R.TM_TG_CFG p)).setWidth 32
  { s.gate p with cfg := cfg, gates := if bit cfg 31 then s.firstGates p else 0xFF }

theorem exec_timeGateSwitch_pending {p : Fin 8} {s : State} (hr : s.tmRuns = true) (hp : (s.gate p.val).pending ≠ none) :
    exec (.timeGateSwitch p) s =
      .next ((s.gateSwap p.val).setGate p.val ((s.gateSwap p.val).gateBegin p.val)) := by
  change execTimeGateSwitch p s = _
  simp only [execTimeGateSwitch, hr, Option.isNone_eq_false_iff.mpr (Option.isSome_iff_ne_none.mpr hp), State.gateBegin,
    State.firstGates]
  cases (s.gateSwap p.val).activeSegs p.val <;> rfl

/-- Settles O27: one clause for each command of a traffic manager that runs. -/
theorem trafficManagerTraffic : Obligations.TrafficManagerTraffic := by
  refine ⟨fun _ _ _ _ hq hb hr => exec_tmAdmit_cons hq hb hr, fun n bad c s t hr hup hel hc => ?sent,
    fun _ hr => exec_shaperRefill_running hr, fun p _ hr => exec_timeGateEntry_running hr p,
    fun p g gates s hr hp hg hgates => ?switched⟩
  case sent => rw [exec_tmSend_running hr, portSend_of_send hup hel hc]
  case switched =>
    subst hg hgates
    exact exec_timeGateSwitch_pending hr hp

/-! ### The indirect window (R133, R156, R158) -/

/-- TM_IND_CTL written with `v`. -/
def State.indCtl (s : State) (v : Word) : State := s.wr R.TM_IND_CTL ((v &&& 0xFCFFFFFF).setWidth 64)

/-- An object of `size` bytes as the data registers give it. -/
def State.indObject (t : State) (size : Nat) : Bytes :=
  ((List.range 32).flatMap (fun k => leBytes 4 (t.rd (R.TM_IND_DATA k)).toNat)).take size

/-- The data registers that an object covers take its bytes. -/
def State.showObject (t : State) (b : Bytes) : State :=
  t.each (List.range (b.length / 4)) (fun u k => u.wr (R.TM_IND_DATA k) (BitVec.ofNat 64 (leAt b (4 * k) 4)))

section
variable {v : Word} {kind i size count : Nat} {s : State} (hb : s.blockHeld 9 = false) (hk : fld v 26 4 = kind)
  (hi : fld v 0 24 = i) (ho : tmKind kind = some (size, count)) (hlt : i < count)
include hb hk hi ho hlt

theorem exec_tmIndRead_inRange (hop : fld v 30 2 = 1) : exec (.tmIndRead v) s =
    .next (((s.indCtl v).drew.showObject ((s.indCtl v).tmObject kind i (s.indCtl v).free)).tmWindow false) := by
  subst hk hi
  have hacts : ¬ (s.blockHeld 9 = true ∨ fld v 30 2 ≠ 1) := by simp [hb, hop]
  change execTmIndRead v s = _
  simp only [execTmIndRead, if_neg hacts, ho, if_neg (Nat.not_le.mpr hlt)]
  rfl

theorem exec_tmIndWrite_inRange (hop : fld v 30 2 = 2)
    (hw : (s.indCtl v).tmRefused kind i ((s.indCtl v).indObject size) = false) : exec (.tmIndWrite v) s =
    .next (((s.indCtl v).tmPut kind i ((s.indCtl v).indObject size)).tmWindow false) := by
  subst hk hi
  have hacts : ¬ (s.blockHeld 9 = true ∨ fld v 30 2 ≠ 2) := by simp [hb, hop]
  have hput : ¬ (count ≤ fld v 0 24 ∨
      (s.indCtl v).tmRefused (fld v 26 4) (fld v 0 24) ((s.indCtl v).indObject size) = true) := by
    simp [Nat.not_le.mpr hlt, hw]
  unfold State.indObject State.indCtl at *
  change execTmIndWrite v s = _
  simp only [execTmIndWrite, if_neg hacts, ho, if_neg hput]

end

/-! ### TM_READ and TM_WRITE (R158, R285) -/

theorem exec_tmRead_ready {ch : BitVec 13} {seq : BitVec 4} {c : OpenCmd} {kind i n size : Nat} {out : Bytes} {s : State}
    (hc : s.ready ch seq 0x40 c = true) (hrange : c.tmRange = some (kind, i, n, size))
    (hmay : s.tmMay ch.toNat kind i n = true) (hsize : n * size ≤ outSpace ch.toNat c)
    (hout : out = (List.range n).flatMap (fun k => s.tmObject kind (i + k) (s.free + k)))
    (hroom : out.length ≤ outSpace ch.toNat c) :
    exec (.tmRead ch seq) s = .next ({ s with free := s.free + n }.answeredOut ch c out) := by
  subst hout
  change execTmRead ch seq s = _
  simp only [execTmRead, gcs_ready hc, hrange, hmay, Bool.not_true, Bool.false_eq_true, if_false,
    if_neg (Nat.not_lt.mpr hsize), closed_out _ _ _ _ _ _ hroom]

/-- The objects of a command's block: `n` of `size` bytes each, from `base`. -/
def argObjects (a : Bytes) (base size n : Nat) : List Bytes := (List.range n).map (fun k => slice a (base + size * k) size)

/-- A block that names a range of objects names a kind that exists, and its objects' size is that kind's (Table 6-4). -/
theorem tmKind_of_tmRange {c : OpenCmd} {kind i n size : Nat} (h : c.tmRange = some (kind, i, n, size)) :
    ∃ count, tmKind (leAt c.args 0 1) = some (size, count) := by
  cases hk : tmKind (leAt c.args 0 1) with
  | none => simp [OpenCmd.tmRange, hk] at h
  | some x =>
    obtain ⟨size', count⟩ := x
    simp only [OpenCmd.tmRange, hk, Option.ite_none_left_eq_some, Option.some.injEq, Prod.mk.injEq] at h
    obtain ⟨-, -, -, -, hsize⟩ := h
    exact ⟨count, by rw [hsize]⟩

/-- Every PARENT that an object names may be named (R265); only a subscriber node names a service node. -/
theorem parentMay_of {s : State} {ch kind : Nat} {b : Bytes}
    (h : kind = 3 → s.tmMay ch 4 (leAt b 0 4 % 16384) 1 = true) : s.parentMay ch kind b = true := by
  by_cases hk : kind = 3
  · simp [State.parentMay, h hk]
  · simp [State.parentMay, hk]

theorem exec_tmWrite_ready {ch : BitVec 13} {seq : BitVec 4} {c : OpenCmd} {kind i n size : Nat} {s : State}
    (hc : s.ready ch seq 0x41 c = true) (hrange : c.tmRange = some (kind, i, n, size))
    (hlong : ∀ x, tmKind (leAt c.args 0 1) = some x → c.tooLong (16 + x.1 * leAt c.args 8 4) = false)
    (hz : leAt c.args 12 4 = 0) (hlen : 16 + size * n ≤ c.args.length)
    (hres : ∀ b ∈ argObjects c.args 16 size n, tmReserved kind b = 0) (hmay : s.tmMay ch.toNat kind i n = true)
    (hparent : ∀ b ∈ argObjects c.args 16 size n, s.parentMay ch.toNat kind b = true)
    (hw : ∀ k < n, s.tmRefused kind (i + k) ((argObjects c.args 16 size n).getD k []) = false) :
    exec (.tmWrite ch seq) s = .next ((s.each (List.range n)
      (fun s k => s.tmPut kind (i + k) ((argObjects c.args 16 size n).getD k []))).answered ch c 0 0) := by
  obtain ⟨count, hkind⟩ := tmKind_of_tmRange hrange
  have hshort : c.tooLong (16 + size * leAt c.args 8 4) = false := hlong _ hkind
  have hform : ¬ (leAt c.args 12 4 ≠ 0 ∨ c.args.length < 16 + size * n ∨
      (argObjects c.args 16 size n).any (fun b => tmReserved kind b != 0) = true) := by
    simpa [hz, Nat.not_lt.mpr hlen] using hres
  have howned : ¬ (!s.tmMay ch.toNat kind i n ||
      (argObjects c.args 16 size n).any (fun b => !s.parentMay ch.toNat kind b)) = true := by
    simpa [hmay] using hparent
  have hput : ¬ (List.range n).any
      (fun k => s.tmRefused kind (i + k) ((argObjects c.args 16 size n).getD k [])) = true := by
    simpa using hw
  unfold argObjects at *
  change execTmWrite ch seq s = _
  simp only [execTmWrite, gcs_ready hc, hkind, hshort, Bool.false_eq_true, if_false, hrange, if_neg hform, if_neg howned,
    if_neg hput, closed_ok]

/-! ### TM_DRAIN and TM_FLUSH (R133, R146) -/

/-- The drain of a command joins the drains that wait. -/
def State.addDrain (s : State) (d : Drain) : State := { s with tm := { s.tm with drains := s.tm.drains ++ [d] } }

theorem exec_tmDrain_ready {ch : BitVec 13} {seq : BitVec 4} {c : OpenCmd} {kind i : Nat} {s : State}
    (hc : s.ready ch seq 0x42 c = true) (hk : fld c.arg 24 4 = kind) (hi : fld c.arg 0 24 = i) (hz : fld c.arg 28 20 = 0)
    (hnode : kind = 3 ∧ i < 65536 ∨ kind = 4 ∧ i < 16384) (hmay : s.tmMay ch.toNat kind i 1 = true) :
    exec (.tmDrain ch seq) s = .next (if s.busyBelow kind i then
      (s.addDrain ⟨kind, i, ch.toNat, seq.toNat, 0⟩).markWaiting ch.toNat seq else s.answered ch c 0 0) := by
  have hok : ¬ (fld c.arg 28 20 ≠ 0 ∨ (kind ≠ 3 ∧ kind ≠ 4) ∨ cond (kind == 3) 65536 16384 ≤ i) := by
    obtain ⟨rfl, hlt⟩ | ⟨rfl, hlt⟩ := hnode
    · simp [hz, hlt]
    · simp [hz, hlt]
  subst hk hi
  change execTmDrain ch seq s = _
  simp only [execTmDrain, gcs_ready hc, if_neg hok, hmay, Bool.not_true, Bool.false_eq_true, if_false]
  cases hbusy : s.busyBelow (fld c.arg 24 4) (fld c.arg 0 24) with
  | true => simp [State.addDrain]
  | false => simp

theorem exec_tmDrainDone_idle {ch : BitVec 13} {seq : BitVec 4} {d : Drain} {s : State}
    (hd : s.tm.drains.find? (fun d => d.ch == ch.toNat && d.seq == seq.toNat) = some d)
    (hidle : s.busyBelow d.kind d.node = false) :
    exec (.tmDrainDone ch seq) s = .next ({ s with tm := { s.tm with
      drains := s.tm.drains.filter (fun x => !(x.ch == d.ch && x.seq == d.seq)) } }.finish (some (d.ch, d.seq)) 0 d.sent) := by
  change execTmDrainDone ch seq s = _
  simp only [execTmDrainDone, hd, hidle, Bool.false_eq_true, if_false]

theorem exec_tmFlush_ready {ch : BitVec 13} {seq : BitVec 4} {c : OpenCmd} {s : State} (hc : s.ready ch seq 0x43 c = true)
    (hn : c.imm ≤ 15) :
    exec (.tmFlush ch seq) s = .next ((s.flushNode c.imm 10).1.answered ch c 0 (s.flushNode c.imm 10).2) := by
  change execTmFlush ch seq s = _
  simp only [execTmFlush, gcs_ready hc, if_neg (Nat.not_lt.mpr hn), closed_ok]

/-! ### TG_LOAD, TG_SWITCH and POOL_SET (R156) -/

/-- The number of entry 0 of port `p`'s inactive bank of gate list entries. -/
def State.inactiveBase (s : State) (p : Nat) : Nat := p * 2048 + if (s.gate p).bank then 0 else 1024

theorem exec_tgLoad_ready {ch : BitVec 13} {seq : BitVec 4} {c : OpenCmd} {p first k : Nat} {s : State}
    (hc : s.ready ch seq 0x44 c = true) (hport : leAt c.args 0 1 = p) (hfirst : leAt c.args 4 2 = first)
    (hcount : leAt c.args 6 2 = k) (hp : p < 8) (hz : leAt c.args 1 3 = 0) (hbank : first + k ≤ 1024)
    (hlen : 8 + 8 * k ≤ c.args.length) (hres : ∀ b ∈ argObjects c.args 8 8 k, tmReserved 8 b = 0)
    (hpend : (s.gate p).pending = none) :
    exec (.tgLoad ch seq) s = .next ((s.each (List.range k) (fun t j =>
      t.tmPut 8 (s.inactiveBase p + first + j) ((argObjects c.args 8 8 k).getD j []))).answered ch c 0 0) := by
  have hform : ¬ (7 < p ∨ leAt c.args 1 3 ≠ 0 ∨ 1024 < first + k ∨ c.args.length < 8 + 8 * k ∨
      (argObjects c.args 8 8 k).any (fun b => tmReserved 8 b != 0) = true) := by
    simpa [Nat.not_lt.mpr (Nat.le_of_lt_succ hp), hz, Nat.not_lt.mpr hbank, Nat.not_lt.mpr hlen] using hres
  have hbase : p * 2048 + b2n (!(s.gate p).bank) * 1024 = s.inactiveBase p := by
    cases hb : (s.gate p).bank <;> simp [State.inactiveBase, hb, b2n]
  subst hport hfirst hcount
  unfold argObjects at *
  change execTgLoad ch seq s = _
  simp only [execTgLoad, gcs_ready hc, if_neg hform, hpend, Option.isSome_none, Bool.false_eq_true, if_false, hbase, closed_ok]

/-- The list that TG_SWITCH asks for, its base time, cycle and length, and the request for it (R156). -/
def State.askSwitch (s : State) (p base cycle len : Nat) : State :=
  (((s.wr (R.TM_TG_NEXT_BASE p) (BitVec.ofNat 64 base)).wr (R.TM_TG_NEXT_CYCLE p) (BitVec.ofNat 64 cycle)).wr
    (R.TM_TG_NEXT_LEN p) (BitVec.ofNat 64 len)).gateRequest p

theorem exec_tgSwitch_ready {ch : BitVec 13} {seq : BitVec 4} {c : OpenCmd} {p : Nat} {s t : State}
    (hc : s.ready ch seq 0x45 c = true) (hport : leAt c.args 0 1 = p) (hp : p < 8) (hz : leAt c.args 1 7 = 0)
    (hcycle : leAt c.args 16 4 < 2 ^ 30) (hlen : leAt c.args 20 2 < 2 ^ 11)
    (ht : t = s.askSwitch p (leAt c.args 8 8) (leAt c.args 16 4) (leAt c.args 20 2)) :
    exec (.tgSwitch ch seq) s = .next (t.answered ch c 0 ((t.rd (R.TM_TG_SWITCH_TIME p)).toNat % 2 ^ 32)) := by
  have hok : ¬ (7 < p ∨ leAt c.args 1 7 ≠ 0 ∨ 2 ^ 30 ≤ leAt c.args 16 4 ∨ 2 ^ 11 ≤ leAt c.args 20 2) := by omega
  subst hport ht
  change execTgSwitch ch seq s = _
  simp only [execTgSwitch, gcs_ready hc, if_neg hok, closed_ok, State.askSwitch]

theorem exec_poolSet_ready {ch : BitVec 13} {seq : BitVec 4} {c : OpenCmd} {s : State} (hc : s.ready ch seq 0x46 c = true)
    (hlow : fld c.arg 22 10 = 0) (hhigh : fld c.arg 37 11 = 0) :
    exec (.poolSet ch seq) s =
      .next ((s.wr (R.TM_POOL_LIMIT (fld c.arg 32 5)) (BitVec.ofNat 64 (fld c.arg 0 22))).answered ch c 0 0) := by
  have hok : ¬ (fld c.arg 22 10 ≠ 0 ∨ fld c.arg 37 11 ≠ 0) :=
    not_or_intro (not_not_intro hlow) (not_not_intro hhigh)
  change execPoolSet ch seq s = _
  simp only [execPoolSet, gcs_ready hc, if_neg hok, closed_ok]

/-- Settles O29: one clause for each access, whose operands are in range. -/
theorem trafficManagerAccess : Obligations.TrafficManagerAccess := by
  refine ⟨fun v kind i size count s t hb hop hk hi ho hlt ht => ?indRead,
    fun v kind i size count b s t hb hop hk hi ho hlt ht hobj hw => ?indWrite,
    fun _ _ _ _ _ _ _ _ _ hc hrange hmay hsize hout hroom => exec_tmRead_ready hc hrange hmay hsize hout hroom,
    fun ch seq c kind i n size objs s hc hrange hlong hz hlen hobjs hres hmay hparent hw => ?write,
    fun _ _ _ _ _ _ hc hk hi hz hnode hmay => exec_tmDrain_ready hc hk hi hz hnode hmay,
    fun _ _ _ _ hd hidle => exec_tmDrainDone_idle hd hidle,
    fun _ _ _ _ hc hn => exec_tmFlush_ready hc hn,
    fun ch seq c p first k base s hc hport hfirst hcount hp hz hbank hlen hres hpend hbase => ?load,
    fun _ _ _ _ _ _ hc hport hp hz hcycle hlen ht => exec_tgSwitch_ready hc hport hp hz hcycle hlen ht,
    fun _ _ _ _ hc hlow hhigh => exec_poolSet_ready hc hlow hhigh⟩
  case indRead =>
    subst ht
    exact exec_tmIndRead_inRange hb hk hi ho hlt hop
  case indWrite =>
    subst hobj ht
    exact exec_tmIndWrite_inRange hb hk hi ho hlt hop hw
  case write =>
    subst hobjs
    exact exec_tmWrite_ready hc hrange hlong hz hlen hres hmay
      (fun b hb => parentMay_of (fun h3 => hparent h3 b hb)) hw
  case load =>
    subst hbase
    exact exec_tgLoad_ready hc hport hfirst hcount hp hz hbank hlen (by simpa [argObjects] using hres) hpend

end Sys2Proof.Machine
end

section
/-!
Chapter 7: the line ports as their links change (R159, R160, R168, R169, R408), flow control (R165, R166), the frames that the
line ports and the management port receive (R162, R167, R387, R391), and the commands that configure them.
-/
namespace Sys2Proof.Machine
open Sys2Proof

/-! ### Alignment, training and the link (R162, R164, R168, Table 7-2) -/

theorem cutFrames_eq (s : State) (p : Nat) (tx rx : Bool) {t : State}
    (ht : t = if tx = true ∧ s.tmRuns = true then s.portSend p false true (s.queued + 1) else s) :
    s.cutFrames p tx rx = if rx then t.bump (R.LINE_DROP_CNT p 3) else t := by
  simp only [State.cutFrames, State.if_, Bool.and_eq_true, ht]

theorem exec_alignmentLoss_aligned {p : Fin 8} {s : State} (hup : (s.port p.val).st = .up)
    (hal : (s.port p.val).alignLost = false) (cutTx cutRx : Bool) :
    exec (.alignmentLoss p cutTx cutRx) s =
      .next ((s.cutFrames p.val cutTx cutRx).setPort p.val
        { (s.cutFrames p.val cutTx cutRx).port p.val with alignLost := true }) := by
  have hok : ¬ ((s.port p.val).st ≠ .up ∨ (s.port p.val).alignLost = true) := by simp [hup, hal]
  change execAlignmentLoss p cutTx cutRx s = _
  simp only [execAlignmentLoss, if_neg hok]

section
variable {p : Fin 8} {s : State} (hup : (s.port p.val).st = .up) (hal : (s.port p.val).alignLost = true)
include hup hal

theorem port_lost : ¬ ((s.port p.val).st ≠ .up ∨ (!(s.port p.val).alignLost) = true) := by simp [hup, hal]

theorem exec_alignmentRegained_lost :
    exec (.alignmentRegained p) s = .next (s.setPort p.val { s.port p.val with alignLost := false }) := by
  change execAlignmentRegained p s = _
  simp only [execAlignmentRegained, if_neg (port_lost hup hal)]

theorem exec_linkDown_lost : exec (.linkDown p) s = .next (s.leaveUp p.val (s.bringUp p.val) true) := by
  change execLinkDown p s = _
  simp only [execLinkDown, if_neg (port_lost hup hal)]

end

theorem exec_trainingComplete_training {p : Fin 8} {s : State} (ht : (s.port p.val).st = .training)
    (href : s.clk.lineRef = true) :
    exec (.trainingComplete p) s = .next (s.setPort p.val { s.port p.val with st := .aligning }) := by
  have hok : ¬ ((s.port p.val).st ≠ .training ∨ (!s.clk.lineRef) = true) := by simp [ht, href]
  change execTrainingComplete p s = _
  simp only [execTrainingComplete, if_neg hok]

theorem exec_trainingTimeout_training {p : Fin 8} {s : State} (ht : (s.port p.val).st = .training) :
    exec (.trainingTimeout p) s = .next (s.setPort p.val { s.port p.val with
      tries := if (s.port p.val).tries = 255 then 255 else (s.port p.val).tries + 1 }) := by
  change execTrainingTimeout p s = _
  simp only [execTrainingTimeout, if_neg (not_not_intro ht)]

/-- The event tells of the TRAIN_TRIES of before, which the entry to UP clears. -/
theorem exec_linkUp_aligning {p : Fin 8} {s : State} (ha : (s.port p.val).st = .aligning) (href : s.clk.lineRef = true) :
    exec (.linkUp p) s = .next ((s.setPort p.val { s.port p.val with st := .up, tries := 0, alignLost := false }).raise
      (0x180 + p.val) noFunc (s.port p.val).tries.toNat (s.rdf R.LINE_PORT_OPT 0 3)) := by
  have hok : ¬ ((s.port p.val).st ≠ .aligning ∨ (!s.clk.lineRef) = true) := by simp [ha, href]
  change execLinkUp p s = _
  simp only [execLinkUp, if_neg hok]

theorem exec_alignTimeout_aligning {p : Fin 8} {s : State} (ha : (s.port p.val).st = .aligning) :
    exec (.alignTimeout p) s = .next (s.setPort p.val { s.port p.val with st := s.bringUp p.val }) := by
  change execAlignTimeout p s = _
  simp only [execAlignTimeout, if_neg (not_not_intro ha)]

/-! ### Flow control, pre-FEC errors and the line reference (R165, R166, R169, R408) -/

theorem exec_fecDegraded_eq (p : Fin 8) (errors : Nat) (s : State) {on : Bool}
    (hon : on = decide ((s.rd R.LINE_FEC_THRESH).toNat < errors)) :
    exec (.fecDegraded p errors) s =
      .next (((s.bumpN (R.LINE_FEC_SYM_CNT p.val) errors).setPort p.val { s.port p.val with fecDegraded := on }).if_
        (on && !(s.port p.val).fecDegraded) (fun s => s.raise (0x190 + p.val) noFunc errors 0)) := by
  subst hon
  rfl

theorem exec_pfcRefresh_aboveXon {p c : Fin 8} {s : State} (hup : (s.port p.val).st = .up) (hflow : s.flow p.val ≠ 0)
    (hxoff : bit (s.port p.val).xoff c.val = true) (hcells : s.rdf (R.LINE_PFC_THRESH p.val) 0 16 < s.flowCells p.val c.val) :
    exec (.pfcRefresh p c) s = .next (s.sendPfc p.val c.val 0xFFFF) := by
  change execPfcRefresh p c s = _
  exact if_pos ⟨hup, hflow, hxoff, hcells⟩

theorem exec_lineRefLost_present {s : State} (href : s.clk.lineRef = true) :
    exec .lineRefLost s = .next (({ s with clk := { s.clk with lineRef := false } }.raise 0x782 noFunc 0 0).each
      (List.range 8) (fun s p => if (s.port p).st = LinkSt.up then s.leaveUp p (s.bringUp p) true else s)) := by
  have hok : ¬ ((!s.clk.lineRef) = true) := by simp [href]
  change execLineRefLost s = _
  simp only [execLineRefLost, if_neg hok]

/-- Settles O30: each command finds the link state its row of Table 7-2 names; a cut is that of `State.cutFrames`. -/
theorem linePortStates : Obligations.LinePortStates := by
  refine ⟨fun p cutTx cutRx s hup hal => ?cut,
    fun _ _ hup hal => ⟨exec_alignmentRegained_lost hup hal, exec_linkDown_lost hup hal⟩,
    fun _ _ ht href => exec_trainingComplete_training ht href, fun _ _ ht => exec_trainingTimeout_training ht,
    fun _ _ ha href => exec_linkUp_aligning ha href, fun _ _ ha => exec_alignTimeout_aligning ha,
    fun p errors _ s hon => exec_fecDegraded_eq p errors s hon, fun _ _ _ => rfl,
    fun _ _ _ hup hflow hxoff hcells => exec_pfcRefresh_aboveXon hup hflow hxoff hcells,
    fun _ href => exec_lineRefLost_present href, fun _ => rfl⟩
  case cut =>
    refine ⟨_, _, rfl, rfl, ?_⟩
    rw [exec_alignmentLoss_aligned hup hal, cutFrames_eq s p.val cutTx cutRx rfl]

/-! ### Received frames (R162, R165, R387, R391) -/

/-- What becomes of a frame that the MAC has passed and counted: MACsec drops it, or it enters (R387, R391). -/
def State.macsecIngress (t : State) (p : Nat) (frame : Bytes) : State := match t.macsecRx p frame with
  | (u, .error r) => u.bump (R.CIPH_MACSEC_DROP_CNT p r)
  | (u, .ok f) => u.ingress f p 4 0 (some p)

theorem exec_lineFrameReceive_notUp {p : Fin 8} {s : State} (hup : (s.port p.val).st ≠ .up) (frame : Bytes) (ok symErr : Bool) :
    exec (.lineFrameReceive p frame ok symErr) s = .next s := by
  change execLineFrameReceive p frame ok symErr s = _
  simp only [execLineFrameReceive, if_pos (Or.inl hup)]

section
variable {p : Fin 8} {s : State} (hup : (s.port p.val).st = .up) (hopt : p.val < s.portOpt.1)
include hup hopt

theorem port_receives : ¬ ((s.port p.val).st ≠ .up ∨ s.portOpt.1 ≤ p.val) :=
  not_or_intro (not_not_intro hup) (Nat.not_le.mpr hopt)

theorem exec_lineFrameReceive_badCheck (frame : Bytes) :
    exec (.lineFrameReceive p frame false false) s = .next (s.bump (R.LINE_DROP_CNT p.val 0)) := by
  change execLineFrameReceive p frame false false s = _
  simp [execLineFrameReceive, if_neg (port_receives hup hopt), State.if_]

theorem exec_lineFrameReceive_fecError (frame : Bytes) (ok : Bool) :
    exec (.lineFrameReceive p frame ok true) s =
      .next ((s.bump (R.LINE_FEC_UNCORR_CNT p.val)).bump (R.LINE_DROP_CNT p.val 0)) := by
  change execLineFrameReceive p frame ok true s = _
  simp [execLineFrameReceive, if_neg (port_receives hup hopt), State.if_]

theorem exec_lineFrameReceive_alignLost (hal : (s.port p.val).alignLost = true) (frame : Bytes) :
    exec (.lineFrameReceive p frame true false) s = .next (s.bump (R.LINE_DROP_CNT p.val 0)) := by
  change execLineFrameReceive p frame true false s = _
  simp [execLineFrameReceive, if_neg (port_receives hup hopt), State.if_, hal]

section
variable {frame : Bytes} (hal : (s.port p.val).alignLost = false)
include hal

theorem exec_lineFrameReceive_short (hlen : frame.length < 60) :
    exec (.lineFrameReceive p frame true false) s = .next (s.bump (R.LINE_DROP_CNT p.val 1)) := by
  change execLineFrameReceive p frame true false s = _
  simp [execLineFrameReceive, if_neg (port_receives hup hopt), State.if_, hal, hlen]

theorem exec_lineFrameReceive_long (hlen : 60 ≤ frame.length) (hmax : s.maxFrame p.val < frame.length) :
    exec (.lineFrameReceive p frame true false) s = .next (s.bump (R.LINE_DROP_CNT p.val 2)) := by
  change execLineFrameReceive p frame true false s = _
  simp [execLineFrameReceive, if_neg (port_receives hup hopt), State.if_, hal, Nat.not_lt.mpr hlen, hmax]

section
variable (hlen : 60 ≤ frame.length) (hmax : frame.length ≤ s.maxFrame p.val)
include hlen hmax

theorem exec_lineFrameReceive_pause (hpause : isPause frame = true) :
    exec (.lineFrameReceive p frame true false) s = .next (s.pauseFrame p.val frame) := by
  change execLineFrameReceive p frame true false s = _
  simp [execLineFrameReceive, if_neg (port_receives hup hopt), State.if_, hal, Nat.not_lt.mpr hlen, Nat.not_lt.mpr hmax,
    hpause]

theorem exec_lineFrameReceive_passed (hpause : isPause frame = false) {t : State}
    (ht : t = (s.bump (R.LINE_RX_PKT_CNT p.val)).bumpN (R.LINE_RX_BYTE_CNT p.val) frame.length) :
    exec (.lineFrameReceive p frame true false) s = .next (t.macsecIngress p.val frame) := by
  change execLineFrameReceive p frame true false s = _
  rcases hrx : t.macsecRx p.val frame with ⟨u, r | f⟩ <;>
    simp [execLineFrameReceive, if_neg (port_receives hup hopt), State.if_, hal, Nat.not_lt.mpr hlen, Nat.not_lt.mpr hmax,
      hpause, ← ht, State.macsecIngress, hrx]

end
end
end

theorem exec_mgmtFrameReceive_passed {frame : Bytes} {s : State} (hup : s.line.mgmtUp = true) (hlen : frame.length < 16384) :
    exec (.mgmtFrameReceive frame true) s = .next (s.ingress frame 8 8 1 none) := by
  change execMgmtFrameReceive frame true s = _
  simp [execMgmtFrameReceive, hup, Nat.not_le.mpr hlen]

theorem exec_mgmtFrameReceive_dropped {frame : Bytes} {ok : Bool} {s : State}
    (h : ok = false ∨ s.line.mgmtUp = false ∨ 16384 ≤ frame.length) : exec (.mgmtFrameReceive frame ok) s = .next s := by
  have hdrop : (!ok || !s.line.mgmtUp || decide (16384 ≤ frame.length)) = true := by simpa [or_assoc] using h
  change execMgmtFrameReceive frame ok s = _
  simp only [execMgmtFrameReceive, if_pos hdrop]

/-- Settles O31: one clause for each way a frame leaves the MAC, in the order in which the MAC checks. -/
theorem lineFramesReceived : Obligations.LineFramesReceived :=
  ⟨fun _ frame _ hup hopt => ⟨exec_lineFrameReceive_badCheck hup hopt frame, exec_lineFrameReceive_fecError hup hopt frame,
      fun hal => exec_lineFrameReceive_alignLost hup hopt hal frame, exec_lineFrameReceive_short hup hopt,
      exec_lineFrameReceive_long hup hopt, exec_lineFrameReceive_pause hup hopt,
      fun _ hal hlen hmax hpause ht => exec_lineFrameReceive_passed hup hopt hal hlen hmax hpause ht⟩,
    fun _ frame ok symErr _ hup => exec_lineFrameReceive_notUp hup frame ok symErr,
    fun _ _ hup hlen => exec_mgmtFrameReceive_passed hup hlen, fun _ _ _ h => exec_mgmtFrameReceive_dropped h⟩

/-! ### Configuration of the ports (R160, R166, R167) -/

section
variable {ch : BitVec 13} {seq : BitVec 4} {c : OpenCmd} {s : State}

theorem exec_portOption_ready (hc : s.ready ch seq 0x50 c = true) (himm : c.imm ≤ 7) :
    exec (.portOption ch seq) s = .next ((s.setPortOption c.imm).answered ch c 0 0) := by
  change execPortOption ch seq s = _
  simp only [execPortOption, gcs_ready hc, if_neg (Nat.not_lt.mpr himm), closed_ok]

theorem exec_portCfg_ready (hc : s.ready ch seq 0x51 c = true) (hhigh : fld c.arg 35 13 = 0)
    (hreserved : c.arg &&& 0x07FFC000 = 0) :
    exec (.portCfg ch seq) s =
      .next ((s.setPortCfg (fld c.arg 32 3) (BitVec.ofNat 64 (fld c.arg 0 32))).answered ch c 0 0) := by
  have hok : ¬ (fld c.arg 35 13 ≠ 0 ∨ c.arg &&& 0x07FFC000 ≠ 0) :=
    not_or_intro (not_not_intro hhigh) (not_not_intro hreserved)
  change execPortCfg ch seq s = _
  simp only [execPortCfg, gcs_ready hc, if_neg hok, closed_ok]

theorem exec_pfcThresh_ready (hc : s.ready ch seq 0x52 c = true) (hhigh : fld c.arg 35 13 = 0) :
    exec (.pfcThresh ch seq) s =
      .next ((s.setPfcThresh (fld c.arg 32 3) (BitVec.ofNat 64 (fld c.arg 0 32))).answered ch c 0 0) := by
  change execPfcThresh ch seq s = _
  simp only [execPfcThresh, gcs_ready hc, if_neg (not_not_intro hhigh), closed_ok]

theorem exec_mgmtCfg_ready (hc : s.ready ch seq 0x53 c = true) (hhigh : fld c.arg 32 16 = 0)
    (hreserved : c.arg &&& 0x3FFFFFF0 = 0) :
    exec (.mgmtCfg ch seq) s = .next ((s.setMgmtCfg (BitVec.ofNat 64 (fld c.arg 0 32))).answered ch c 0 0) := by
  have hok : ¬ (fld c.arg 32 16 ≠ 0 ∨ c.arg &&& 0x3FFFFFF0 ≠ 0) :=
    not_or_intro (not_not_intro hhigh) (not_not_intro hreserved)
  change execMgmtCfg ch seq s = _
  simp only [execMgmtCfg, gcs_ready hc, if_neg hok, closed_ok]

end

/-- The management link may go down at any time, and come up while LINE_MGMT_CFG enables it. -/
theorem exec_mgmtLink_allowed {up : Bool} {s : State} (hen : up = true → bit (s.rd R.LINE_MGMT_CFG) 31 = true) :
    exec (.mgmtLink up) s = .next (s.setMgmt up) := by
  have hok : ¬ (up = true ∧ (!bit (s.rd R.LINE_MGMT_CFG) 31) = true) := fun ⟨hu, hd⟩ => by simp [hen hu] at hd
  change execMgmtLink up s = _
  simp only [execMgmtLink, if_neg hok]

end Sys2Proof.Machine
end

section
/-!
Chapter 7: Milepost time as it runs on and as it is adjusted, slewed and shown outside (R170, R171, R174, R407).
-/
namespace Sys2Proof.Machine
open Sys2Proof

/-! ### The running count (R170, R171, R407) -/

theorem step_idle {s : State} (hq : s.pending = []) : step s = .next s.tick := by
  simp only [step, hq]

theorem tick_stopped {s : State} (hclk : bit s.clk.running 5 = false) : s.tick = s := by
  simp [State.tick, hclk]

/-- With no slew left a cycle moves the count by the increment alone, and leaves no slew. -/
theorem tick_noSlew {s : State} (hclk : bit s.clk.running 5 = true) (hslew : s.line.slew = 0) :
    s.tick = { s with line := { s.line with now := s.line.now + BitVec.ofNat 96 s.timeIncr } } := by
  have hstep : max (-(s.slewStep : Int)) (min (s.slewStep : Int) 0) = 0 := by omega
  have hzero : BitVec.ofInt 96 0 = 0#96 := rfl
  simp only [State.tick, hclk, hslew, hstep, hzero, Bool.not_true, Bool.false_eq_true, if_false, BitVec.add_zero,
    Int.sub_self]

/-- Settles O2: an idle step is a tick, which stands still with PER_CLK. -/
theorem idleStepAdvancesTime : Obligations.IdleStepAdvancesTime :=
  ⟨fun _ hq hclk hslew => by rw [step_idle hq, tick_noSlew hclk hslew],
    fun _ hq hclk => by rw [step_idle hq, tick_stopped hclk]⟩

theorem exec_slewComplete_running {s : State} (hclk : bit s.clk.running 5 = true) {n : Nat}
    (hn : n = ceilDiv s.line.slew.natAbs s.slewStep) :
    exec .slewComplete s = .next { s with line := { s.line with
      now := s.line.now + BitVec.ofNat 96 (n * s.timeIncr) + BitVec.ofInt 96 s.line.slew, slew := 0 } } := by
  subst hn
  have hruns : ¬ ((!bit s.clk.running 5) = true) := by simp [hclk]
  change execSlewComplete s = _
  simp only [execSlewComplete, if_neg hruns]

/-! ### TIME_ADJUST (R170, R171) -/

theorem timeValue_of_reserved {c : OpenCmd} (hz : leAt c.args 1 7 = 0) : c.timeValue = some (leAt c.args 8 8) :=
  if_neg (not_not_intro hz)

section
variable {ch : BitVec 13} {seq : BitVec 4} {c : OpenCmd} {s : State} (hc : s.ready ch seq 0x54 c = true)
  (hz : leAt c.args 1 7 = 0)
include hc hz

theorem exec_timeIncrWrite_ready (hop : byteAt c.args 0 = 0) (hv : leAt c.args 8 8 < 2 ^ 40) :
    exec (.timeIncrWrite ch seq) s =
      .next ((s.wr R.TIME_INCR (BitVec.ofNat 64 (leAt c.args 8 8))).answered ch c 0 0) := by
  have hok : ¬ (byteAt c.args 0 ≠ 0 ∨ 2 ^ 40 ≤ leAt c.args 8 8) := not_or_intro (not_not_intro hop) (Nat.not_le.mpr hv)
  change execTimeIncrWrite ch seq s = _
  rw [execTimeIncrWrite, gcsPick_ready hc (by simp [hop])]
  simp only [timeValue_of_reserved hz, if_neg hok, closed_ok]

theorem exec_timeSlew_ready (hop : byteAt c.args 0 = 1) (hlo : -1000000 ≤ (BitVec.ofNat 64 (leAt c.args 8 8)).toInt)
    (hhi : (BitVec.ofNat 64 (leAt c.args 8 8)).toInt ≤ 1000000) :
    exec (.timeSlew ch seq) s =
      .next ((s.setSlew (BitVec.ofNat 64 (leAt c.args 8 8)).toInt).answered ch c 0 0) := by
  have hok : ¬ ((BitVec.ofNat 64 (leAt c.args 8 8)).toInt < -1000000 ∨
      1000000 < (BitVec.ofNat 64 (leAt c.args 8 8)).toInt) := not_or_intro (Int.not_lt.mpr hlo) (Int.not_lt.mpr hhi)
  change execTimeSlew ch seq s = _
  rw [execTimeSlew, gcsPick_ready hc (by simp [hop])]
  simp only [timeValue_of_reserved hz, if_neg hok, closed_ok]

theorem exec_timeSetStep_ready (hop : byteAt c.args 0 = 2) :
    exec (.timeSetStep ch seq) s =
      .next (((s.wr R.TIME_SET (BitVec.ofNat 64 (leAt c.args 8 8))).applySet).answered ch c 0 0) := by
  change execTimeSetStep ch seq s = _
  rw [execTimeSetStep, gcsPick_ready hc (by simp [hop])]
  simp only [timeValue_of_reserved hz, closed_ok]

theorem exec_timeOffsetStep_ready (hop : byteAt c.args 0 = 3) :
    exec (.timeOffsetStep ch seq) s =
      .next (((s.wr R.TIME_OFFSET (BitVec.ofNat 64 (leAt c.args 8 8))).applyOffset).answered ch c 0 0) := by
  change execTimeOffsetStep ch seq s = _
  rw [execTimeOffsetStep, gcsPick_ready hc (by simp [hop])]
  simp only [timeValue_of_reserved hz, closed_ok]

end

/-! ### Pulse per second (R174) -/

theorem wholeSecond_iff (s : State) :
    s.wholeSecond = true ↔ s.now.toNat % 1000000000 ≤ 4 ∨ 999999996 ≤ s.now.toNat % 1000000000 := by
  simp [State.wholeSecond]

theorem exec_ppsOut_wholeSecond {s : State} (hen : bit (s.rd R.TIME_PPS_CFG) 31 = true)
    (hw : s.rdf R.TIME_PPS_CFG 0 30 ≠ 0) (hsec : s.wholeSecond = true) :
    exec .ppsOut s = .next ((s.emit (.pps true s.now)).emit
      (.pps false (s.now + BitVec.ofNat 64 (s.rdf R.TIME_PPS_CFG 0 30)))) := by
  have hok : ¬ ((!bit (s.rd R.TIME_PPS_CFG) 31 || s.rdf R.TIME_PPS_CFG 0 30 == 0 || !s.wholeSecond) = true) := by
    simp [hen, hw, hsec]
  change execPpsOut s = _
  simp only [execPpsOut, if_neg hok]

theorem exec_ppsIn_enabled {s : State} (hen : bit (s.rd R.TIME_PPS_CFG) 30 = true) :
    exec .ppsIn s = .next ((s.wr R.TIME_PPS_IN_TS s.now).raise 0x1A2 noFunc 0 0) := by
  have hok : ¬ ((!bit (s.rd R.TIME_PPS_CFG) 30) = true) := by simp [hen]
  change execPpsIn s = _
  simp only [execPpsIn, if_neg hok]

/-- Settles O32: one clause for each command, TIME_ADJUST's split by its operation. -/
theorem lineAndTimeCommands : Obligations.LineAndTimeCommands := by
  refine ⟨fun _ _ _ _ hc himm => exec_portOption_ready hc himm,
    fun _ _ _ _ hc hhigh hreserved => exec_portCfg_ready hc hhigh hreserved,
    fun _ _ _ _ hc hhigh => exec_pfcThresh_ready hc hhigh,
    fun _ _ _ _ hc hhigh hreserved => exec_mgmtCfg_ready hc hhigh hreserved,
    fun _ hen => exec_mgmtLink_allowed (fun _ => hen), fun _ => exec_mgmtLink_allowed (fun h => absurd h Bool.false_ne_true),
    fun ch seq c v s hc hz hv => ?adjust, fun _ _ hclk hn => exec_slewComplete_running hclk hn,
    fun s hen hw hsec => exec_ppsOut_wholeSecond hen hw ((wholeSecond_iff s).mpr hsec), fun _ hen => exec_ppsIn_enabled hen⟩
  case adjust =>
    subst hv
    exact ⟨exec_timeIncrWrite_ready hc hz, exec_timeSlew_ready hc hz, exec_timeSetStep_ready hc hz,
      exec_timeOffsetStep_ready hc hz⟩

end Sys2Proof.Machine
end

section
/-!
Chapter 9: the instructions that write a result of registers and immediates to dst, and the atomics (R201, R203, R204, R206,
R207).
-/
namespace Sys2Proof.Machine
open Sys2Proof

/-! ### From the work of an instruction to its row -/

/-- A row whose own instruction always goes on to the next one completes with what its work leaves. -/
theorem passes_of_issue {row : ThrRow} {is own : Word → Bool} {body : Fin 136 → Fin 8 → State → Word → State × IEnd}
    {does : State → Nat → Nat → Word → State}
    (hrow : ∀ e t m s, exec (row e t m) s = .next (s.issue e.val t.val m own (body e t)))
    (hown : ∀ w, is w = true → own w = true)
    (hbody : ∀ e t c w, is w = true → body e t c w = (does c e.val t.val w, .next)) : passes row is does := by
  intro e t w s m hissues hpc his hm _
  rw [hrow, issue_runs hissues hm own (hown w his), hbody e t _ w his, ends_next _ _ _ _ hpc]

/-! ### Arithmetic, logic, hashes and CRCs (Tables 9-3 and 9-5) -/

/-- The row is function `fn` of major opcode `major`, which computes `f` in `n` cycles. -/
def rowAlu (row : ThrRow) (major fn n : Nat) (bZero : Bool) (f : DWord → DWord → Nat → DWord) : Prop :=
  ∀ e t m s, exec (row e t m) s = .next (s.alu e.val t.val m major fn n bZero f)

theorem setRegIn_one (s : State) (e t r : Nat) (v : DWord) : s.setRegIn e t r 1 v = s.setReg e t r v :=
  if_pos (Or.inr (Nat.le_refl 1))

section
variable {row : ThrRow} {major fn n : Nat} {f g : DWord → DWord → Nat → DWord}

theorem computesIn_of_alu (hrow : rowAlu row major fn n false f) : computesIn n row (isFn major fn) f :=
  passes_of_issue hrow (fun _ his => his) (fun _ _ _ _ _ => rfl)

theorem computesIn_of_alu_bZero (hrow : rowAlu row major fn n true f) :
    computesIn n row (fun w => isFn major fn w && iB w == 0) f := by
  refine passes_of_issue hrow (fun _ his => (Bool.and_eq_true_iff.mp his).1) (fun _ _ _ w his => ?_)
  have hb : iB w = 0 := beq_iff_eq.mp (Bool.and_eq_true_iff.mp his).2
  exact if_neg (by simp [hb])

theorem computes_of_computesIn_one {is : Word → Bool} (h : computesIn 1 row is f) : computes row is f := by
  simpa only [computesIn, computes, setRegIn_one] using h

theorem computes_of_alu (hrow : rowAlu row major fn 1 false f) : computes row (isFn major fn) f :=
  computes_of_computesIn_one (computesIn_of_alu hrow)

theorem computes_of_alu_bZero (hrow : rowAlu row major fn 1 true f) :
    computes row (fun w => isFn major fn w && iB w == 0) f :=
  computes_of_computesIn_one (computesIn_of_alu_bZero hrow)

theorem computes_congr {is : Word → Bool} (h : computes row is f) (hfg : ∀ a b k, f a b k = g a b k) : computes row is g :=
  (funext fun a => funext fun b => funext (hfg a b) : f = g) ▸ h

end

theorem ofNat_b2n_slt (a b : DWord) : BitVec.ofNat 64 (b2n (a.slt b)) = if a.toInt < b.toInt then 1 else 0 := by
  by_cases h : a.toInt < b.toInt <;> simp [BitVec.slt, b2n, h]

theorem ofNat_b2n_ult (a b : DWord) : BitVec.ofNat 64 (b2n (a.ult b)) = if a.toNat < b.toNat then 1 else 0 := by
  by_cases h : a.toNat < b.toNat <;> simp [BitVec.ult, b2n, h]

theorem ite_slt (a b x y : DWord) : (if a.slt b then x else y) = if a.toInt < b.toInt then x else y := by
  simp only [BitVec.slt_iff_toInt_lt]

theorem ite_ult (a b x y : DWord) : (if a.ult b then x else y) = if a.toNat < b.toNat then x else y := by
  simp only [BitVec.ult_iff_lt, BitVec.lt_def]

/-! ### Immediates and bit fields (Tables 9-2 and 9-4) -/

theorem computesImm_of_aluImm {row : ThrRow} {major : Nat} {f g : DWord → DWord → DWord}
    (hrow : ∀ e t m s, exec (row e t m) s = .next (s.aluImm e.val t.val m major f)) (hfg : ∀ a i, f a i = g a i) :
    computesImm row major g :=
  passes_of_issue hrow (fun _ his => his) (fun _ _ _ _ _ => by rw [hfg])

/-- The row is bit field op `op`, which writes `f` of the word, of a and of the old dst. -/
def rowBitField (row : ThrRow) (op : Nat) (f : Word → DWord → DWord → DWord) : Prop :=
  ∀ e t m s, exec (row e t m) s = .next (s.bitField e.val t.val m op f)

theorem passes_of_bitField {row : ThrRow} {op : Nat} {f : Word → DWord → DWord → DWord}
    {does : State → Nat → Nat → Word → State} (hrow : rowBitField row op f)
    (hdoes : ∀ s e t w, does s e t w = s.setReg e t (iDst w) (f w (s.reg e t (iA w)) (s.reg e t (iDst w)))) :
    passes row (fun w => iMajor w == 0x08 && fld w 0 2 == op) does :=
  passes_of_issue hrow (fun _ his => his) (fun _ _ _ _ _ => by rw [hdoes])

/-- The field of `a` that the word names, sign-extended from its own top bit. -/
def signedField (w : Word) (a : DWord) : DWord :=
  let x := fld a (xPos w) (xWidth w)
  BitVec.ofInt 64 (if x < 2 ^ (xWidth w - 1) then (x : Int) else (x : Int) - 2 ^ xWidth w)

theorem exec_thrBfx : rowBitField @Instr.thrBfx 0 (fun w a _ => BitVec.ofNat 64 (fld a (xPos w) (xWidth w))) :=
  fun _ _ _ _ => rfl

theorem exec_thrBfxs : rowBitField @Instr.thrBfxs 1 (fun w a _ => signedField w a) := fun _ _ _ _ => rfl

theorem exec_thrBfi : rowBitField @Instr.thrBfi 2 (fun w a d => setFld d (xPos w) (xWidth w) a.toNat) := fun _ _ _ _ => rfl

/-! ### Atomics (Table 9-6) -/

/-- The row is atomic function `fn`, whose new value is `f` of the old one, of b and of the old dst. -/
def rowAtomic (row : ThrRow) (fn : Nat) (f : DWord → DWord → DWord → DWord) : Prop :=
  ∀ e t m s, exec (row e t m) s = .next (s.atomic e.val t.val m fn f)

theorem admittedAtomic_iff {fn : Nat} {w : Word} :
    (isFn 0x0A fn w && decide (32 ≤ iA w) && decide (iDst w ≠ iA w)) = true ↔
      isFn 0x0A fn w = true ∧ 32 ≤ iA w ∧ iDst w ≠ iA w := by
  simp only [Bool.and_eq_true, decide_eq_true_eq, and_assoc]

section
variable {row : ThrRow} {fn : Nat} {f g : DWord → DWord → DWord → DWord}

theorem swaps_of_atomic (hrow : rowAtomic row fn f) : swaps row fn f := by
  refine passes_of_issue hrow (fun w his => (admittedAtomic_iff.mp his).1) (fun _ _ _ w his => ?_)
  obtain ⟨_, hshared, hdst⟩ := admittedAtomic_iff.mp his
  exact if_neg (not_or_intro (Nat.not_lt.mpr hshared) hdst)

theorem swaps_congr (h : swaps row fn f) (hfg : ∀ o b d, f o b d = g o b d) : swaps row fn g :=
  (funext fun o => funext fun b => funext (hfg o b) : f = g) ▸ h

theorem faultsWhen_of_atomic (hrow : rowAtomic row fn f) :
    faultsWhen row (isFn 0x0A fn) (fun _ _ _ w => iA w < 32 ∨ iDst w = iA w) 1 (fun _ _ _ w => w.toNat) := by
  intro e t w s m hissues his hm hreserved
  rw [hrow, State.atomic, issue_runs hissues hm _ his, if_pos hreserved, ends_fault]

end

theorem exec_thrAadd : rowAtomic @Instr.thrAadd 0 (fun o b _ => o + b) := fun _ _ _ _ => rfl

theorem exec_thrAand : rowAtomic @Instr.thrAand 1 (fun o b _ => o &&& b) := fun _ _ _ _ => rfl

theorem exec_thrAor : rowAtomic @Instr.thrAor 2 (fun o b _ => o ||| b) := fun _ _ _ _ => rfl

theorem exec_thrAxor : rowAtomic @Instr.thrAxor 3 (fun o b _ => o ^^^ b) := fun _ _ _ _ => rfl

theorem exec_thrAswap : rowAtomic @Instr.thrAswap 4 (fun _ b _ => b) := fun _ _ _ _ => rfl

theorem exec_thrAminu : rowAtomic @Instr.thrAminu 5 (fun o b _ => if o.ult b then o else b) := fun _ _ _ _ => rfl

theorem exec_thrAmaxu : rowAtomic @Instr.thrAmaxu 6 (fun o b _ => if o.ult b then b else o) := fun _ _ _ _ => rfl

theorem exec_thrAcas : rowAtomic @Instr.thrAcas 7 (fun o b d => if o = d then b else o) := fun _ _ _ _ => rfl

/-- Settles O33: each row is its shared operation with a function of its own, and the operation completes, or for an atomic
of a reserved encoding faults. -/
theorem engineArithmetic : Obligations.EngineArithmetic := by
  refine ⟨
    -- ADD to SRA, SLT and SLTU, MUL and MULHU, MIN to MAXU, SLLI to SRAI
    computes_of_alu (fun _ _ _ _ => rfl), computes_of_alu (fun _ _ _ _ => rfl), computes_of_alu (fun _ _ _ _ => rfl),
    computes_of_alu (fun _ _ _ _ => rfl), computes_of_alu (fun _ _ _ _ => rfl), computes_of_alu (fun _ _ _ _ => rfl),
    computes_of_alu (fun _ _ _ _ => rfl), computes_of_alu (fun _ _ _ _ => rfl),
    computes_congr (computes_of_alu (fun _ _ _ _ => rfl)) (fun a b _ => ofNat_b2n_slt a b),
    computes_congr (computes_of_alu (fun _ _ _ _ => rfl)) (fun a b _ => ofNat_b2n_ult a b),
    computesIn_of_alu (fun _ _ _ _ => rfl), computesIn_of_alu (fun _ _ _ _ => rfl),
    computes_congr (computes_of_alu (fun _ _ _ _ => rfl)) (fun a b _ => ite_slt a b a b),
    computes_congr (computes_of_alu (fun _ _ _ _ => rfl)) (fun a b _ => ite_slt a b b a),
    computes_congr (computes_of_alu (fun _ _ _ _ => rfl)) (fun a b _ => ite_ult a b a b),
    computes_congr (computes_of_alu (fun _ _ _ _ => rfl)) (fun a b _ => ite_ult a b b a),
    computes_of_alu (fun _ _ _ _ => rfl), computes_of_alu (fun _ _ _ _ => rfl), computes_of_alu (fun _ _ _ _ => rfl),
    ?bZero,
    -- ADDI to SLTI, MOVI and MOVK
    computesImm_of_aluImm (fun _ _ _ _ => rfl) (fun _ _ => rfl), computesImm_of_aluImm (fun _ _ _ _ => rfl) (fun _ _ => rfl),
    computesImm_of_aluImm (fun _ _ _ _ => rfl) (fun _ _ => rfl), computesImm_of_aluImm (fun _ _ _ _ => rfl) (fun _ _ => rfl),
    computesImm_of_aluImm (fun _ _ _ _ => rfl) ofNat_b2n_slt,
    passes_of_issue (fun _ _ _ _ => rfl) (fun _ his => his) (fun _ _ _ _ _ => rfl),
    passes_of_issue (fun _ _ _ _ => rfl) (fun _ his => his) (fun _ _ _ _ _ => rfl),
    passes_of_bitField exec_thrBfx (fun _ _ _ _ => rfl), passes_of_bitField exec_thrBfxs (fun _ _ _ _ => rfl),
    passes_of_bitField exec_thrBfi (fun _ _ _ _ => rfl),
    ?crc,
    swaps_of_atomic exec_thrAadd, swaps_of_atomic exec_thrAand, swaps_of_atomic exec_thrAor, swaps_of_atomic exec_thrAxor,
    swaps_of_atomic exec_thrAswap, swaps_congr (swaps_of_atomic exec_thrAminu) (fun o b _ => ite_ult o b o b),
    swaps_congr (swaps_of_atomic exec_thrAmaxu) (fun o b _ => ite_ult o b b o), swaps_of_atomic exec_thrAcas,
    ?reserved⟩
  case bZero =>
    exact ⟨computes_of_alu_bZero (fun _ _ _ _ => rfl), computes_of_alu_bZero (fun _ _ _ _ => rfl),
      computes_of_alu_bZero (fun _ _ _ _ => rfl), computes_of_alu_bZero (fun _ _ _ _ => rfl),
      computes_of_alu_bZero (fun _ _ _ _ => rfl), computes_of_alu_bZero (fun _ _ _ _ => rfl),
      computes_of_alu_bZero (fun _ _ _ _ => rfl), computesIn_of_alu_bZero (fun _ _ _ _ => rfl)⟩
  case crc =>
    exact ⟨computes_of_alu (fun _ _ _ _ => rfl), computes_of_alu (fun _ _ _ _ => rfl),
      computes_of_alu (fun _ _ _ _ => rfl), computesIn_of_alu (fun _ _ _ _ => rfl),
      computes_of_alu (fun _ _ _ _ => rfl), computes_of_alu (fun _ _ _ _ => rfl),
      computes_of_alu (fun _ _ _ _ => rfl), computesIn_of_alu (fun _ _ _ _ => rfl)⟩
  case reserved =>
    simp only [List.forall_mem_cons, List.not_mem_nil, false_imp_iff, implies_true, and_true]
    exact ⟨faultsWhen_of_atomic exec_thrAadd, faultsWhen_of_atomic exec_thrAand, faultsWhen_of_atomic exec_thrAor,
      faultsWhen_of_atomic exec_thrAxor, faultsWhen_of_atomic exec_thrAswap, faultsWhen_of_atomic exec_thrAminu,
      faultsWhen_of_atomic exec_thrAmaxu, faultsWhen_of_atomic exec_thrAcas⟩

end Sys2Proof.Machine
end
